-- ==== Sys2Proof/Word.lean ====
section
/-! DEFINITION. The byte type of the model.  Everything wider is carried as `Int` or `Nat` and narrowed explicitly
(R17-R19); the fixed-point and byte-order operations themselves are in `Machine/Operands.lean`. -/
namespace Sys2Proof

/-- One byte of a message, a record, a descriptor or a DOMAIN object (Table 0.7). -/
abbrev Byte := BitVec 8

/-- A run of bytes, lowest offset first. -/
abbrev Bytes := List Byte

/-- One symbol of a Sward line (R53, R54): a data byte, a control symbol by its byte, or a code violation or running-disparity
error. -/
inductive Sym where
  | data (b : Byte)
  | control (b : Byte)
  | bad
  deriving DecidableEq, Repr

/-- K28.5 and K28.3. -/
def symComma : Sym := .control 0xBC
def symFill : Sym := .control 0x7C
/-- The 125 symbols of a frame: comma, the bytes from offset 1 on, idle fill (R54). -/
def frameSyms (b : Bytes) : List Sym := symComma :: b.map .data ++ List.replicate (124 - b.length) symFill
/-- R54: a comma at offset 0 and nowhere else, no other control symbol before the CRC, which follows offset `crcAt`, and no
violation. -/
def symsOk (crcAt : Nat) (l : List Sym) : Bool :=
  l.length == 125 && l.head? == some symComma && !(l.drop 1).contains symComma && !l.contains .bad
  && ((l.drop 1).take crcAt).all fun s => match s with | .data _ => true | _ => false
/-- The data bytes of offsets 1 to `n`. -/
def symBytes (n : Nat) (l : List Sym) : Bytes :=
  ((l.drop 1).take n).filterMap fun s => match s with | .data b => some b | _ => none

end Sys2Proof
end

