-- ==== Sys2Proof/Machine/TypesCommand.lean ====
section
/-! DEFINITION. Operands of the commands: what a time source delivers, the timers of the PTP port, addresses and items of the
dictionary protocol, and the objects that a row of the table leaves to the command to name. -/
namespace Sys2Proof.Machine

/-- What a source delivers: a mean over 125 marks; master time (s, ns) with the TOD time of the same tick; an edge's time. -/
inductive TimeSample where
  | ring
  | ptp (sec : Nat) (ns : Nat) (tod : Int)
  | pps (edge : Int)
  deriving DecidableEq, Repr

/-- What a PTP timer is for. -/
inductive PtpTimer where
  | sync | announce | delay | receipt
  deriving DecidableEq, Repr

/-- An address of the dictionary protocol (Table 14.3). -/
structure Addr where
  index : Nat
  sub : Nat
  node : Nat
  deriving DecidableEq, Repr

/-- An item of WRITE and WRITE_MULTI: an address, a wire type and a value (Table 14.5). -/
structure Item where
  addr : Addr
  typ : Nat
  data : Bytes
  deriving DecidableEq, Repr

/-- The objects of `ch.limit` that LIMIT_WRITE writes. -/
inductive LimitField where
  | vPos | vNeg | iPos | iNeg | absCount
  deriving DecidableEq, Repr

/-- The objects of `ch.rng` that RANGE_POLICY_WRITE writes. -/
inductive RangeField where
  | iFloor | iCeil | iPin | vFloor | vCeil | vPin | upPct | downPct | downDwell | downGuard | armTime | stitchPct | stitchTol
  | gapPolicy | restartMax | predHi | predLo | predBand | predHold
  deriving DecidableEq, Repr

/-- The objects of a guard entry (R220). -/
inductive GuardField where
  | kind | check | position | line | level | avg | fallback | emit
  deriving DecidableEq, Repr

/-- The threshold, hysteresis and slope of a trigger input (R310). -/
inductive TinField where
  | thresh | hyst | slope
  deriving DecidableEq, Repr

/-- The objects whose write resets a logic cell (R330). -/
inductive LutField where
  | ff | filter | clk
  deriving DecidableEq, Repr

/-- The objects of a binding (R391). -/
inductive BindingField where
  | udpPort | udpEnable | canEnable | spiEnable
  deriving DecidableEq, Repr

/-- `ctb.src` and the objects that select its signal (R277). -/
inductive CtbField where
  | src | tin | mon | cpr
  deriving DecidableEq, Repr

/-- PRP mode and addressing (R427). -/
inductive AddressField where
  | prpMode | ipMode | ipAddr | ipMask
  deriving DecidableEq, Repr

/-- The objects that schedule a leap second (R301). -/
inductive LeapField where
  | instant | dir
  deriving DecidableEq, Repr

/-- The calibration blocks that a write replaces (R542). -/
inductive CalField where
  | chan (n : Fin 96) | sam | axd | tiu
  deriving DecidableEq, Repr

end Sys2Proof.Machine
end

