-- ==== Sys2Proof/Syntax.lean ====
section
/-! DEFINITION. The commands of the block: one constructor for each row of the opcode table, in the table's order.  The comment on
each names its rule; what it does is in `Machine/Exec*.lean`. -/
namespace Sys2Proof
open Sys2Proof.Machine

inductive Instr where
  /-- CONTROLLER_FRAME (R38). -/
  | controllerFrame (tick : Nat)
  /-- UP_FRAME (R69). -/
  | upFrame (n : Fin 12) (comma : Sym) (aligned : Bool) (inverted : Bool) (age : Fin 4) (rtt : Nat) (syms : List Sym)
  /-- DESC_DATA (R78). -/
  | descData (n : Fin 12) (tag : Nat) (b : Bytes)
  /-- STATUS (R76). -/
  | status (n : Fin 12) (tag : Nat) (b : Bytes)
  /-- ACK (R75). -/
  | ack (n : Fin 12) (tag : Nat) (b : Bytes)
  /-- EVENT (R63). -/
  | event (n : Fin 12) (tag : Nat) (b : Bytes)
  /-- SEGMENT_RESEND (R74). -/
  | segmentResend (n : Fin 12)
  /-- REPLY_TIMEOUT (R75). -/
  | replyTimeout (n : Fin 12)
  /-- TRAIN_TIMEOUT (R84). -/
  | trainTimeout (n : Fin 12)
  /-- RETRAIN_TIMEOUT (R83). -/
  | retrainTimeout (n : Fin 12)
  /-- DRAIN_LIMIT (R83). -/
  | drainLimit (n : Fin 12)
  /-- LANE_ENABLE (R83). -/
  | laneEnable (n : Fin 12) (on : Bool)
  /-- LANE_ATTACH (R92). -/
  | laneAttach (n : Fin 12)
  /-- LANE_RETRAIN (R95). -/
  | laneRetrain (n : Fin 12)
  /-- LANE_SAFE_RELEASE (R65). -/
  | laneSafeRelease (n : Fin 12)
  /-- HOLD_TIMEOUT_WRITE (R82). -/
  | holdTimeoutWrite (n : Fin 12) (value : Nat)
  /-- LANE_DIV_WRITE (R34). -/
  | laneDivWrite (n : Fin 12) (value : Nat)
  /-- CHANNEL_ENABLE (R405). -/
  | channelEnable (n : Fin 96)
  /-- CHANNEL_DISABLE (R115). -/
  | channelDisable (n : Fin 96)
  /-- CASCADE_ENGAGE (R123). -/
  | cascadeEngage (n : Fin 96)
  /-- CASCADE_DISENGAGE (R126). -/
  | cascadeDisengage (n : Fin 96)
  /-- REP_CLEAR (R144). -/
  | repClear (n : Fin 96)
  /-- REP_BINS_WRITE (R144). -/
  | repBinsWrite (n : Fin 96) (value : Nat)
  /-- REP_DATA_WRITE (R144). -/
  | repDataWrite (n : Fin 96) (b : Bytes)
  /-- REP_MODE_WRITE (R141). -/
  | repModeWrite (n : Fin 96) (value : Nat)
  /-- TRACE_ARM (R148). -/
  | traceArm (n : Fin 12)
  /-- TRACE_FORCE (R147). -/
  | traceForce (n : Fin 12)
  /-- TRACE_STOP (R148). -/
  | traceStop (n : Fin 12)
  /-- LIMIT_WRITE (R154). -/
  | limitWrite (n : Fin 96) (field : LimitField) (value : Int)
  /-- RANGE_POLICY_WRITE (R180). -/
  | rangePolicyWrite (n : Fin 96) (field : RangeField) (value : Nat)
  /-- APERTURE_START (R187). -/
  | apertureStart (n : Fin 96)
  /-- APERTURE_STOP (R190). -/
  | apertureStop (n : Fin 96)
  /-- RESULT_WRITE (R198). -/
  | resultWrite
  /-- RESULT_DISPATCH (R199). -/
  | resultDispatch
  /-- STREAM_ENABLE (R205). -/
  | streamEnable (k : Fin 16)
  /-- SEQ_ARM (R226). -/
  | seqArm (n : Fin 96)
  /-- SEQ_START (R226). -/
  | seqStart (n : Fin 96)
  /-- SEQ_STOP (R226). -/
  | seqStop (n : Fin 96)
  /-- SEGMENT_TABLE_WRITE (R231). -/
  | segmentTableWrite (off : Nat) (b : Bytes)
  /-- LIST_WRITE (R231). -/
  | listWrite (off : Nat) (b : Bytes)
  /-- GUARD_WRITE (R220). -/
  | guardWrite (n : Fin 96) (guard : Fin 7) (field : GuardField) (value : Int)
  /-- POINT_START (R240). -/
  | pointStart (p : Fin 4096)
  /-- POINT_STOP (R240). -/
  | pointStop (p : Fin 4096)
  /-- CLEAR_ALARM (R236). -/
  | clearAlarm (p : Fin 4096)
  /-- POINT_RECORD_WRITE (R421). -/
  | pointRecordWrite (p : Fin 4096) (b : Bytes)
  /-- DISPATCH_PASS (R253). -/
  | dispatchPass
  /-- POINT_WINDOW_EXPIRY (R240). -/
  | pointWindowExpiry (p : Fin 4096)
  /-- PATH_MAKE_TIME (R241). -/
  | pathMakeTime (p : Fin 4096)
  /-- PATH_SETTLE_END (R240). -/
  | pathSettleEnd (p : Fin 4096)
  /-- POINT_SETTLE_END (R242). -/
  | pointSettleEnd (p : Fin 4096)
  /-- POINT_LISTEN_TIMEOUT (R240). -/
  | pointListenTimeout (p : Fin 4096)
  /-- RELAY_BUS_SLOT (R256). -/
  | relayBusSlot
  /-- RELAY_REPLY (R257). -/
  | relayReply (present : Bool) (frame : Nat)
  /-- RELAY_REREAD (R260). -/
  | relayReread
  /-- RELAY_FAULT_LINE (R261). -/
  | relayFaultLine
  /-- RELAY_AUDIT (R261). -/
  | relayAudit
  /-- RBC_START (R263). -/
  | rbcStart
  /-- RELEASE_ORPHANS (R263). -/
  | releaseOrphans
  /-- ALL_OFF (R266). -/
  | allOff
  /-- RELAY_COUNT_CLEAR (R265). -/
  | relayCountClear (r : Fin 16384)
  /-- RELAY_COUNT_SAVE (R264). -/
  | relayCountSave
  /-- SCAN_ARM (R251). -/
  | scanArm (n : Fin 256)
  /-- SCAN_START (R251). -/
  | scanStart (n : Fin 256)
  /-- SCAN_STOP (R251). -/
  | scanStop (n : Fin 256)
  /-- SCAN_TIME_START (R249). -/
  | scanTimeStart (n : Fin 256)
  /-- SCAN_NEXT_ENTRY (R248). -/
  | scanNextEntry (n : Fin 256)
  /-- SCAN_DELAY_END (R248). -/
  | scanDelayEnd (n : Fin 256)
  /-- CTB_SOURCE_CHANGE (R277). -/
  | ctbSourceChange (field : CtbField) (value : Nat)
  /-- CTB_REACQUIRE (R277). -/
  | ctbReacquire
  /-- CTB_EDGE (R270). -/
  | ctbEdge (tick : Fin 250) (back : Nat)
  /-- CTB_ENCODER_COUNT (R281). -/
  | ctbEncoderCount (tick : Fin 250) (a : Bool) (b : Bool)
  /-- CTB_COAST_TIMEOUT (R277). -/
  | ctbCoastTimeout (tick : Fin 250)
  /-- CTB_STALL_TIMEOUT (R277). -/
  | ctbStallTimeout (tick : Fin 250)
  /-- CTB_INSTANT (R274). -/
  | ctbInstant (tick : Fin 250)
  /-- TOD_SAMPLE (R291). -/
  | todSample (x : TimeSample)
  /-- TOD_SOURCE_LOSS (R292). -/
  | todSourceLoss (k : Fin 4)
  /-- TOD_SWITCH_HOLDOFF (R293). -/
  | todSwitchHoldoff (k : Fin 4)
  /-- TOD_HOLDOVER_EXPIRY (R296). -/
  | todHoldoverExpiry
  /-- TOD_SECOND (R287). -/
  | todSecond
  /-- TOD_STEP_APPLY (R295). -/
  | todStepApply
  /-- TOD_WRITE_APPLY (R297). -/
  | todWriteApply
  /-- LEAP_APPLY (R302). -/
  | leapApply
  /-- RTC_LOAD (R289). -/
  | rtcLoad (counts : Nat)
  /-- TOD_SET (R297). -/
  | todSet (value : Int)
  /-- TOD_CAL_SET (R297). -/
  | todCalSet (b : Bytes)
  /-- TOD_CANCEL (R298). -/
  | todCancel
  /-- UTC_OFFSET_WRITE (R301). -/
  | utcOffsetWrite (value : Int)
  /-- LEAP_SCHEDULE (R301). -/
  | leapSchedule (field : LeapField) (value : Int)
  /-- PTP_MESSAGE (R431). -/
  | ptpMessage (p : Fin 2) (tick : Fin 250) (b : Bytes)
  /-- PTP_INTERVAL (R430). -/
  | ptpInterval (timer : PtpTimer) (tick : Fin 250)
  /-- PTP_PORT_FAILOVER (R433). -/
  | ptpPortFailover
  /-- TIN_EDGE (R308). -/
  | tinEdge (k : Fin 8) (uv : List Int) (tick : Fin 250) (back : Nat) (code : Nat)
  /-- TIN_OVERRATE (R311). -/
  | tinOverrate (k : Fin 8)
  /-- TIN_OVERRATE_END (R311). -/
  | tinOverrateEnd (k : Fin 8)
  /-- TIN_STUCK (R312). -/
  | tinStuck (k : Fin 8)
  /-- TIN_LATCH_TIMEOUT (R313). -/
  | tinLatchTimeout (k : Fin 8)
  /-- TIN_LATCH_CLEAR (R313). -/
  | tinLatchClear (k : Fin 8)
  /-- TIN_CONFIG_WRITE (R310). -/
  | tinConfigWrite (k : Fin 8) (field : TinField) (value : Nat)
  /-- TDC_ARM (R319). -/
  | tdcArm (k : Fin 8)
  /-- TDC_STOP (R319). -/
  | tdcStop (k : Fin 8)
  /-- TDC_CAL_DONE (R318). -/
  | tdcCalDone (k : Fin 8) (k1 : Nat) (k2 : Nat)
  /-- TDC_TIMEOUT (R319). -/
  | tdcTimeout (k : Fin 8)
  /-- TDC_WINDOW_END (R319). -/
  | tdcWindowEnd (k : Fin 8)
  /-- EVIO_PIN_CHANGE (R331). -/
  | evioPinChange (p : Fin 16) (level : Bool)
  /-- ERM_CYCLE (R329). -/
  | ermCycle (c : Fin 50)
  /-- SOFT_EVENT (R322). -/
  | softEvent (value : Nat)
  /-- SELECTOR_WRITE (R326). -/
  | selectorWrite (c : Fin 192) (value : Nat)
  /-- LUT_MODE_WRITE (R330). -/
  | lutModeWrite (k : Fin 32) (field : LutField) (value : Nat)
  /-- EVIO_PULSE_END (R331). -/
  | evioPulseEnd (p : Fin 16)
  /-- SYS_LINE_SAMPLE (R333). -/
  | sysLineSample (tick : Fin 250)
  /-- SYS_LINE_RELEASE (R333). -/
  | sysLineRelease
  /-- AP_START_EDGE (R328). -/
  | apStartEdge (n : Fin 96)
  /-- TRACE_EDGE (R328). -/
  | traceEdge (n : Fin 12)
  /-- SEQ_LINE_EDGE (R328). -/
  | seqLineEdge (k : Fin 16)
  /-- TIU_GATE_EDGE (R328). -/
  | tiuGateEdge (k : Fin 8) (tick : Fin 250)
  /-- SCAN_LINE_EDGE (R328). -/
  | scanLineEdge (k : Fin 16)
  /-- SAM_URGENT_EDGE (R344). -/
  | samUrgentEdge (k : Fin 2) (c : Fin 50)
  /-- AXD_TRIG_EDGE (R355). -/
  | axdTrigEdge (k : Fin 4) (c : Fin 50)
  /-- JRN_MARK_EDGE (R328). -/
  | jrnMarkEdge
  /-- SAM_CONVERSION (R338). -/
  | samConversion (k : Fin 2) (uV : Int) (vref : Nat)
  /-- SAM_RESTART (R345). -/
  | samRestart (k : Fin 2)
  /-- SAM_ENTRY_WRITE (R345). -/
  | samEntryWrite (e : Fin 64) (value : Nat)
  /-- SAM_CAL_ZERO (R352). -/
  | samCalZero
  /-- SAM_CAL_SPAN (R352). -/
  | samCalSpan
  /-- SAM_CAL_COMPUTE (R352). -/
  | samCalCompute (role : Fin 4)
  /-- SAM_CAL_ABORT (R352). -/
  | samCalAbort
  /-- AXD_ARM (R355). -/
  | axdArm (k : Fin 4)
  /-- AXD_START (R355). -/
  | axdStart (k : Fin 4)
  /-- AXD_STOP (R355). -/
  | axdStop (k : Fin 4)
  /-- AXD_STEP (R355). -/
  | axdStep (k : Fin 4)
  /-- AXD_FLUSH (R356). -/
  | axdFlush (k : Fin 4)
  /-- AXD_PUSH (R356). -/
  | axdPush (k : Fin 4) (b : Bytes)
  /-- AXD_TABLE (R356). -/
  | axdTable (k : Fin 4) (b : Bytes)
  /-- AXD_LEVEL (R355). -/
  | axdLevel (k : Fin 4) (value : Nat)
  /-- AXD_SAMPLE (R356). -/
  | axdSample (k : Fin 4) (c : Fin 50)
  /-- READ (R375). -/
  | read (k : Fin 16) (acked : Nat) (a : Addr)
  /-- WRITE (R375). -/
  | write (k : Fin 16) (acked : Nat) (x : Item)
  /-- READ_MULTI (R375). -/
  | readMulti (k : Fin 16) (acked : Nat) (l : List Addr)
  /-- WRITE_MULTI (R375). -/
  | writeMulti (k : Fin 16) (acked : Nat) (l : List Item)
  /-- PEEK (R376). -/
  | peek (k : Fin 16) (acked : Nat) (a : Addr)
  /-- LOCK (R378). -/
  | lock (k : Fin 16) (acked : Nat) (node : Nat) (lease : Nat) (l : List (Nat × Nat))
  /-- RENEW (R381). -/
  | renew (k : Fin 16) (acked : Nat) (handle : Nat) (lease : Nat)
  /-- RELEASE (R381). -/
  | release (k : Fin 16) (acked : Nat) (handle : Nat)
  /-- COMMIT (R380). -/
  | commit (k : Fin 16) (acked : Nat) (handle : Nat) (keep : Bool)
  /-- SUBSCRIBE (R384). -/
  | subscribe (k : Fin 16) (acked : Nat) (action : Nat) (kind : Nat) (a : Addr)
  /-- OPEN (R365). -/
  | openSession (binding : Nat) (src : Nat) (key : Fin 16) (role : Fin 4) (timeout : Nat) (nonce : Bytes)
  /-- REJOIN (R386). -/
  | rejoin (k : Fin 16) (src : Nat) (key : Fin 16) (seen : Nat) (timeout : Nat) (nonce : Bytes)
  /-- REPLAY (R385). -/
  | replay (k : Fin 16) (acked : Nat) (seen : Nat)
  /-- BLOCK_READ (R377). -/
  | blockRead (k : Fin 16) (acked : Nat) (a : Addr) (off : Nat) (len : Nat)
  /-- BLOCK_WRITE (R377). -/
  | blockWrite (k : Fin 16) (acked : Nat) (a : Addr) (off : Nat) (b : Bytes)
  /-- BLOCK_WRITE_LAST (R377). -/
  | blockWriteLast (k : Fin 16) (acked : Nat) (a : Addr) (off : Nat) (b : Bytes)
  /-- NOP (R360). -/
  | nop (k : Fin 16) (acked : Nat)
  /-- HELD_REQUEST_EXPIRY (R369). -/
  | heldRequestExpiry (k : Fin 16)
  /-- SESSION_TIMEOUT (R368). -/
  | sessionTimeout (k : Fin 16)
  /-- OPENING_TIMEOUT (R368). -/
  | openingTimeout (k : Fin 16)
  /-- LEASE_EXPIRY (R381). -/
  | leaseExpiry (k : Fin 32)
  /-- SESSION_CLOSE (R368). -/
  | sessionClose (k : Fin 16)
  /-- BINDING_WRITE (R391). -/
  | bindingWrite (field : BindingField) (value : Nat)
  /-- WRITE_MSG (R388). -/
  | writeMsg (known : Bool) (len : Nat) (b : Bytes)
  /-- READ_STATUS (R388). -/
  | readStatus
  /-- READ_MSG (R388). -/
  | readMsg (count : Nat)
  /-- CAN_FRAME (R388). -/
  | canFrame (p : Fin 2) (id : Nat) (extended : Bool) (b : Bytes)
  /-- CAN_REASSEMBLY_TIMEOUT (R388). -/
  | canReassemblyTimeout (p : Fin 2) (chan : Fin 8)
  /-- STORE (R400). -/
  | store
  /-- STORE_DONE (R400). -/
  | storeDone (ok : Bool)
  /-- RESTORE (R402). -/
  | restore
  /-- DEFAULTS (R402). -/
  | defaults
  /-- ERASE (R402). -/
  | erase
  /-- MIRROR_REFRESH (R396). -/
  | mirrorRefresh
  /-- STICKY_FLAGS_READ (R24). -/
  | stickyFlagsRead (index : Nat) (sub : Nat)
  /-- TRACKER_READ (R347). -/
  | trackerRead (max : Bool) (e : Fin 64)
  /-- HIWATER_READ (R206). -/
  | hiwaterRead
  /-- TIN_LATCH_READ (R313). -/
  | tinLatchRead (k : Fin 8)
  /-- FCR_STATUS_READ (R499). -/
  | fcrStatusRead (severe : Bool) (w : Fin 8)
  /-- COMPAT_STATUS_READ (R510). -/
  | compatStatusRead (k : Fin 16)
  /-- ETH_FRAME (R426). -/
  | ethFrame (p : Fin 2) (tick : Fin 250) (good : Bool) (b : Bytes)
  /-- MDIO_POLL (R426). -/
  | mdioPoll (p : Fin 2) (link : Fin 4) (full : Bool)
  /-- PRP_SUPERVISION (R428). -/
  | prpSupervision
  /-- DHCP_RENEW (R426). -/
  | dhcpRenew (iface : Fin 2)
  /-- DHCP_REBIND (R426). -/
  | dhcpRebind (iface : Fin 2)
  /-- ARP_AGEING (R426). -/
  | arpAgeing (iface : Fin 2)
  /-- PRP_MODE_WRITE (R427). -/
  | prpModeWrite (field : AddressField) (iface : Fin 2) (value : Nat)
  /-- CAN_BUS_OFF_RECOVERY (R434). -/
  | canBusOffRecovery (p : Fin 2)
  /-- HL_FRAME_ORIGINATE (R436). -/
  | hlFrameOriginate (tick : Fin 250) (first : Fin 40) (count : Nat)
  /-- HL_FRAME (R436). -/
  | hlFrame (p : Fin 2) (tick : Fin 250) (sd : Fin 5) (fwd : Nat) (first : Fin 40) (cells : List Bytes)
  /-- HL_PORT_DOWN (R438). -/
  | hlPortDown (p : Fin 2)
  /-- HL_ISOLATED (R440). -/
  | hlIsolated
  /-- ELECT_DELAY (R439). -/
  | electDelay
  /-- DICT_REQ (R389). -/
  | dictReq (k : Fin 16) (role : Fin 4) (b : Bytes)
  /-- DICT_RSP (R389). -/
  | dictRsp (node : Fin 64) (k : Fin 16) (b : Bytes)
  /-- NOTIF_PACKET (R451). -/
  | notifPacket (node : Fin 64) (seq : Nat) (b : Bytes)
  /-- RESULT_PACKET (R450). -/
  | resultPacket (node : Fin 64) (stream : Fin 16) (seq : Nat) (b : Bytes)
  /-- FORM (R439). -/
  | form (priority : Nat) (role : Nat) (uid : Nat)
  /-- ALIVE (R442). -/
  | alive (node : Fin 64) (uid : Nat) (pos : Nat) (measured : Bool)
  /-- BREAK (R452). -/
  | breakPacket (pos : Nat) (port : Fin 2)
  /-- UNWRAP (R453). -/
  | unwrap (mark : Int)
  /-- RECOVER_REQUEST (R447). -/
  | recoverRequest (start : Int)
  /-- RECOVER_REPLY (R447). -/
  | recoverReply (node : Fin 64) (left : Nat) (l : List (Int × Nat))
  /-- LINK (R443). -/
  | link (p : Fin 2) (sent : Nat) (rcvd : Nat)
  /-- ALIVE_SEND (R442). -/
  | aliveSend
  /-- LINK_SEND (R443). -/
  | linkSend (p : Fin 2)
  /-- NODE_LEFT (R442). -/
  | nodeLeft (node : Fin 64)
  /-- HL_REVERT_HOLD (R453). -/
  | hlRevertHold
  /-- HL_UNWRAP_MARK (R453). -/
  | hlUnwrapMark
  /-- REFORM (R442). -/
  | reform
  /-- HL_ENABLE (R440). -/
  | hlEnable (on : Bool)
  /-- CLOCK_LOSS (R457). -/
  | clockLoss (k : Fin 3)
  /-- CLOCK_QUALIFIED (R456). -/
  | clockQualified (k : Fin 2)
  /-- HRC_TRIM_WINDOW (R459). -/
  | hrcTrimWindow (excess : Int)
  /-- PLL_LOCK (R462). -/
  | pllLock
  /-- RELOCK_TIMEOUT (R467). -/
  | relockTimeout
  /-- QUAL_TIMEOUT (R467). -/
  | qualTimeout
  /-- STEER_DONE (R461). -/
  | steerDone
  /-- MUX_SWITCH_DONE (R464). -/
  | muxSwitchDone
  /-- CLOCK_REVERT_HOLD (R467). -/
  | clockRevertHold
  /-- REVERT (R467). -/
  | revert
  /-- REF_SEL_WRITE (R458). -/
  | refSelWrite (value : Nat)
  /-- CLOCK_GATE_WRITE (R475). -/
  | clockGateWrite (mask : Nat)
  /-- DRIFT_WINDOW (R473). -/
  | driftWindow
  /-- BACKUP_LIMIT (R474). -/
  | backupLimit
  /-- DOMAIN_ON (R479). -/
  | domainOn (mask : Nat)
  /-- DOMAIN_OFF (R479). -/
  | domainOff (mask : Nat)
  /-- DOMAIN_SWITCH_DONE (R479). -/
  | domainSwitchDone (n : Fin 31)
  /-- QUIET (R481). -/
  | quiet
  /-- PMU_RUN (R481). -/
  | pmuRun
  /-- STANDBY (R482). -/
  | standby
  /-- RESET_REQUEST (R485). -/
  | resetRequest (straps : Nat)
  /-- CONFIRM (R494). -/
  | confirm
  /-- POWER_ON_RESET (R485). -/
  | powerOnReset
  /-- RESET_PIN_LOW (R487). -/
  | resetPinLow
  /-- RESET_PIN_HIGH (R487). -/
  | resetPinHigh (straps : Nat)
  /-- RESET_STUCK_GUARD (R487). -/
  | resetStuckGuard (straps : Nat)
  /-- RESET_PIN_REARM (R487). -/
  | resetPinRearm
  /-- POWER_FAIL_WARNING (R489). -/
  | powerFailWarning
  /-- WATCHDOG_EXPIRY (R490). -/
  | watchdogExpiry (core : Fin 2) (straps : Nat)
  /-- CORE_RESET (R485). -/
  | coreReset (core : Nat)
  /-- LANE_RESET (R485). -/
  | laneReset (mask : Nat)
  /-- UNIT_RESET (R485). -/
  | unitReset (mask : Nat)
  /-- BOOT_IMAGE_VERIFIED (R492). -/
  | bootImageVerified
  /-- BOOT_CONFIRM_TIME (R494). -/
  | bootConfirmTime
  /-- WAKE (R483). -/
  | wake (src : Nat) (detail : Nat) (straps : Nat)
  /-- POWER_OFF (R484). -/
  | powerOff
  /-- FAULT_RAISE (R499). -/
  | faultRaise (src : Fin 256) (level : Fin 3) (cause : Nat) (detail : Nat) (line : Bool)
  /-- FAULT_ACK (R507). -/
  | faultAck
  /-- FCR_SAFE (R519). -/
  | fcrSafe
  /-- FAULT_INJECT (R509). -/
  | faultInject (b : Bytes)
  /-- HEARTBEAT_MISS (R512). -/
  | heartbeatMiss
  /-- CHECKPOINT (R512). -/
  | checkpoint
  /-- CORE_REJOIN (R514). -/
  | coreRejoin (core : Fin 2) (ok : Bool)
  /-- DEBUG_HALT (R514). -/
  | debugHalt (core : Fin 2)
  /-- DEBUG_HALT_END (R514). -/
  | debugHaltEnd (core : Fin 2)
  /-- RECHECK (R519). -/
  | recheck
  /-- LEAVE_SAFE (R519). -/
  | leaveSafe
  /-- RESTORE_LANE (R524). -/
  | restoreLane (lane : Nat)
  /-- LANE_GRACE_EXPIRY (R524). -/
  | laneGraceExpiry (n : Fin 12)
  /-- FLASH_PROGRAM_DONE (R528). -/
  | flashProgramDone (ok : Bool)
  /-- FLASH_STALL (R517). -/
  | flashStall
  /-- SEAL_INTERVAL (R531). -/
  | sealInterval
  /-- SEAL_NOW (R531). -/
  | sealNow
  /-- FORMAT (R534). -/
  | format
  /-- JRN_VERIFY (R538). -/
  | jrnVerify
  /-- JRN_VERIFY_DONE (R538). -/
  | jrnVerifyDone
  /-- ACK_TO (R533). -/
  | ackTo (value : Nat)
  /-- PAGE_REFRESH (R536). -/
  | pageRefresh (sector : Nat)
  /-- ADOPT (R543). -/
  | adopt (n : Fin 96) (role : Fin 4)
  /-- CAL_BLOCK_WRITE (R542). -/
  | calBlockWrite (block : CalField) (role : Fin 4) (b : Bytes)
  /-- CAL_TAG_WRITE (R542). -/
  | calTagWrite (n : Fin 96) (role : Fin 4) (tag : Nat)
  /-- CAL_ZERO (R544). -/
  | calZero (role : Fin 4)
  /-- CAL_MID (R544). -/
  | calMid (role : Fin 4)
  /-- CAL_SPAN (R544). -/
  | calSpan (role : Fin 4)
  /-- CAL_COMPUTE (R544). -/
  | calCompute (role : Fin 4)
  /-- CAL_OUT (R544). -/
  | calOut (role : Fin 4)
  /-- CAL_ABORT (R544). -/
  | calAbort (role : Fin 4)
  /-- CAL_MEASURE_DONE (R544). -/
  | calMeasureDone
  /-- KEY_SET (R546). -/
  | keySet (k : Fin 16) (slot : Fin 16) (b : Bytes)
  /-- KEY_ERASE (R546). -/
  | keyErase (slot : Fin 16)
  /-- ENTROPY_TEST_FAIL (R547). -/
  | entropyTestFail
  /-- FW_BEGIN (R549). -/
  | fwBegin
  /-- FW_IMAGE_WRITE (R549). -/
  | fwImageWrite (off : Nat) (b : Bytes)
  /-- FW_VERIFY (R549). -/
  | fwVerify
  /-- FW_INSTALL (R549). -/
  | fwInstall
  /-- FW_ABORT (R549). -/
  | fwAbort
  /-- FW_REVOKE (R550). -/
  | fwRevoke (key : Fin 4)
  /-- DEBUG_UNLOCK (R551). -/
  | debugUnlock
  /-- DEBUG_LOCK (R551). -/
  | debugLock
  /-- DEBUG_LOCK_EXPIRY (R551). -/
  | debugLockExpiry
  /-- DEBUG_PEEK (R390). -/
  | debugPeek (a : Addr)
  /-- JTAG_TAP_RESET (R573). -/
  | jtagTapReset
  /-- DOMAIN_SWITCHED_OFF_BY_FAULT (R192). -/
  | domainSwitchedOffByFault (n : Fin 31)
  /-- VBAT_BELOW_MINIMUM (R288). -/
  | vbatBelowMinimum
  /-- POWER_ON_RESET_RELEASE (R487). -/
  | powerOnResetRelease (counts : Nat) (size : Nat) (able : Bool) (straps : Nat)
  /-- DHCP_LEASE_EXPIRY (R429). -/
  | dhcpLeaseExpiry (iface : Fin 2)
  /-- CAN_BUS_ERROR (R434). -/
  | canBusError (p : Fin 2) (transmit : Bool) (heavy : Bool)
  /-- LINK_FRAME_ORIGINATE (R438). -/
  | linkFrameOriginate (p : Fin 2) (tick : Fin 250) (sd : Fin 5)
  /-- FW_VERIFY_DONE (R549). -/
  | fwVerifyDone
  /-- ENTROPY_TEST_PASS (R547). -/
  | entropyTestPass
  deriving DecidableEq, Repr

end Sys2Proof
end

