-- ==== Sys2Proof/Decode.lean ====
section
/-! DEFINITION. Words of commands.  No row of the opcode table gives bits: a command comes from outside (a message on a binding, a
frame on a link, an event on a pin, the end of a time) and no word spells one. -/
namespace Sys2Proof

/-- No word of any length spells a command of this block. (DESIGN CHOICE, log 1) -/
def decodeTableWord (nbits w : Nat) : Option Instr :=
  match nbits, w with
  | _, _ => none

end Sys2Proof
end

