-- ==== Sys2Proof/Config.lean ====
section
/-! DEFINITION. The values the specification leaves open: constants without a body.  A free value is one of them applied to
the counter `Dev.draws`, which every use advances. -/
namespace Sys2Proof.Config

/-- Bytes of the on-die entropy source (R547): nonces, the journal key, journal ids. (DESIGN CHOICE, log 44) -/
opaque randomByte : Nat → Byte
/-- The error of sinq (R218: no more than 2 units of 2^-31); its use clamps it to that bound. (DESIGN CHOICE, log 44) -/
opaque sineError : Nat → Int
/-- Coefficients that no rule gives: k2 and g of a calibration through points two of which have one mean (R544).
(DESIGN CHOICE, log 44) -/
opaque calCoefficient : Nat → Int
/-- Time from the fault to the resumption of a takeover in ns (R513: at most 300 us); its use clamps it to that bound.
(DESIGN CHOICE, log 44) -/
opaque takeoverGap : Nat → Nat
/-- Factory MAC address of port E0 or E1, in the identity partition. (DESIGN CHOICE, log 44) -/
opaque factoryMac : Nat → Nat
/-- Counts of the 32.768 kHz oscillator since the last RTC load, where the command that loads it does not carry them (R289).
(DESIGN CHOICE, log 16) -/
opaque rtcCounts : Nat → Nat
/-- UTC offset and leap schedule of the ring's head (0 none, 1 positive, 2 negative), which no rule says how a node receives
(R304). (DESIGN CHOICE, log 44) -/
opaque headUtcOffset : Nat → Int
/-- (DESIGN CHOICE, log 44) -/
opaque headLeap : Nat → Nat
/-- Half a trim step of the HRC in ppb (R459 gives 12 to 18 ppm a step). (DESIGN CHOICE, log 44) -/
opaque hrcHalfStep : Nat

end Sys2Proof.Config
end

