-- ==== Sys2Proof/Machine/Operands.lean ====
section
/-! DEFINITION. The number forms every unit shares: the fixed point of R17 and R18, saturating counters, and the byte
orders of R19 and R53. -/
namespace Sys2Proof.Machine

/-- `x` held to `lo..hi` (R18, third bullet: narrowing saturates and never wraps). -/
def clampI (lo hi x : Int) : Int := if x < lo then lo else if hi < x then hi else x

def i32Max : Int := 2147483647
def i32Min : Int := -2147483648
def i64Max : Int := 9223372036854775807
def i64Min : Int := -9223372036854775808

/-- `min(max(x, lo), hi)`. -/
def clampMM (lo hi x : Int) : Int := min (max x lo) hi

/-- `narrow32` of R18. -/
def narrow32 (x : Int) : Int := clampI i32Min i32Max x

/-- Saturation to I64 (R104, R125). -/
def narrow64 (x : Int) : Int := clampI i64Min i64Max x

/-- `round_shift` of R18: arithmetic shift right, to nearest, ties to even. -/
def roundShift (x : Int) (s : Nat) : Int :=
  if s = 0 then x
  else
    let q := x / (2 ^ s : Int)
    let r := x - q * (2 ^ s : Int)
    let half : Int := 2 ^ (s - 1)
    if half < r ∨ (r = half ∧ q % 2 = 1) then q + 1 else q

/-- Exact division rounded to nearest, ties to even (R106, R71): the quotient of R18's rounding for a divisor that is
no power of two.  A divisor of 0 never occurs in the rules that use it; 0 is answered there. -/
def roundDiv (n d : Int) : Int :=
  if d = 0 then 0
  else
    let n' := if d < 0 then -n else n
    let d' := if d < 0 then -d else d
    let q := n' / d'
    let r := n' - q * d'
    if d' < 2 * r ∨ (d' = 2 * r ∧ q % 2 = 1) then q + 1 else q

/-- A Q32 value: `int × 2^−shift` (R17). -/
structure Q32 where
  int : Int
  shift : Nat
  deriving DecidableEq, Repr

def qZero : Q32 := ⟨0, 0⟩
/-- 1.0 as the defaults of the object tables write it. -/
def qOne : Q32 := ⟨0x40000000, 30⟩

/-- `round_shift(q.int × x, q.shift)`. -/
def qMul (q : Q32) (x : Int) : Int := roundShift (q.int * x) q.shift

/-- Comparison of two represented values (R394: a relation is tested on the values represented). -/
def qLe (a b : Q32) : Bool := decide (a.int * (2 : Int) ^ b.shift ≤ b.int * (2 : Int) ^ a.shift)
def qLt (a b : Q32) : Bool := decide (a.int * (2 : Int) ^ b.shift < b.int * (2 : Int) ^ a.shift)

/-- The integer that R101 stores for the ratio `n ÷ d` at shift `s`. -/
def ratioAt (n d : Int) (s : Nat) : Int := roundDiv (n * (2 : Int) ^ s) d

/-- The search of R101 from shift `s` downward: the largest shift whose rounded integer lies in 1..2^31−1. -/
def ratioFrom (n d : Int) : Nat → Q32
  | 0 => if ratioAt n d 0 > i32Max then ⟨i32Max, 0⟩ else if ratioAt n d 0 < 1 then ⟨1, 62⟩ else ⟨ratioAt n d 0, 0⟩
  | s + 1 =>
    let v := ratioAt n d (s + 1)
    if v < 1 then ⟨1, 62⟩
    else if v ≤ i32Max then ⟨v, s + 1⟩ else ratioFrom n d s

/-- A ratio as a Q32 under R101, with its two saturations.  Rounded integers fall with the shift, so a rounded integer
below 1 is met first at shift 62 or not at all. -/
def ratioQ (n d : Int) : Q32 := ratioFrom n d 62

/-- A Q32 for a ratio of either sign (R352, R544: "the largest shift that fits"). -/
def ratioSigned (n d : Int) : Q32 :=
  let n' := if d < 0 then -n else n
  let d' := if d < 0 then -d else d
  if n' = 0 ∨ d' = 0 then ⟨0, 62⟩
  else if n' < 0 then let q := ratioQ (-n') d'; ⟨-q.int, q.shift⟩ else ratioQ n' d'

/-! Bits and bytes. -/

/-- Bits `hi..lo` of `v`. -/
def bits (v hi lo : Nat) : Nat := (v >>> lo) % 2 ^ (hi + 1 - lo)
def bit (v k : Nat) : Bool := (v >>> k) % 2 == 1
def b2n (b : Bool) : Nat := if b then 1 else 0
/-- `v` with bit `k` set, and with it clear. -/
def setBit (v k : Nat) : Nat := v ||| (1 <<< k)
def clrBit (v k : Nat) : Nat := if bit v k then v - (1 <<< k) else v
def putBit (v k : Nat) (b : Bool) : Nat := if b then setBit v k else clrBit v k
/-- How many bits of the `n` lowest of `v` are set. -/
def popCount (v : Nat) : Nat → Nat
  | 0 => 0
  | n + 1 => b2n (bit v n) + popCount v n

/-- Two's complement: the signed reading of the `w` low bits, and the unsigned field that carries a signed value. -/
def toSigned (w v : Nat) : Int := let u := v % 2 ^ w; if u < 2 ^ (w - 1) then (u : Int) else (u : Int) - 2 ^ w
def ofSigned (w : Nat) (v : Int) : Nat := (v % (2 ^ w : Int)).toNat

/-- `n` bytes of `v`, least significant first (R19), and the number they carry. -/
def leBytes : Nat → Nat → Bytes
  | 0, _ => []
  | n + 1, v => BitVec.ofNat 8 v :: leBytes n (v / 256)
def leNat : Bytes → Nat
  | [] => 0
  | b :: bs => b.toNat + 256 * leNat bs
/-- Most significant first (R53). -/
def beBytes (n v : Nat) : Bytes := (leBytes n v).reverse
def beNat (bs : Bytes) : Nat := leNat bs.reverse
def leInt (n : Nat) (v : Int) : Bytes := leBytes n (ofSigned (8 * n) v)
def leSigned (n : Nat) (bs : Bytes) : Int := toSigned (8 * n) (leNat bs)

/-- `n` bytes of a record from offset `off`. -/
def slice (bs : Bytes) (off n : Nat) : Bytes := (bs.drop off).take n
/-- A fixed-length field: NUL-padded or cut to `n` bytes (R394). -/
def padTo (n : Nat) (bs : Bytes) : Bytes := (bs ++ List.replicate n 0).take n
/-- `bs` extended with zeros to at least `n` bytes. -/
def padMin (n : Nat) (bs : Bytes) : Bytes := bs ++ List.replicate (n - bs.length) 0
/-- `bs` with the bytes from `off` replaced by `v`. -/
def splice (bs : Bytes) (off : Nat) (v : Bytes) : Bytes := bs.take off ++ v ++ bs.drop (off + v.length)
def leField (bs : Bytes) (off n : Nat) : Nat := leNat (slice bs off n)
def leFieldI (bs : Bytes) (off n : Nat) : Int := leSigned n (slice bs off n)
def beField (bs : Bytes) (off n : Nat) : Nat := beNat (slice bs off n)
def allZero (bs : Bytes) : Bool := bs.all (· == 0)
def ascii (s : String) : Bytes := s.toList.map (fun c => BitVec.ofNat 8 c.toNat)
def xorBytes (a b : Bytes) : Bytes := List.zipWith (· ^^^ ·) a b

/-- Update of the element at `k`; out of range leaves the list unchanged. -/
def listSet {α : Type} (l : List α) (k : Nat) (v : α) : List α := l.set k v
/-- The last `n` elements. -/
def lastN {α : Type} (n : Nat) (l : List α) : List α := l.drop (l.length - n)
/-- Sum of a list of integers. -/
def sumI (l : List Int) : Int := l.foldl (· + ·) 0
/-- Apply `f` for 0..n−1 in ascending order. -/
def forUpto {σ : Type} (n : Nat) (f : Nat → σ → σ) (s : σ) : σ := (List.range n).foldl (fun a k => f k a) s
/-- Apply `f` to every element of a list in order. -/
def forEach {σ α : Type} (l : List α) (f : α → σ → σ) (s : σ) : σ := l.foldl (fun a x => f x a) s

end Sys2Proof.Machine
end

