-- ==== Sys2Proof/Machine/Crypto.lean ====
section
/-! DEFINITION. The checks and seals of the specification: CRC-32C (R68), SHA-256, HMAC-SHA-256 (R364, R530) and the
ECDSA P-256 verification of a firmware header (R548), each from the public standard the specification names. -/
namespace Sys2Proof.Machine

/-- One bit of the reflected CRC-32C division; 0x82F6_3B78 is 0x1EDC_6F41 reflected. -/
def crcBit (c : Nat) : Nat := if c % 2 = 1 then (c / 2) ^^^ 0x82F63B78 else c / 2
def crcByte (c : Nat) (b : Byte) : Nat :=
  let x := c ^^^ b.toNat
  crcBit (crcBit (crcBit (crcBit (crcBit (crcBit (crcBit (crcBit x)))))))
/-- CRC-32C of R68. -/
def crc32c (bs : Bytes) : Nat := (bs.foldl crcByte 0xFFFFFFFF) ^^^ 0xFFFFFFFF

/-! SHA-256 (FIPS 180-4). The standard defines its constants as fractional bits of roots of the first primes, and they are
computed here from that definition; the schedule is a window of sixteen words that slides one word a round. -/

abbrev W32 := BitVec 32

/-- Whether `n` below 324 is prime, by trial division up to 17. -/
def smallPrime (n : Nat) : Bool :=
  Nat.blt 1 n && (List.range 18).all fun k => Nat.blt k 2 || Nat.ble n k || Nat.blt 0 (n % k)

/-- The first 64 primes, 2 to 311. -/
def shaPrimes : List Nat := (List.range 312).filter smallPrime

/-- The largest `r + x`, `x < 2 ^ bits`, whose power `e` does not exceed `v`, one bit at a time. -/
def rootFrom (e v : Nat) : Nat → Nat → Nat
  | 0, r => r
  | bits + 1, r => rootFrom e v bits (if Nat.ble ((r + 2 ^ bits) ^ e) v then r + 2 ^ bits else r)

/-- The first 32 bits of the fractional part of the root of order `e` of `p`. -/
def rootWord (e p : Nat) : W32 := BitVec.ofNat 32 (rootFrom e (p * 2 ^ (32 * e)) 37 0)

/-- What one block is worked on with: the chaining words and the window of the schedule. -/
structure ShaWork where
  regs : List W32
  window : List W32

/-- The exclusive or of three views of a word: two rotations and a rotation or shift. -/
def spread (x : W32) (i j : Nat) (y : W32) : W32 := x.rotateRight i ^^^ x.rotateRight j ^^^ y

/-- One round with round constant `k`: the register shifts by one word, and the window by one. -/
def shaStep (s : ShaWork) (k : W32) : ShaWork :=
  match s.regs, s.window with
  | [a, b, c, d, e, f, g, h], w :: ws =>
    let choose := g ^^^ (e &&& (f ^^^ g))
    let majority := (a &&& b) ||| (c &&& (a ||| b))
    let t := h + k + w + choose + spread e 6 11 (e.rotateRight 25)
    let near := ws.getD 0 0
    let far := ws.getD 13 0
    let next := w + ws.getD 8 0 + spread near 7 18 (near >>> 3) + spread far 17 19 (far >>> 10)
    ⟨[t + majority + spread a 2 13 (a.rotateRight 22), a, b, c, d + t, e, f, g], ws ++ [next]⟩
  | _, _ => s

/-- The block of 16 big-endian words that begins at byte `at_` of the padded message. -/
def shaWindow (p : Bytes) (at_ : Nat) : List W32 :=
  (List.range 16).map fun i => BitVec.ofNat 32 (beNat (slice p (at_ + 4 * i) 4))

/-- SHA-256. (PRESUMED, log 91) -/
def sha256 (bs : Bytes) : Bytes :=
  let fill := (119 - bs.length % 64) % 64
  let p := bs ++ (0x80 :: List.replicate fill 0) ++ beBytes 8 (8 * bs.length)
  let ks := shaPrimes.map (rootWord 3)
  let digest := (List.range (p.length / 64)).foldl
    (fun hs b => List.zipWith (· + ·) hs (ks.foldl shaStep ⟨hs, shaWindow p (64 * b)⟩).regs)
    ((shaPrimes.take 8).map (rootWord 2))
  digest.flatMap fun w => beBytes 4 w.toNat

/-- HMAC-SHA-256 (FIPS 198-1). (PRESUMED, log 91) -/
def hmacSha256 (key msg : Bytes) : Bytes :=
  let k0 := padTo 64 (if 64 < key.length then sha256 key else key)
  let ik := k0.map (· ^^^ 0x36)
  let ok := k0.map (· ^^^ 0x5c)
  sha256 (ok ++ sha256 (ik ++ msg))

/-! ECDSA over P-256 (FIPS 186-5), verification only. -/

def p256p : Nat := 0xffffffff00000001000000000000000000000000ffffffffffffffffffffffff
def p256n : Nat := 0xffffffff00000000ffffffffffffffffbce6faada7179e84f3b9cac2fc632551
def p256b : Nat := 0x5ac635d8aa3a93e7b3ebbd55769886bc651d06b0cc53b0f63bce3c3e27d2604b
def p256gx : Nat := 0x6b17d1f2e12c4247f8bce6e563a440f277037d812deb33a0f4a13945d898c296
def p256gy : Nat := 0x4fe342e2fe1a7f9b8ee7eb4a7c0f9e162bce33576b315ececbb6406837bf51f5

/-- `b^e mod m` for an exponent of at most `fuel` bits. -/
def powMod (m : Nat) : Nat → Nat → Nat → Nat
  | 0, _, _ => 1 % m
  | fuel + 1, b, e =>
    let r := powMod m fuel (b * b % m) (e / 2)
    if e % 2 = 1 then r * b % m else r
def invMod (m a : Nat) : Nat := powMod m 256 (a % m) (m - 2)
def subMod (m a b : Nat) : Nat := (a % m + m - b % m) % m

/-- A point of the curve; `none` is the point at infinity. -/
abbrev EcPoint := Option (Nat × Nat)

def ecAdd (x y : EcPoint) : EcPoint :=
  match x, y with
  | none, q => q
  | p, none => p
  | some (x1, y1), some (x2, y2) =>
    if x1 = x2 ∧ (y1 + y2) % p256p = 0 then none
    else
      let l := if x1 = x2 then (3 * x1 * x1 + p256p - 3) % p256p * invMod p256p (2 * y1) % p256p
               else subMod p256p y2 y1 * invMod p256p (subMod p256p x2 x1) % p256p
      let x3 := subMod p256p (subMod p256p (l * l) x1) x2
      some (x3, subMod p256p (l * subMod p256p x1 x3) y1)

def ecMul : Nat → Nat → EcPoint → EcPoint
  | 0, _, _ => none
  | fuel + 1, k, pt =>
    let r := ecMul fuel (k / 2) (ecAdd pt pt)
    if k % 2 = 1 then ecAdd r pt else r

def onCurve (x y : Nat) : Bool :=
  decide (x < p256p) && decide (y < p256p) &&
    decide (y * y % p256p = (x * x * x + (p256p - 3) * x + p256b) % p256p)

/-- Verification of `sig = r ‖ s` over `msg` under the public key `key = x ‖ y`, all big-endian. (PRESUMED, log 91) -/
def ecdsaVerify (key msg sig : Bytes) : Bool :=
  let x := beNat (key.take 32)
  let y := beNat (slice key 32 32)
  let r := beNat (sig.take 32)
  let s := beNat (slice sig 32 32)
  let z := beNat (sha256 msg)
  if key.length ≠ 64 ∨ ¬ (onCurve x y = true) ∨ r = 0 ∨ p256n ≤ r ∨ s = 0 ∨ p256n ≤ s then false
  else
    let w := invMod p256n s
    match ecAdd (ecMul 256 (z * w % p256n) (some (p256gx, p256gy))) (ecMul 256 (r * w % p256n) (some (x, y))) with
    | none => false
    | some (px, _) => decide (px % p256n = r)

end Sys2Proof.Machine
end

