-- ==== Sys2Proof/Machine/Flags.lean ====
section
/-! DEFINITION. The flag and counter computations the units share: sticky words that a read clears (R24), counters that
saturate, majority and limit tests with hysteresis. -/
namespace Sys2Proof.Machine

/-- A sticky word with the bits of `m` set. -/
def orWord (w m : Nat) : Nat := w ||| m
/-- A counter of `w` bits that saturates. -/
def satInc (w v : Nat) : Nat := if v + 1 < 2 ^ w then v + 1 else 2 ^ w - 1
def satAdd (w v n : Nat) : Nat := if v + n < 2 ^ w then v + n else 2 ^ w - 1

/-- The limit state of R348 and R246: 0 inside, 1 above, 2 below, with hysteresis `h`.  A value leaves a limit state
only when it is back inside by more than the hysteresis. -/
def bandState (old : Nat) (x lo hi h : Int) : Nat :=
  if hi < x then 1
  else if x < lo then 2
  else if old = 1 ∧ hi - h < x then 1
  else if old = 2 ∧ x < lo + h then 2
  else 0

/-- At least three of the last five samples agree with `b` (R307, R572). -/
def majority5 (b : Bool) (l : List Bool) : Bool := decide (3 ≤ (l.filter (· == b)).length)

/-- The distance of R372 from `b` to `a`: notifications numbered after `b` up to and including `a`, 0 being no number. -/
def dseqDist (a b : Nat) : Nat :=
  let d := (a + 2 ^ 32 - b) % 2 ^ 32
  if a < b ∧ d ≠ 0 then d - 1 else d
/-- The DSEQ after `n` (R372: 0xFFFF_FFFF is followed by 1). (DEDUCED, log 25) -/
def dseqNext (n : Nat) : Nat := if n + 1 < 2 ^ 32 then n + 1 else 1

end Sys2Proof.Machine
end

