-- ==== Sys2Proof/Machine/Tab.lean ====
section
/-! DEFINITION. Sparse stores: lists of (key, value) pairs with strictly rising keys.  A store reads a named default at a
key it does not list, and writing that default removes the entry, so equal contents are equal lists. -/
namespace Sys2Proof.Machine

/-- A sparse store of `α` by number. (DESIGN CHOICE, log 6) -/
abbrev Tab (α : Type) := List (Nat × α)

def tabFind {α : Type} : Tab α → Nat → Option α
  | [], _ => none
  | (j, v) :: t, k => if j = k then some v else tabFind t k

/-- (DESIGN CHOICE, log 6) -/
def tabPut {α : Type} : Tab α → Nat → α → Tab α
  | [], k, v => [(k, v)]
  | (j, w) :: t, k, v =>
    if k < j then (k, v) :: (j, w) :: t
    else if k = j then (k, v) :: t
    else (j, w) :: tabPut t k v

def tabDel {α : Type} : Tab α → Nat → Tab α
  | [], _ => []
  | (j, w) :: t, k => if j = k then tabDel t k else (j, w) :: tabDel t k

/-- Read with default `d`. -/
def tabGet {α : Type} (d : α) (t : Tab α) (k : Nat) : α := (tabFind t k).getD d

/-- Write with default `d`: the default is never listed. (DESIGN CHOICE, log 6) -/
def tabSet {α : Type} [DecidableEq α] (d : α) (t : Tab α) (k : Nat) (v : α) : Tab α :=
  if v = d then tabDel t k else tabPut t k v

/-- Keys above `k0`, strictly rising. -/
def tabSorted {α : Type} : Option Nat → Tab α → Bool
  | _, [] => true
  | lo, (j, _) :: t => (match lo with | none => true | some l => decide (l < j)) && tabSorted (some j) t

/-- The canonical form: keys strictly rising, no entry equal to the default of its key. -/
def tabWf {α : Type} [DecidableEq α] (d : Nat → α) (t : Tab α) : Bool :=
  tabSorted none t && t.all (fun p => decide (p.2 ≠ d p.1))

/-- Consecutive cells from `k`. -/
def tabSetRun {α : Type} [DecidableEq α] (d : α) (t : Tab α) : Nat → List α → Tab α
  | _, [] => t
  | k, v :: vs => tabSetRun d (tabSet d t k v) (k + 1) vs
def tabRun {α : Type} (d : α) (t : Tab α) (k : Nat) : Nat → List α
  | 0 => []
  | n + 1 => tabGet d t k :: tabRun d t (k + 1) n

end Sys2Proof.Machine
end

