-- ==== Sys2Proof/Machine/Value.lean ====
section
/-! DEFINITION. What a dictionary object is (R392-R394, Table 0.7): its address, type, access, role, persistence class,
default and permitted values; and the values it can hold. -/
namespace Sys2Proof.Machine

/-- The types of Table 0.7 in the order of their wire codes (Table 14.4). -/
inductive Ty where
  | bool | u8 | u16 | u32 | u64 | i8 | i16 | i32 | i64 | q32 | volt | amp | time64 | dur64 | phase | cyc64 | enum8
  | str | domain
  deriving DecidableEq, Repr

/-- The access classes of R24, in the order of Table 15.10. -/
inductive Access where
  | ro | rw | wo | rws | const
  deriving DecidableEq, Repr

/-- The roles of R21, lowest first. -/
inductive Role where
  | observer | operator | calibrator | owner
  deriving DecidableEq, Repr

/-- The persistence classes of R23. -/
inductive Pers where
  | volatile | stored | cal | ident
  deriving DecidableEq, Repr

/-- A value in force.  A Q32 is kept as written, integer and shift (R394); STR and DOMAIN are kept as bytes. -/
inductive Val where
  | num (v : Int)
  | q (int : Int) (shift : Nat)
  | bytes (b : Bytes)
  deriving DecidableEq, Repr

/-- One row of an object table.  Instance `i` of the family lies `i` strides up in index, and group field `g` lies `g`
group strides up in subindex (R25, R418, R419).  `lo`, `hi`, `alts` and `rsv` are the permitted values of the Meaning
entry: a number in `lo..hi` or listed in `alts`, with no bit of `rsv` set (R20). -/
structure Obj where
  idx : Nat
  sub : Nat
  cnt : Nat := 1
  stride : Nat := 0
  gcnt : Nat := 1
  gstride : Nat := 0
  ty : Ty
  acc : Access
  role : Role
  pers : Pers := .volatile
  dflt : Val
  lo : Int := 0
  hi : Int := 0
  alts : List Int := []
  rsv : Nat := 0
  maxLen : Nat := 0
  deriving DecidableEq, Repr

/-- The key of instance `i`, group field `g`: its index and subindex as one number. -/
def objKey (o : Obj) (i g : Nat) : Nat := (o.idx + i * o.stride) * 256 + (o.sub + g * o.gstride)

/-- Roles as numbers (Table 14.6). -/
def roleNum : Role → Nat
  | .observer => 0 | .operator => 1 | .calibrator => 2 | .owner => 3
def roleOf : Nat → Role
  | 0 => .observer | 1 => .operator | 2 => .calibrator | _ => .owner

/-- Wire type codes (Table 14.4). -/
def tyCode : Ty → Nat
  | .bool => 1 | .u8 => 2 | .u16 => 3 | .u32 => 4 | .u64 => 5 | .i8 => 6 | .i16 => 7 | .i32 => 8 | .i64 => 9
  | .q32 => 10 | .volt => 11 | .amp => 12 | .time64 => 13 | .dur64 => 14 | .phase => 15 | .cyc64 => 16 | .enum8 => 17
  | .str => 18 | .domain => 19

/-- Fixed lengths of Table 14.4; STR and DOMAIN answer none. -/
def tyLen : Ty → Option Nat
  | .bool | .u8 | .i8 | .enum8 => some 1
  | .u16 | .i16 | .phase => some 2
  | .u32 | .i32 => some 4
  | .u64 | .i64 | .q32 | .volt | .amp | .time64 | .dur64 | .cyc64 => some 8
  | .str | .domain => none

def tySigned : Ty → Bool
  | .i8 | .i16 | .i32 | .i64 | .volt | .amp | .time64 => true
  | _ => false

/-- Wire bytes of a value (Table 15.1). -/
def encodeVal (ty : Ty) (v : Val) : Bytes :=
  match v with
  | .num n => leInt ((tyLen ty).getD 0) n
  | .q i s => leInt 4 i ++ [BitVec.ofNat 8 s, 0, 0, 0]
  | .bytes b => b

/-- The value that wire bytes of the right length spell. -/
def decodeVal (ty : Ty) (b : Bytes) : Val :=
  match ty with
  | .str | .domain => .bytes b
  | .q32 => .q (leSigned 4 (b.take 4)) (leField b 4 1)
  | _ => if tySigned ty then .num (leSigned b.length b) else .num (leNat b)

end Sys2Proof.Machine
end

