-- ==== Sys2Proof/Machine/ObjectsDevice.lean ====
section
/-! DEFINITION. The dictionary objects of protocol, device, networks, clocks, power, faults, journal, calibration and security (chapters 14-21): one row of the
specification's object tables per definition, with its type, access, role, persistence, default and permitted values. -/
namespace Sys2Proof.Machine.O

/-- 0x1100:01 `jdp.version` (Table of chapter 14): Protocol version -/
def jdpVersion : Obj :=
  { idx := 0x1100, sub := 0x01, ty := .u8, acc := .const, role := .observer, dflt := .num 1 }

/-- 0x1100:02 `jdp.max_body` (Table of chapter 14): Largest body -/
def jdpMaxBody : Obj :=
  { idx := 0x1100, sub := 0x02, ty := .u16, acc := .const, role := .observer, dflt := .num 1024 }

/-- 0x1100:03 `jdp.timeout_default` (Table of chapter 14): Session timeout when none is requested, 1–3,600. -/
def jdpTimeoutDefault : Obj :=
  { idx := 0x1100, sub := 0x03, ty := .u16, acc := .rw, role := .owner, pers := .stored, dflt := .num 10, lo := 1, hi := 3600 }

/-- 0x1100:04 `jdp.udp.port` (Table of chapter 14): UDP port, 1,024–65,535; closes the UDP sessions and takes effect at once. -/
def jdpUdpPort : Obj :=
  { idx := 0x1100, sub := 0x04, ty := .u16, acc := .rw, role := .owner, pers := .stored, dflt := .num 18980, lo := 1024, hi := 65535 }

/-- 0x1100:05 `jdp.udp.enable` (Table of chapter 14): UDP binding. -/
def jdpUdpEnable : Obj :=
  { idx := 0x1100, sub := 0x05, ty := .bool, acc := .rw, role := .owner, pers := .stored, dflt := .num 1, lo := 0, hi := 1 }

/-- 0x1100:06 `jdp.can.enable` (Table of chapter 14): [7:2] —; [1] CAN port 1; [0] CAN port 0. -/
def jdpCanEnable : Obj :=
  { idx := 0x1100, sub := 0x06, ty := .u8, acc := .rw, role := .owner, pers := .stored, dflt := .num 0, lo := 0, hi := 255, rsv := 0xFC }

/-- 0x1100:07 `jdp.can.base` (Table of chapter 14): Base identifier, 0x000–0x7F0, a multiple of 16. -/
def jdpCanBase : Obj :=
  { idx := 0x1100, sub := 0x07, ty := .u16, acc := .rw, role := .owner, pers := .stored, dflt := .num 1536, lo := 0, hi := 2032 }

/-- 0x1100:08 `jdp.spi.enable` (Table of chapter 14): Host SPI binding. -/
def jdpSpiEnable : Obj :=
  { idx := 0x1100, sub := 0x08, ty := .bool, acc := .rw, role := .owner, pers := .stored, dflt := .num 1, lo := 0, hi := 1 }

/-- 0x1100:09 `jdp.self` (Table of chapter 14): Slot of the reading session; 0xFF for the debug port -/
def jdpSelf : Obj :=
  { idx := 0x1100, sub := 0x09, ty := .u8, acc := .ro, role := .observer, dflt := .num 0 }

/-- 0x1100:0A `jdp.sessions` (Table of chapter 14): Open sessions -/
def jdpSessions : Obj :=
  { idx := 0x1100, sub := 0x0A, ty := .u8, acc := .ro, role := .observer, dflt := .num 0 }

/-- 0x1100:0B `jdp.ret.span` (Table of chapter 14): Time covered by the retained notifications -/
def jdpRetSpan : Obj :=
  { idx := 0x1100, sub := 0x0B, ty := .dur64, acc := .ro, role := .observer, dflt := .num 0 }

/-- 0x1101:01 `jdp.cnt.malformed` (Table of chapter 14): Table 14.7 step 1; saturates -/
def jdpCntMalformed : Obj :=
  { idx := 0x1101, sub := 0x01, ty := .u32, acc := .ro, role := .observer, dflt := .num 0 }

/-- 0x1101:02 `jdp.cnt.version` (Table of chapter 14): Step 2; saturates -/
def jdpCntVersion : Obj :=
  { idx := 0x1101, sub := 0x02, ty := .u32, acc := .ro, role := .observer, dflt := .num 0 }

/-- 0x1101:03 `jdp.cnt.unknown` (Table of chapter 14): Step 3; saturates -/
def jdpCntUnknown : Obj :=
  { idx := 0x1101, sub := 0x03, ty := .u32, acc := .ro, role := .observer, dflt := .num 0 }

/-- 0x1101:04 `jdp.cnt.tag` (Table of chapter 14): Step 4; saturates -/
def jdpCntTag : Obj :=
  { idx := 0x1101, sub := 0x04, ty := .u32, acc := .ro, role := .observer, dflt := .num 0 }

/-- 0x1101:05 `jdp.cnt.nonce` (Table of chapter 14): Step 5; saturates -/
def jdpCntNonce : Obj :=
  { idx := 0x1101, sub := 0x05, ty := .u32, acc := .ro, role := .observer, dflt := .num 0 }

/-- 0x1101:06 `jdp.cnt.window` (Table of chapter 14): Requests beyond the window; saturates -/
def jdpCntWindow : Obj :=
  { idx := 0x1101, sub := 0x06, ty := .u32, acc := .ro, role := .observer, dflt := .num 0 }

/-- 0x1101:07 `jdp.cnt.held_expired` (Table of chapter 14): Held requests discarded; saturates -/
def jdpCntHeldExpired : Obj :=
  { idx := 0x1101, sub := 0x07, ty := .u32, acc := .ro, role := .observer, dflt := .num 0 }

/-- 0x1110:01 `jdp.ses.state` (Table of chapter 14): 0 FREE, 1 OPENING (no request yet, R368), 2 OPEN -/
def jdpSesState : Obj :=
  { idx := 0x1110, sub := 0x01, cnt := 16, stride := 0x1, ty := .enum8, acc := .ro, role := .observer, dflt := .num 0 }

/-- 0x1110:02 `jdp.ses.id` (Table of chapter 14): SID -/
def jdpSesId : Obj :=
  { idx := 0x1110, sub := 0x02, cnt := 16, stride := 0x1, ty := .u16, acc := .ro, role := .observer, dflt := .num 0 }

/-- 0x1110:03 `jdp.ses.role` (Table of chapter 14): Role, coded as in Table 14.6 -/
def jdpSesRole : Obj :=
  { idx := 0x1110, sub := 0x03, cnt := 16, stride := 0x1, ty := .enum8, acc := .ro, role := .observer, dflt := .num 0 }

/-- 0x1110:04 `jdp.ses.binding` (Table of chapter 14): [7:4] CAN channel; [3:0] 0 none, 1 UDP, 2 CAN port 0, 3 CAN port 1, 4 host SPI -/
def jdpSesBinding : Obj :=
  { idx := 0x1110, sub := 0x04, cnt := 16, stride := 0x1, ty := .u8, acc := .ro, role := .observer, dflt := .num 0 }

/-- 0x1110:05 `jdp.ses.peer` (Table of chapter 14): UDP: [47:16] IPv4 address, [15:0] port -/
def jdpSesPeer : Obj :=
  { idx := 0x1110, sub := 0x05, cnt := 16, stride := 0x1, ty := .u64, acc := .ro, role := .observer, dflt := .num 0 }

/-- 0x1110:06 `jdp.ses.cseq` (Table of chapter 14): e (R369) -/
def jdpSesCseq : Obj :=
  { idx := 0x1110, sub := 0x06, cnt := 16, stride := 0x1, ty := .u32, acc := .ro, role := .observer, dflt := .num 0 }

/-- 0x1110:07 `jdp.ses.dseq` (Table of chapter 14): Last DSEQ issued -/
def jdpSesDseq : Obj :=
  { idx := 0x1110, sub := 0x07, cnt := 16, stride := 0x1, ty := .u32, acc := .ro, role := .observer, dflt := .num 0 }

/-- 0x1110:08 `jdp.ses.ack` (Table of chapter 14): Last ACK received -/
def jdpSesAck : Obj :=
  { idx := 0x1110, sub := 0x08, cnt := 16, stride := 0x1, ty := .u32, acc := .ro, role := .observer, dflt := .num 0 }

/-- 0x1110:09 `jdp.ses.lag` (Table of chapter 14): Distance from the last ACK received to the last DSEQ issued (R372) -/
def jdpSesLag : Obj :=
  { idx := 0x1110, sub := 0x09, cnt := 16, stride := 0x1, ty := .u32, acc := .ro, role := .observer, dflt := .num 0 }

/-- 0x1110:0A `jdp.ses.timeout` (Table of chapter 14): Timeout granted -/
def jdpSesTimeout : Obj :=
  { idx := 0x1110, sub := 0x0A, cnt := 16, stride := 0x1, ty := .u16, acc := .ro, role := .observer, dflt := .num 0 }

/-- 0x1110:0B `jdp.ses.idle` (Table of chapter 14): Since the last authenticated message -/
def jdpSesIdle : Obj :=
  { idx := 0x1110, sub := 0x0B, cnt := 16, stride := 0x1, ty := .dur64, acc := .ro, role := .observer, dflt := .num 0 }

/-- 0x1110:0C `jdp.ses.locks` (Table of chapter 14): Locks held, 0–4 -/
def jdpSesLocks : Obj :=
  { idx := 0x1110, sub := 0x0C, cnt := 16, stride := 0x1, ty := .u8, acc := .ro, role := .observer, dflt := .num 0 }

/-- 0x1110:0D `jdp.ses.subs` (Table of chapter 14): Subscriptions held, 0–48 -/
def jdpSesSubs : Obj :=
  { idx := 0x1110, sub := 0x0D, cnt := 16, stride := 0x1, ty := .u8, acc := .ro, role := .observer, dflt := .num 0 }

/-- 0x1110:0E `jdp.ses.dropped` (Table of chapter 14): Notifications discarded (R383) -/
def jdpSesDropped : Obj :=
  { idx := 0x1110, sub := 0x0E, cnt := 16, stride := 0x1, ty := .u64, acc := .ro, role := .observer, dflt := .num 0 }

/-- 0x1110:0F `jdp.ses.opened` (Table of chapter 14): Time of the OPEN -/
def jdpSesOpened : Obj :=
  { idx := 0x1110, sub := 0x0F, cnt := 16, stride := 0x1, ty := .time64, acc := .ro, role := .observer, dflt := .num (-9223372036854775808) }

/-- 0x1110:10 `jdp.ses.rejoins` (Table of chapter 14): REJOINs accepted; saturates -/
def jdpSesRejoins : Obj :=
  { idx := 0x1110, sub := 0x10, cnt := 16, stride := 0x1, ty := .u32, acc := .ro, role := .observer, dflt := .num 0 }

/-- 0x1110:11 `jdp.ses.cmd` (Table of chapter 14): 1 CLOSE; any role for its own slot, OWNER for another (R368) -/
def jdpSesCmd : Obj :=
  { idx := 0x1110, sub := 0x11, cnt := 16, stride := 0x1, ty := .enum8, acc := .wo, role := .observer, dflt := .num 0, lo := 1, hi := 1 }

/-- 0x1140:01 `jdp.lock.owner` (Table of chapter 14): Holding slot; 0xFF free -/
def jdpLockOwner : Obj :=
  { idx := 0x1140, sub := 0x01, cnt := 32, stride := 0x1, ty := .u8, acc := .ro, role := .observer, dflt := .num 255 }

/-- 0x1140:02 `jdp.lock.handle` (Table of chapter 14): Handle -/
def jdpLockHandle : Obj :=
  { idx := 0x1140, sub := 0x02, cnt := 32, stride := 0x1, ty := .u16, acc := .ro, role := .observer, dflt := .num 0 }

/-- 0x1140:03 `jdp.lock.node` (Table of chapter 14): Node of the ranges -/
def jdpLockNode : Obj :=
  { idx := 0x1140, sub := 0x03, cnt := 32, stride := 0x1, ty := .u8, acc := .ro, role := .observer, dflt := .num 0 }

/-- 0x1140:04 `jdp.lock.ranges` (Table of chapter 14): 32 bytes: 8 × (low U16, high U16); unused ranges 0 -/
def jdpLockRanges : Obj :=
  { idx := 0x1140, sub := 0x04, cnt := 32, stride := 0x1, ty := .domain, acc := .ro, role := .observer, dflt := .bytes [] }

/-- 0x1140:05 `jdp.lock.remaining` (Table of chapter 14): Time to E (R381) -/
def jdpLockRemaining : Obj :=
  { idx := 0x1140, sub := 0x05, cnt := 32, stride := 0x1, ty := .dur64, acc := .ro, role := .observer, dflt := .num 0 }

/-- 0x1140:06 `jdp.lock.staged` (Table of chapter 14): Writes staged, 0–128 -/
def jdpLockStaged : Obj :=
  { idx := 0x1140, sub := 0x06, cnt := 32, stride := 0x1, ty := .u16, acc := .ro, role := .observer, dflt := .num 0 }

/-- 0x1140:07 `jdp.lock.staged_bytes` (Table of chapter 14): Bytes staged, 0–16,384 -/
def jdpLockStagedBytes : Obj :=
  { idx := 0x1140, sub := 0x07, cnt := 32, stride := 0x1, ty := .u32, acc := .ro, role := .observer, dflt := .num 0 }

/-- 0xF000:01 `dbg.attached` (Table of chapter 14): A debugger holds the JTAG port -/
def dbgAttached : Obj :=
  { idx := 0xF000, sub := 0x01, ty := .bool, acc := .ro, role := .observer, dflt := .num 0 }

/-- 0xF000:02 `dbg.unlocked` (Table of chapter 14): Debug unlocked (R390) -/
def dbgUnlocked : Obj :=
  { idx := 0xF000, sub := 0x02, ty := .bool, acc := .ro, role := .observer, dflt := .num 0 }

/-- 0xF000:03 `dbg.peeks` (Table of chapter 14): PEEKs through the debug port since reset -/
def dbgPeeks : Obj :=
  { idx := 0xF000, sub := 0x03, ty := .u64, acc := .ro, role := .observer, dflt := .num 0 }

/-- 0xF000:04 `dbg.last_peek` (Table of chapter 14): Address of the last debug PEEK, as Table 14.3 -/
def dbgLastPeek : Obj :=
  { idx := 0xF000, sub := 0x04, ty := .u32, acc := .ro, role := .observer, dflt := .num 0 }

/-- 0xF000:05 `dbg.halted` (Table of chapter 14): [7:2] —; [1] core B halted; [0] core A halted -/
def dbgHalted : Obj :=
  { idx := 0xF000, sub := 0x05, ty := .u8, acc := .ro, role := .observer, dflt := .num 0 }

/-- 0xF000:06 `dbg.halts` (Table of chapter 14): Debug halts since reset; saturates -/
def dbgHalts : Obj :=
  { idx := 0xF000, sub := 0x06, ty := .u32, acc := .ro, role := .observer, dflt := .num 0 }

/-- 0x1000:01 `id.vendor` (Table of chapter 15): Vendor. IDENT -/
def idVendor : Obj :=
  { idx := 0x1000, sub := 0x01, ty := .str, acc := .const, role := .observer, pers := .ident, dflt := .bytes (ascii "Yunatos Semiconductor"), maxLen := 64 }

/-- 0x1000:02 `id.vendor_code` (Table of chapter 15): Vendor code. IDENT -/
def idVendorCode : Obj :=
  { idx := 0x1000, sub := 0x02, ty := .u32, acc := .const, role := .observer, pers := .ident, dflt := .num 19069 }

/-- 0x1000:03 `id.family` (Table of chapter 15): Product family. IDENT -/
def idFamily : Obj :=
  { idx := 0x1000, sub := 0x03, ty := .str, acc := .const, role := .observer, pers := .ident, dflt := .bytes (ascii "Daxleros"), maxLen := 64 }

/-- 0x1000:04 `id.product` (Table of chapter 15): Part. IDENT -/
def idProduct : Obj :=
  { idx := 0x1000, sub := 0x04, ty := .str, acc := .const, role := .observer, pers := .ident, dflt := .bytes (ascii "DXL-9640"), maxLen := 64 }

/-- 0x1000:05 `id.product_code` (Table of chapter 15): Part code. IDENT -/
def idProductCode : Obj :=
  { idx := 0x1000, sub := 0x05, ty := .u16, acc := .const, role := .observer, pers := .ident, dflt := .num 38464 }

/-- 0x1000:06 `id.order_code` (Table of chapter 15): "DXL-9640-AC" or "DXL-9640-AI". IDENT -/
def idOrderCode : Obj :=
  { idx := 0x1000, sub := 0x06, ty := .str, acc := .const, role := .observer, pers := .ident, dflt := .bytes [], maxLen := 64 }

/-- 0x1000:07 `id.revision` (Table of chapter 15): Silicon revision. IDENT -/
def idRevision : Obj :=
  { idx := 0x1000, sub := 0x07, ty := .str, acc := .const, role := .observer, pers := .ident, dflt := .bytes (ascii "B0"), maxLen := 64 }

/-- 0x1000:08 `id.revision_code` (Table of chapter 15): Silicon revision as a code. IDENT -/
def idRevisionCode : Obj :=
  { idx := 0x1000, sub := 0x08, ty := .u16, acc := .const, role := .observer, pers := .ident, dflt := .num 176 }

/-- 0x1000:09 `id.serial` (Table of chapter 15): Serial number, up to 16 bytes. IDENT -/
def idSerial : Obj :=
  { idx := 0x1000, sub := 0x09, ty := .str, acc := .const, role := .observer, pers := .ident, dflt := .bytes [], maxLen := 16 }

/-- 0x1000:0A `id.uid` (Table of chapter 15): Die identifier. IDENT -/
def idUid : Obj :=
  { idx := 0x1000, sub := 0x0A, ty := .u64, acc := .const, role := .observer, pers := .ident, dflt := .num 0 }

/-- 0x1000:0B `id.lot` (Table of chapter 15): Lot code, up to 16 bytes. IDENT -/
def idLot : Obj :=
  { idx := 0x1000, sub := 0x0B, ty := .str, acc := .const, role := .observer, pers := .ident, dflt := .bytes [], maxLen := 16 }

/-- 0x1000:0C `id.made` (Table of chapter 15): Time of final factory test. IDENT -/
def idMade : Obj :=
  { idx := 0x1000, sub := 0x0C, ty := .time64, acc := .const, role := .observer, pers := .ident, dflt := .num (-9223372036854775808) }

/-- 0x1000:0D `id.tj_max` (Table of chapter 15): 85 for AC, 105 for AI. IDENT -/
def idTjMax : Obj :=
  { idx := 0x1000, sub := 0x0D, ty := .i16, acc := .const, role := .observer, pers := .ident, dflt := .num 0 }

/-- 0x1001:01 `id.fw.version` (Table of chapter 15): Running firmware: [31:24] major; [23:16] minor; [15:0] build -/
def idFwVersion : Obj :=
  { idx := 0x1001, sub := 0x01, ty := .u32, acc := .ro, role := .observer, dflt := .num 0 }

/-- 0x1001:02 `id.fw.slot` (Table of chapter 15): 0 slot A, 1 slot B -/
def idFwSlot : Obj :=
  { idx := 0x1001, sub := 0x02, ty := .enum8, acc := .ro, role := .observer, dflt := .num 0 }

/-- 0x1001:03 `id.fw.built` (Table of chapter 15): Build time of the running image -/
def idFwBuilt : Obj :=
  { idx := 0x1001, sub := 0x03, ty := .time64, acc := .ro, role := .observer, dflt := .num (-9223372036854775808) }

/-- 0x1001:04 `id.fw.hash` (Table of chapter 15): 32 bytes: SHA-256 of the running image -/
def idFwHash : Obj :=
  { idx := 0x1001, sub := 0x04, ty := .domain, acc := .ro, role := .observer, dflt := .bytes [] }

/-- 0x1001:05 `id.boot.version` (Table of chapter 15): Boot code version, coded as `id.fw.version`. IDENT -/
def idBootVersion : Obj :=
  { idx := 0x1001, sub := 0x05, ty := .u32, acc := .const, role := .observer, pers := .ident, dflt := .num 0 }

/-- 0x1002:01 `id.cap.lanes` (Table of chapter 15): Lanes -/
def idCapLanes : Obj :=
  { idx := 0x1002, sub := 0x01, ty := .u8, acc := .const, role := .observer, dflt := .num 12 }

/-- 0x1002:02 `id.cap.channels` (Table of chapter 15): Channels -/
def idCapChannels : Obj :=
  { idx := 0x1002, sub := 0x02, ty := .u8, acc := .const, role := .observer, dflt := .num 96 }

/-- 0x1002:03 `id.cap.points` (Table of chapter 15): Points -/
def idCapPoints : Obj :=
  { idx := 0x1002, sub := 0x03, ty := .u16, acc := .const, role := .observer, dflt := .num 4096 }

/-- 0x1002:04 `id.cap.scans` (Table of chapter 15): Scan lists -/
def idCapScans : Obj :=
  { idx := 0x1002, sub := 0x04, ty := .u16, acc := .const, role := .observer, dflt := .num 256 }

/-- 0x1002:05 `id.cap.sessions` (Table of chapter 15): Session slots -/
def idCapSessions : Obj :=
  { idx := 0x1002, sub := 0x05, ty := .u8, acc := .const, role := .observer, dflt := .num 16 }

/-- 0x1010:01 `dev.state` (Table of chapter 15): Device state, Table 15.9 (R413) -/
def devState : Obj :=
  { idx := 0x1010, sub := 0x01, ty := .enum8, acc := .ro, role := .observer, dflt := .num 0 }

/-- 0x1010:02 `dev.prev_state` (Table of chapter 15): State before the last transition -/
def devPrevState : Obj :=
  { idx := 0x1010, sub := 0x02, ty := .enum8, acc := .ro, role := .observer, dflt := .num 0 }

/-- 0x1010:03 `dev.since` (Table of chapter 15): Time of entry into the present state -/
def devSince : Obj :=
  { idx := 0x1010, sub := 0x03, ty := .time64, acc := .ro, role := .observer, dflt := .num (-9223372036854775808) }

/-- 0x1010:04 `dev.reason` (Table of chapter 15): Cause of the last transition (R413) -/
def devReason : Obj :=
  { idx := 0x1010, sub := 0x04, ty := .u16, acc := .ro, role := .observer, dflt := .num 0 }

/-- 0x1010:05 `dev.uptime` (Table of chapter 15): Uptime count of R382 -/
def devUptime : Obj :=
  { idx := 0x1010, sub := 0x05, ty := .dur64, acc := .ro, role := .observer, dflt := .num 0 }

/-- 0x1010:06 `dev.transitions` (Table of chapter 15): State transitions since reset; saturates -/
def devTransitions : Obj :=
  { idx := 0x1010, sub := 0x06, ty := .u32, acc := .ro, role := .observer, dflt := .num 0 }

/-- 0x1010:07 `dev.autostart` (Table of chapter 15): Stored channel enables take effect (R406). -/
def devAutostart : Obj :=
  { idx := 0x1010, sub := 0x07, ty := .bool, acc := .rw, role := .owner, pers := .stored, dflt := .num 0, lo := 0, hi := 1 }

/-- 0x1010:08 `dev.name` (Table of chapter 15): Station label, up to 64 bytes. -/
def devName : Obj :=
  { idx := 0x1010, sub := 0x08, ty := .str, acc := .rw, role := .owner, pers := .stored, dflt := .bytes [], maxLen := 64 }

/-- 0x1010:09 `dev.flags` (Table of chapter 15): Sticky, cleared by read: [7:5] —; [4] DIVERGENT, a channel entered DIVERGENT; [3] AUTOSTART_FAIL; [2] RESTORE_PARTIAL; [1] CFG_FW_CHANGED; [0] CFG_NONE -/
def devFlags : Obj :=
  { idx := 0x1010, sub := 0x09, ty := .u8, acc := .rws, role := .operator, dflt := .num 0, lo := 0, hi := 255, rsv := 0xE0 }

/-- 0x1020:01 `dev.cfg.cmd` (Table of chapter 15): 1 STORE, 2 RESTORE, 3 DEFAULTS, 4 ERASE (R400–R402) -/
def devCfgCmd : Obj :=
  { idx := 0x1020, sub := 0x01, ty := .enum8, acc := .wo, role := .owner, dflt := .num 0, lo := 1, hi := 4 }

/-- 0x1020:02 `dev.cfg.state` (Table of chapter 15): 0 IDLE, 1 WRITING, 2 DONE, 3 FAILED -/
def devCfgState : Obj :=
  { idx := 0x1020, sub := 0x02, ty := .enum8, acc := .ro, role := .observer, dflt := .num 0 }

/-- 0x1020:03 `dev.cfg.seq` (Table of chapter 15): Sequence of the active image; 0 none -/
def devCfgSeq : Obj :=
  { idx := 0x1020, sub := 0x03, ty := .u32, acc := .ro, role := .observer, dflt := .num 0 }

/-- 0x1020:04 `dev.cfg.time` (Table of chapter 15): Capture time of the active image -/
def devCfgTime : Obj :=
  { idx := 0x1020, sub := 0x04, ty := .time64, acc := .ro, role := .observer, dflt := .num (-9223372036854775808) }

/-- 0x1020:05 `dev.cfg.size` (Table of chapter 15): Size a STORE would take (R401) -/
def devCfgSize : Obj :=
  { idx := 0x1020, sub := 0x05, ty := .u32, acc := .ro, role := .observer, dflt := .num 32 }

/-- 0x1020:06 `dev.cfg.limit` (Table of chapter 15): Largest image -/
def devCfgLimit : Obj :=
  { idx := 0x1020, sub := 0x06, ty := .u32, acc := .const, role := .observer, dflt := .num 131072 }

/-- 0x1020:07 `dev.cfg.skipped` (Table of chapter 15): Entries skipped at the last application (R403) -/
def devCfgSkipped : Obj :=
  { idx := 0x1020, sub := 0x07, ty := .u32, acc := .ro, role := .observer, dflt := .num 0 }

/-- 0x1020:08 `dev.cfg.refused` (Table of chapter 15): Indices set to defaults at the last application -/
def devCfgRefused : Obj :=
  { idx := 0x1020, sub := 0x08, ty := .u32, acc := .ro, role := .observer, dflt := .num 0 }

/-- 0x1020:09 `dev.cfg.image` (Table of chapter 15): The active image, Tables 15.3 and 15.4 -/
def devCfgImage : Obj :=
  { idx := 0x1020, sub := 0x09, ty := .domain, acc := .ro, role := .owner, dflt := .bytes [] }

/-- 0x1030:01 `dev.dict.map` (Table of chapter 15): Table 15.10 (R414) -/
def devDictMap : Obj :=
  { idx := 0x1030, sub := 0x01, ty := .domain, acc := .ro, role := .observer, dflt := .bytes [] }

/-- 0x1030:02 `dev.dict.crc` (Table of chapter 15): CRC-32C of the map -/
def devDictCrc : Obj :=
  { idx := 0x1030, sub := 0x02, ty := .u32, acc := .ro, role := .observer, dflt := .num 0 }

/-- 0x1030:03 `dev.dict.count` (Table of chapter 15): Map entries -/
def devDictCount : Obj :=
  { idx := 0x1030, sub := 0x03, ty := .u32, acc := .ro, role := .observer, dflt := .num 0 }

/-- 0x1040:01 `dev.mirror.period` (Table of chapter 15): Mirror refresh interval (R396) -/
def devMirrorPeriod : Obj :=
  { idx := 0x1040, sub := 0x01, ty := .dur64, acc := .const, role := .observer, dflt := .num 1000000 }

/-- 0x1040:02 `dev.mirror.refreshes` (Table of chapter 15): Refreshes since reset -/
def devMirrorRefreshes : Obj :=
  { idx := 0x1040, sub := 0x02, ty := .u64, acc := .ro, role := .observer, dflt := .num 0 }

/-- 0x1040:03 `dev.mirror.divergent` (Table of chapter 15): Channels with a DIVERGENT cause, 0–96 -/
def devMirrorDivergent : Obj :=
  { idx := 0x1040, sub := 0x03, ty := .u8, acc := .ro, role := .observer, dflt := .num 0 }

/-- 0x3000:01 `ch.enable` (Table of chapter 15): Enable (R405, R406). -/
def chEnable : Obj :=
  { idx := 0x3000, sub := 0x01, cnt := 96, stride := 0x10, ty := .bool, acc := .rw, role := .operator, pers := .stored, dflt := .num 0, lo := 0, hi := 1 }

/-- 0x3000:02 `ch.state` (Table of chapter 15): Table 15.6 (R410) -/
def chState : Obj :=
  { idx := 0x3000, sub := 0x02, cnt := 96, stride := 0x10, ty := .enum8, acc := .ro, role := .observer, dflt := .num 0 }

/-- 0x3000:03 `ch.lane` (Table of chapter 15): Lane, n div 8 -/
def chLane : Obj :=
  { idx := 0x3000, sub := 0x03, cnt := 96, stride := 0x10, ty := .u8, acc := .const, role := .observer, dflt := .num 0 }

/-- 0x3000:04 `ch.slot` (Table of chapter 15): Slot, n mod 8 -/
def chSlot : Obj :=
  { idx := 0x3000, sub := 0x04, cnt := 96, stride := 0x10, ty := .u8, acc := .const, role := .observer, dflt := .num 0 }

/-- 0x3000:05 `ch.name` (Table of chapter 15): Channel label, up to 32 bytes. -/
def chName : Obj :=
  { idx := 0x3000, sub := 0x05, cnt := 96, stride := 0x10, ty := .str, acc := .rw, role := .operator, pers := .stored, dflt := .bytes [], maxLen := 32 }

/-- 0x3000:06 `ch.term.cmd` (Table of chapter 15): Last command word sent, Table 2.7 -/
def chTermCmd : Obj :=
  { idx := 0x3000, sub := 0x06, cnt := 96, stride := 0x10, ty := .u16, acc := .ro, role := .observer, dflt := .num 0 }

/-- 0x3000:07 `ch.term.slice` (Table of chapter 15): Command word in force per the last STATUS -/
def chTermSlice : Obj :=
  { idx := 0x3000, sub := 0x07, cnt := 96, stride := 0x10, ty := .u16, acc := .ro, role := .observer, dflt := .num 0 }

/-- 0x3000:08 `ch.term.dac_slice` (Table of chapter 15): DAC code in force per the last STATUS -/
def chTermDacSlice : Obj :=
  { idx := 0x3000, sub := 0x08, cnt := 96, stride := 0x10, ty := .i32, acc := .ro, role := .observer, dflt := .num 0 }

/-- 0x3000:09 `ch.divergent` (Table of chapter 15): [7:4] —; [3] SAFE; [2] DAC; [1] CMD; [0] RANGE (R408) -/
def chDivergent : Obj :=
  { idx := 0x3000, sub := 0x09, cnt := 96, stride := 0x10, ty := .u8, acc := .ro, role := .observer, dflt := .num 0 }

/-- 0x3000:0A `ch.enabled_at` (Table of chapter 15): Time of the last accepted enable -/
def chEnabledAt : Obj :=
  { idx := 0x3000, sub := 0x0A, cnt := 96, stride := 0x10, ty := .time64, acc := .ro, role := .observer, dflt := .num (-9223372036854775808) }

/-- 0x300E:01 `ch.status` (Table of chapter 15): Table 15.7 (R411) -/
def chStatus : Obj :=
  { idx := 0x300E, sub := 0x01, cnt := 96, stride := 0x10, ty := .u32, acc := .ro, role := .observer, dflt := .num 0 }

/-- 0x300E:02 `ch.status.sticky` (Table of chapter 15): [7:6] —; bit set while the object holds a set bit: [5] `ch.chk.flags`; [4] `ch.rng.flags`; [3] `ch.limit.flags`; [2] `ch.rep.flags`; [1] `ch.region.flags`; [0] `ch.force.flags` -/
def chStatusSticky : Obj :=
  { idx := 0x300E, sub := 0x02, cnt := 96, stride := 0x10, ty := .u8, acc := .ro, role := .observer, dflt := .num 0 }

/-- 0x300E:03 `ch.status.changed` (Table of chapter 15): Time of the last change of `ch.status` -/
def chStatusChanged : Obj :=
  { idx := 0x300E, sub := 0x03, cnt := 96, stride := 0x10, ty := .time64, acc := .ro, role := .observer, dflt := .num (-9223372036854775808) }

/-- 0x300E:04 `ch.snap` (Table of chapter 15): Table 15.8 (R412) -/
def chSnap : Obj :=
  { idx := 0x300E, sub := 0x04, cnt := 96, stride := 0x10, ty := .domain, acc := .ro, role := .observer, dflt := .bytes [] }

/-- 0x1200:01 `net.eth.enable` (Table of chapter 17): Port enabled. -/
def netEthEnable : Obj :=
  { idx := 0x1200, sub := 0x01, cnt := 2, stride := 0x1, ty := .bool, acc := .rw, role := .owner, pers := .stored, dflt := .num 1, lo := 0, hi := 1 }

/-- 0x1200:02 `net.eth.mac` (Table of chapter 17): [47:0] MAC address; 0 uses the factory address of the identity partition. -/
def netEthMac : Obj :=
  { idx := 0x1200, sub := 0x02, cnt := 2, stride := 0x1, ty := .u64, acc := .rw, role := .owner, pers := .stored, dflt := .num 0, lo := 0, hi := 18446744073709551615 }

/-- 0x1200:03 `net.eth.phy_addr` (Table of chapter 17): MDIO address, 0–31. -/
def netEthPhyAddr : Obj :=
  { idx := 0x1200, sub := 0x03, cnt := 2, stride := 0x1, ty := .u8, acc := .rw, role := .owner, pers := .stored, dflt := .num 0, lo := 0, hi := 31 }

/-- 0x1200:04 `net.eth.vlan` (Table of chapter 17): VID 1–4094; 0xFFFF untagged. -/
def netEthVlan : Obj :=
  { idx := 0x1200, sub := 0x04, cnt := 2, stride := 0x1, ty := .u16, acc := .rw, role := .owner, pers := .stored, dflt := .num 65535, lo := 1, hi := 4094, alts := [65535] }

/-- 0x1200:05 `net.eth.link` (Table of chapter 17): 0 down, 1 10 Mb/s, 2 100 Mb/s, 3 1000 Mb/s -/
def netEthLink : Obj :=
  { idx := 0x1200, sub := 0x05, cnt := 2, stride := 0x1, ty := .enum8, acc := .ro, role := .observer, dflt := .num 0 }

/-- 0x1200:06 `net.eth.duplex` (Table of chapter 17): 0 half, 1 full -/
def netEthDuplex : Obj :=
  { idx := 0x1200, sub := 0x06, cnt := 2, stride := 0x1, ty := .enum8, acc := .ro, role := .observer, dflt := .num 0 }

/-- 0x1200:07 `net.eth.rx_frames` (Table of chapter 17): Frames received -/
def netEthRxFrames : Obj :=
  { idx := 0x1200, sub := 0x07, cnt := 2, stride := 0x1, ty := .u64, acc := .ro, role := .observer, dflt := .num 0 }

/-- 0x1200:08 `net.eth.tx_frames` (Table of chapter 17): Frames sent -/
def netEthTxFrames : Obj :=
  { idx := 0x1200, sub := 0x08, cnt := 2, stride := 0x1, ty := .u64, acc := .ro, role := .observer, dflt := .num 0 }

/-- 0x1200:09 `net.eth.rx_errors` (Table of chapter 17): Frames discarded; saturates -/
def netEthRxErrors : Obj :=
  { idx := 0x1200, sub := 0x09, cnt := 2, stride := 0x1, ty := .u32, acc := .ro, role := .observer, dflt := .num 0 }

/-- 0x1210:01 `net.ip.mode` (Table of chapter 17): 0 off, 1 DHCP, 2 static. -/
def netIpMode : Obj :=
  { idx := 0x1210, sub := 0x01, cnt := 2, stride := 0x1, ty := .enum8, acc := .rw, role := .owner, pers := .stored, dflt := .num 1, lo := 0, hi := 2 }

/-- 0x1210:02 `net.ip.addr` (Table of chapter 17): Static address. -/
def netIpAddr : Obj :=
  { idx := 0x1210, sub := 0x02, cnt := 2, stride := 0x1, ty := .u32, acc := .rw, role := .owner, pers := .stored, dflt := .num 0, lo := 0, hi := 4294967295 }

/-- 0x1210:03 `net.ip.mask` (Table of chapter 17): Static mask. -/
def netIpMask : Obj :=
  { idx := 0x1210, sub := 0x03, cnt := 2, stride := 0x1, ty := .u32, acc := .rw, role := .owner, pers := .stored, dflt := .num 4294967040, lo := 0, hi := 4294967295 }

/-- 0x1210:04 `net.ip.gateway` (Table of chapter 17): Static gateway. -/
def netIpGateway : Obj :=
  { idx := 0x1210, sub := 0x04, cnt := 2, stride := 0x1, ty := .u32, acc := .rw, role := .owner, pers := .stored, dflt := .num 0, lo := 0, hi := 4294967295 }

/-- 0x1210:05 `net.ip.addr_now` (Table of chapter 17): Address in force; 0 none -/
def netIpAddrNow : Obj :=
  { idx := 0x1210, sub := 0x05, cnt := 2, stride := 0x1, ty := .u32, acc := .ro, role := .observer, dflt := .num 0 }

/-- 0x1210:06 `net.ip.lease` (Table of chapter 17): DHCP lease remaining -/
def netIpLease : Obj :=
  { idx := 0x1210, sub := 0x06, cnt := 2, stride := 0x1, ty := .dur64, acc := .ro, role := .observer, dflt := .num 0 }

/-- 0x1210:07 `net.ip.dropped` (Table of chapter 17): Datagrams and packets discarded (R426, R429); saturates -/
def netIpDropped : Obj :=
  { idx := 0x1210, sub := 0x07, cnt := 2, stride := 0x1, ty := .u32, acc := .ro, role := .observer, dflt := .num 0 }

/-- 0x1220:01 `net.prp.mode` (Table of chapter 17): 0 independent, 1 PRP (R427). -/
def netPrpMode : Obj :=
  { idx := 0x1220, sub := 0x01, ty := .enum8, acc := .rw, role := .owner, pers := .stored, dflt := .num 0, lo := 0, hi := 1 }

/-- 0x1220:02 `net.prp.window` (Table of chapter 17): Duplicate window, 10 ms–4 s. -/
def netPrpWindow : Obj :=
  { idx := 0x1220, sub := 0x02, ty := .dur64, acc := .rw, role := .owner, pers := .stored, dflt := .num 400000000, lo := 10000000, hi := 4000000000 }

/-- 0x1220:03 `net.prp.life_check` (Table of chapter 17): Supervision interval, 100–10,000. -/
def netPrpLifeCheck : Obj :=
  { idx := 0x1220, sub := 0x03, ty := .u16, acc := .rw, role := .owner, pers := .stored, dflt := .num 2000, lo := 100, hi := 10000 }

/-- 0x1220:04 `net.prp.dup_discarded` (Table of chapter 17): Duplicates discarded -/
def netPrpDupDiscarded : Obj :=
  { idx := 0x1220, sub := 0x04, ty := .u64, acc := .ro, role := .observer, dflt := .num 0 }

/-- 0x1220:05 `net.prp.only_a` (Table of chapter 17): Frames with an RCT received on LAN A only; saturates -/
def netPrpOnlyA : Obj :=
  { idx := 0x1220, sub := 0x05, ty := .u32, acc := .ro, role := .observer, dflt := .num 0 }

/-- 0x1220:06 `net.prp.only_b` (Table of chapter 17): Frames with an RCT received on LAN B only; saturates -/
def netPrpOnlyB : Obj :=
  { idx := 0x1220, sub := 0x06, ty := .u32, acc := .ro, role := .observer, dflt := .num 0 }

/-- 0x1230:01 `net.ptp.enable` (Table of chapter 17): PTP runs. -/
def netPtpEnable : Obj :=
  { idx := 0x1230, sub := 0x01, ty := .bool, acc := .rw, role := .owner, pers := .stored, dflt := .num 0, lo := 0, hi := 1 }

/-- 0x1230:02 `net.ptp.role` (Table of chapter 17): 0 slave-only, 1 master-capable. -/
def netPtpRole : Obj :=
  { idx := 0x1230, sub := 0x02, ty := .enum8, acc := .rw, role := .owner, pers := .stored, dflt := .num 0, lo := 0, hi := 1 }

/-- 0x1230:03 `net.ptp.transport` (Table of chapter 17): 0 UDP/IPv4, 1 Ethernet. -/
def netPtpTransport : Obj :=
  { idx := 0x1230, sub := 0x03, ty := .enum8, acc := .rw, role := .owner, pers := .stored, dflt := .num 0, lo := 0, hi := 1 }

/-- 0x1230:04 `net.ptp.domain` (Table of chapter 17): 0–127. -/
def netPtpDomain : Obj :=
  { idx := 0x1230, sub := 0x04, ty := .u8, acc := .rw, role := .owner, pers := .stored, dflt := .num 0, lo := 0, hi := 127 }

/-- 0x1230:05 `net.ptp.priority1` (Table of chapter 17): BMCA priority1. -/
def netPtpPriority1 : Obj :=
  { idx := 0x1230, sub := 0x05, ty := .u8, acc := .rw, role := .owner, pers := .stored, dflt := .num 128, lo := 0, hi := 255 }

/-- 0x1230:06 `net.ptp.priority2` (Table of chapter 17): BMCA priority2. -/
def netPtpPriority2 : Obj :=
  { idx := 0x1230, sub := 0x06, ty := .u8, acc := .rw, role := .owner, pers := .stored, dflt := .num 128, lo := 0, hi := 255 }

/-- 0x1230:07 `net.ptp.port` (Table of chapter 17): 0 E0, 1 E1, 2 E0 with fail-over (R433). -/
def netPtpPort : Obj :=
  { idx := 0x1230, sub := 0x07, ty := .enum8, acc := .rw, role := .owner, pers := .stored, dflt := .num 0, lo := 0, hi := 2 }

/-- 0x1230:08 `net.ptp.log_sync` (Table of chapter 17): −3 to +4. -/
def netPtpLogSync : Obj :=
  { idx := 0x1230, sub := 0x08, ty := .i8, acc := .rw, role := .owner, pers := .stored, dflt := .num 0, lo := (-3), hi := 4 }

/-- 0x1230:09 `net.ptp.log_announce` (Table of chapter 17): 0–4. -/
def netPtpLogAnnounce : Obj :=
  { idx := 0x1230, sub := 0x09, ty := .i8, acc := .rw, role := .owner, pers := .stored, dflt := .num 1, lo := 0, hi := 4 }

/-- 0x1230:0A `net.ptp.log_delay` (Table of chapter 17): −3 to +5. -/
def netPtpLogDelay : Obj :=
  { idx := 0x1230, sub := 0x0A, ty := .i8, acc := .rw, role := .owner, pers := .stored, dflt := .num 0, lo := (-3), hi := 5 }

/-- 0x1230:0B `net.ptp.lat_rx` (Table of chapter 17): PHY receive latency, 0–2,000,000. -/
def netPtpLatRx : Obj :=
  { idx := 0x1230, sub := 0x0B, ty := .u32, acc := .rw, role := .calibrator, pers := .stored, dflt := .num 0, lo := 0, hi := 2000000 }

/-- 0x1230:0C `net.ptp.lat_tx` (Table of chapter 17): PHY transmit latency, 0–2,000,000. -/
def netPtpLatTx : Obj :=
  { idx := 0x1230, sub := 0x0C, ty := .u32, acc := .rw, role := .calibrator, pers := .stored, dflt := .num 0, lo := 0, hi := 2000000 }

/-- 0x1230:0D `net.ptp.state` (Table of chapter 17): 0 DISABLED, 1 LISTENING, 2 UNCALIBRATED, 3 SLAVE, 4 MASTER, 5 PASSIVE, 6 FAULTY -/
def netPtpState : Obj :=
  { idx := 0x1230, sub := 0x0D, ty := .enum8, acc := .ro, role := .observer, dflt := .num 0 }

/-- 0x1230:0E `net.ptp.master_id` (Table of chapter 17): clockIdentity of the master -/
def netPtpMasterId : Obj :=
  { idx := 0x1230, sub := 0x0E, ty := .u64, acc := .ro, role := .observer, dflt := .num 0 }

/-- 0x1230:0F `net.ptp.path_delay` (Table of chapter 17): Mean path delay -/
def netPtpPathDelay : Obj :=
  { idx := 0x1230, sub := 0x0F, ty := .i64, acc := .ro, role := .observer, dflt := .num 0 }

/-- 0x1240:01 `net.can.enable` (Table of chapter 17): Port runs. -/
def netCanEnable : Obj :=
  { idx := 0x1240, sub := 0x01, cnt := 2, stride := 0x1, ty := .bool, acc := .rw, role := .owner, pers := .stored, dflt := .num 0, lo := 0, hi := 1 }

/-- 0x1240:02 `net.can.nominal` (Table of chapter 17): Nominal rate (R434). -/
def netCanNominal : Obj :=
  { idx := 0x1240, sub := 0x02, cnt := 2, stride := 0x1, ty := .u32, acc := .rw, role := .owner, pers := .stored, dflt := .num 500000, lo := 125000, hi := 1000000 }

/-- 0x1240:03 `net.can.data` (Table of chapter 17): Data rate, not below nominal. -/
def netCanData : Obj :=
  { idx := 0x1240, sub := 0x03, cnt := 2, stride := 0x1, ty := .u32, acc := .rw, role := .owner, pers := .stored, dflt := .num 2000000, lo := 125000, hi := 8000000 }

/-- 0x1240:04 `net.can.state` (Table of chapter 17): 0 off, 1 error-active, 2 error-passive, 3 bus-off -/
def netCanState : Obj :=
  { idx := 0x1240, sub := 0x04, cnt := 2, stride := 0x1, ty := .enum8, acc := .ro, role := .observer, dflt := .num 0 }

/-- 0x1240:05 `net.can.tec` (Table of chapter 17): Transmit error counter -/
def netCanTec : Obj :=
  { idx := 0x1240, sub := 0x05, cnt := 2, stride := 0x1, ty := .u8, acc := .ro, role := .observer, dflt := .num 0 }

/-- 0x1240:06 `net.can.rec` (Table of chapter 17): Receive error counter -/
def netCanRec : Obj :=
  { idx := 0x1240, sub := 0x06, cnt := 2, stride := 0x1, ty := .u8, acc := .ro, role := .observer, dflt := .num 0 }

/-- 0x1240:07 `net.can.busoffs` (Table of chapter 17): Entries into bus-off; saturates -/
def netCanBusoffs : Obj :=
  { idx := 0x1240, sub := 0x07, cnt := 2, stride := 0x1, ty := .u32, acc := .ro, role := .observer, dflt := .num 0 }

/-- 0x1250:01 `net.spi.msgs_in` (Table of chapter 17): WRITE_MSG accepted -/
def netSpiMsgsIn : Obj :=
  { idx := 0x1250, sub := 0x01, ty := .u64, acc := .ro, role := .observer, dflt := .num 0 }

/-- 0x1250:02 `net.spi.msgs_out` (Table of chapter 17): Messages read out -/
def netSpiMsgsOut : Obj :=
  { idx := 0x1250, sub := 0x02, ty := .u64, acc := .ro, role := .observer, dflt := .num 0 }

/-- 0x1250:03 `net.spi.errors` (Table of chapter 17): Transactions that set ERR or OVR; saturates -/
def netSpiErrors : Obj :=
  { idx := 0x1250, sub := 0x03, ty := .u32, acc := .ro, role := .observer, dflt := .num 0 }

/-- 0x1300:01 `hl.enable` (Table of chapter 17): Ring ports run. -/
def hlEnable : Obj :=
  { idx := 0x1300, sub := 0x01, ty := .bool, acc := .rw, role := .owner, pers := .stored, dflt := .num 0, lo := 0, hi := 1 }

/-- 0x1300:02 `hl.role` (Table of chapter 17): 0 AUTO, 1 HEAD, 2 MEMBER (R439). -/
def hlRole : Obj :=
  { idx := 0x1300, sub := 0x02, ty := .enum8, acc := .rw, role := .owner, pers := .stored, dflt := .num 0, lo := 0, hi := 2 }

/-- 0x1300:03 `hl.priority` (Table of chapter 17): Head election; lower wins. -/
def hlPriority : Obj :=
  { idx := 0x1300, sub := 0x03, ty := .u8, acc := .rw, role := .owner, pers := .stored, dflt := .num 128, lo := 0, hi := 255 }

/-- 0x1300:04 `hl.number_mode` (Table of chapter 17): 0 position, 1 fixed, 2 strap (R441). -/
def hlNumberMode : Obj :=
  { idx := 0x1300, sub := 0x04, ty := .enum8, acc := .rw, role := .owner, pers := .stored, dflt := .num 0, lo := 0, hi := 2 }

/-- 0x1300:05 `hl.node_fixed` (Table of chapter 17): Fixed number, 1–63. -/
def hlNodeFixed : Obj :=
  { idx := 0x1300, sub := 0x05, ty := .u8, acc := .rw, role := .owner, pers := .stored, dflt := .num 1, lo := 1, hi := 63 }

/-- 0x1300:06 `hl.elect_delay` (Table of chapter 17): 1 ms–10 s. -/
def hlElectDelay : Obj :=
  { idx := 0x1300, sub := 0x06, ty := .dur64, acc := .rw, role := .owner, pers := .stored, dflt := .num 100000000, lo := 1000000, hi := 10000000000 }

/-- 0x1300:07 `hl.revert_hold` (Table of chapter 17): 1 s–3,600 s (R453). -/
def hlRevertHold : Obj :=
  { idx := 0x1300, sub := 0x07, ty := .dur64, acc := .rw, role := .owner, pers := .stored, dflt := .num 10000000000, lo := 1000000000, hi := 3600000000000 }

/-- 0x1300:08 `hl.res_share` (Table of chapter 17): Share per frame, 0 or 84–1,052 (R450). -/
def hlResShare : Obj :=
  { idx := 0x1300, sub := 0x08, ty := .u16, acc := .rw, role := .owner, pers := .stored, dflt := .num 0, lo := 84, hi := 1052, alts := [0] }

/-- 0x1300:09 `hl.cmd` (Table of chapter 17): 1 REFORM, head only; refused with STATE on a member -/
def hlCmd : Obj :=
  { idx := 0x1300, sub := 0x09, ty := .enum8, acc := .wo, role := .owner, dflt := .num 0, lo := 1, hi := 1 }

/-- 0x1310:01 `hl.state` (Table of chapter 17): 0 OFF, 1 SEARCH, 2 FORMING, 3 SYNC, 4 WRAPPED, 5 HELD, 6 ISOLATED -/
def hlState : Obj :=
  { idx := 0x1310, sub := 0x01, ty := .enum8, acc := .ro, role := .observer, dflt := .num 0 }

/-- 0x1310:02 `hl.node` (Table of chapter 17): Own number; 0xFF none -/
def hlNode : Obj :=
  { idx := 0x1310, sub := 0x02, ty := .u8, acc := .ro, role := .observer, dflt := .num 255 }

/-- 0x1310:03 `hl.nodes` (Table of chapter 17): Nodes in the ring -/
def hlNodes : Obj :=
  { idx := 0x1310, sub := 0x03, ty := .u8, acc := .ro, role := .observer, dflt := .num 0 }

/-- 0x1310:04 `hl.epoch` (Table of chapter 17): Epoch of the ring -/
def hlEpoch : Obj :=
  { idx := 0x1310, sub := 0x04, ty := .u8, acc := .ro, role := .observer, dflt := .num 0 }

/-- 0x1310:05 `hl.circuit` (Table of chapter 17): C (R446) -/
def hlCircuit : Obj :=
  { idx := 0x1310, sub := 0x05, ty := .u32, acc := .ro, role := .observer, dflt := .num 0 }

/-- 0x1310:06 `hl.late` (Table of chapter 17): LATE in force -/
def hlLate : Obj :=
  { idx := 0x1310, sub := 0x06, ty := .bool, acc := .ro, role := .observer, dflt := .num 0 }

/-- 0x1310:07 `hl.members` (Table of chapter 17): 8 bytes; bit n set while node n is in the ring; head only -/
def hlMembers : Obj :=
  { idx := 0x1310, sub := 0x07, ty := .domain, acc := .ro, role := .observer, dflt := .bytes [] }

/-- 0x1310:08 `hl.breaks` (Table of chapter 17): Wraps since reset; saturates -/
def hlBreaks : Obj :=
  { idx := 0x1310, sub := 0x08, ty := .u32, acc := .ro, role := .observer, dflt := .num 0 }

/-- 0x1310:09 `hl.evt_errors` (Table of chapter 17): Cells with a bad CRC-16; saturates -/
def hlEvtErrors : Obj :=
  { idx := 0x1310, sub := 0x09, ty := .u32, acc := .ro, role := .observer, dflt := .num 0 }

/-- 0x1310:0A `hl.transit_dropped` (Table of chapter 17): Transit packets discarded (R449); saturates -/
def hlTransitDropped : Obj :=
  { idx := 0x1310, sub := 0x0A, ty := .u32, acc := .ro, role := .observer, dflt := .num 0 }

/-- 0x1310:0B `hl.res_dropped` (Table of chapter 17): Notifications discarded for lack of credit (R450) -/
def hlResDropped : Obj :=
  { idx := 0x1310, sub := 0x0B, ty := .u64, acc := .ro, role := .observer, dflt := .num 0 }

/-- 0x1310:0C `hl.flags` (Table of chapter 17): Sticky, cleared by read: [7:4] —; [3] CONFLICT; [2] LATE; [1] HEAD_LOST; [0] WRAP -/
def hlFlags : Obj :=
  { idx := 0x1310, sub := 0x0C, ty := .u8, acc := .rws, role := .operator, dflt := .num 0, lo := 0, hi := 255, rsv := 0xF0 }

/-- 0x1320:01 `hl.port.state` (Table of chapter 17): 0 down, 1 link frames, 2 ring frames -/
def hlPortState : Obj :=
  { idx := 0x1320, sub := 0x01, cnt := 2, stride := 0x1, ty := .enum8, acc := .ro, role := .observer, dflt := .num 0 }

/-- 0x1320:02 `hl.port.delay` (Table of chapter 17): d_in (R443) -/
def hlPortDelay : Obj :=
  { idx := 0x1320, sub := 0x02, cnt := 2, stride := 0x1, ty := .u32, acc := .ro, role := .observer, dflt := .num 0 }

/-- 0x1320:03 `hl.port.asym` (Table of chapter 17): Receive minus transmit delay as designed, −200,000 to +200,000. -/
def hlPortAsym : Obj :=
  { idx := 0x1320, sub := 0x03, cnt := 2, stride := 0x1, ty := .i32, acc := .rw, role := .owner, pers := .stored, dflt := .num 0, lo := (-200000), hi := 200000 }

/-- 0x1320:04 `hl.port.pol` (Table of chapter 17): [0] invert transmit; [1] invert receive; [7:2] reserved. Takes effect at the next training. -/
def hlPortPol : Obj :=
  { idx := 0x1320, sub := 0x04, cnt := 2, stride := 0x1, ty := .u8, acc := .rw, role := .owner, pers := .stored, dflt := .num 0, lo := 0, hi := 255, rsv := 0xFC }

/-- 0x1320:05 `hl.port.bad` (Table of chapter 17): Frames missing or with a bad header CRC; saturates -/
def hlPortBad : Obj :=
  { idx := 0x1320, sub := 0x05, cnt := 2, stride := 0x1, ty := .u32, acc := .ro, role := .observer, dflt := .num 0 }

/-- 0x1320:06 `hl.port.downs` (Table of chapter 17): Entries into down; saturates -/
def hlPortDowns : Obj :=
  { idx := 0x1320, sub := 0x06, cnt := 2, stride := 0x1, ty := .u32, acc := .ro, role := .observer, dflt := .num 0 }

/-- 0x2000:01 `clk.ref_sel` (Table of chapter 18): 0 automatic, 1 XTAL, 2 REFIN (R458). -/
def clkRefSel : Obj :=
  { idx := 0x2000, sub := 0x01, ty := .enum8, acc := .rw, role := .owner, pers := .stored, dflt := .num 0, lo := 0, hi := 2 }

/-- 0x2000:02 `clk.refin_freq` (Table of chapter 18): 0 is 10 MHz, 1 is 25 MHz; refused with STATE while REFIN is the reference in use. -/
def clkRefinFreq : Obj :=
  { idx := 0x2000, sub := 0x02, ty := .enum8, acc := .rw, role := .owner, pers := .stored, dflt := .num 0, lo := 0, hi := 1 }

/-- 0x2000:03 `clk.refin_tol` (Table of chapter 18): REFIN tolerance against XTAL, 1,000–1,000,000 (R456). -/
def clkRefinTol : Obj :=
  { idx := 0x2000, sub := 0x03, ty := .u32, acc := .rw, role := .owner, pers := .stored, dflt := .num 100000, lo := 1000, hi := 1000000 }

/-- 0x2000:04 `clk.qual_timeout` (Table of chapter 18): Time from power-on to LIMP, 10 ms–10 s. -/
def clkQualTimeout : Obj :=
  { idx := 0x2000, sub := 0x04, ty := .dur64, acc := .rw, role := .owner, pers := .stored, dflt := .num 200000000, lo := 10000000, hi := 10000000000 }

/-- 0x2000:05 `clk.revert_auto` (Table of chapter 18): Automatic return to a reference (Table 18.5). -/
def clkRevertAuto : Obj :=
  { idx := 0x2000, sub := 0x05, ty := .bool, acc := .rw, role := .owner, pers := .stored, dflt := .num 1, lo := 0, hi := 1 }

/-- 0x2000:06 `clk.revert_hold` (Table of chapter 18): 1 s–86,400 s. -/
def clkRevertHold : Obj :=
  { idx := 0x2000, sub := 0x06, ty := .dur64, acc := .rw, role := .owner, pers := .stored, dflt := .num 60000000000, lo := 1000000000, hi := 86400000000000 }

/-- 0x2000:07 `clk.drift_tol` (Table of chapter 18): Severe drift level, 1,000–1,000,000 (R473). -/
def clkDriftTol : Obj :=
  { idx := 0x2000, sub := 0x07, ty := .u32, acc := .rw, role := .owner, pers := .stored, dflt := .num 50000, lo := 1000, hi := 1000000 }

/-- 0x2000:08 `clk.drift_window` (Table of chapter 18): 60 s–86,400 s. -/
def clkDriftWindow : Obj :=
  { idx := 0x2000, sub := 0x08, ty := .dur64, acc := .rw, role := .owner, pers := .stored, dflt := .num 3600000000000, lo := 60000000000, hi := 86400000000000 }

/-- 0x2000:09 `clk.backup_limit` (Table of chapter 18): 1 h–30 days (R474). -/
def clkBackupLimit : Obj :=
  { idx := 0x2000, sub := 0x09, ty := .dur64, acc := .rw, role := .owner, pers := .stored, dflt := .num 86400000000000, lo := 3600000000000, hi := 2592000000000000 }

/-- 0x2000:0A `clk.cmd` (Table of chapter 18): 1 REVERT, accepted in BACKUP only; refused with STATE otherwise -/
def clkCmd : Obj :=
  { idx := 0x2000, sub := 0x0A, ty := .enum8, acc := .wo, role := .owner, dflt := .num 0, lo := 1, hi := 1 }

/-- 0x2000:0B `clk.gate` (Table of chapter 18): Gated units, Table 18.7 (R475). -/
def clkGate : Obj :=
  { idx := 0x2000, sub := 0x0B, ty := .u32, acc := .rw, role := .owner, pers := .stored, dflt := .num 0, lo := 0, hi := 4294967295 }

/-- 0x2010:01 `clk.state` (Table of chapter 18): Table 18.4 -/
def clkState : Obj :=
  { idx := 0x2010, sub := 0x01, ty := .enum8, acc := .ro, role := .observer, dflt := .num 0 }

/-- 0x2010:02 `clk.input` (Table of chapter 18): PLL input: 0 none, 1 XTAL, 2 REFIN, 3 HRC -/
def clkInput : Obj :=
  { idx := 0x2010, sub := 0x02, ty := .enum8, acc := .ro, role := .observer, dflt := .num 0 }

/-- 0x2010:03 `clk.qualified` (Table of chapter 18): [7:4] —; [3] REFIN_COARSE; [2] HRC proven; [1] REFIN; [0] XTAL -/
def clkQualified : Obj :=
  { idx := 0x2010, sub := 0x03, ty := .u8, acc := .ro, role := .observer, dflt := .num 0 }

/-- 0x2010:04 `clk.hrc_trim` (Table of chapter 18): Trim code, 0–4,095 -/
def clkHrcTrim : Obj :=
  { idx := 0x2010, sub := 0x04, ty := .u16, acc := .ro, role := .observer, dflt := .num 0 }

/-- 0x2010:05 `clk.hrc_error` (Table of chapter 18): Error of the last fine window -/
def clkHrcError : Obj :=
  { idx := 0x2010, sub := 0x05, ty := .i32, acc := .ro, role := .observer, dflt := .num 0 }

/-- 0x2010:06 `clk.trim_src` (Table of chapter 18): 0 none, 1 XTAL, 2 REFIN, 3 Hedgerow marks (R460) -/
def clkTrimSrc : Obj :=
  { idx := 0x2010, sub := 0x06, ty := .enum8, acc := .ro, role := .observer, dflt := .num 0 }

/-- 0x2010:07 `clk.mux_pending` (Table of chapter 18): An ordinary switch is pending (R465) -/
def clkMuxPending : Obj :=
  { idx := 0x2010, sub := 0x07, ty := .bool, acc := .ro, role := .observer, dflt := .num 0 }

/-- 0x2010:08 `clk.drift` (Table of chapter 18): Mean of the last complete drift window -/
def clkDrift : Obj :=
  { idx := 0x2010, sub := 0x08, ty := .i32, acc := .ro, role := .observer, dflt := .num 0 }

/-- 0x2010:09 `clk.backup_time` (Table of chapter 18): R474 -/
def clkBackupTime : Obj :=
  { idx := 0x2010, sub := 0x09, ty := .dur64, acc := .ro, role := .observer, dflt := .num 0 }

/-- 0x2010:0A `clk.failovers` (Table of chapter 18): Forced switches since reset; saturates -/
def clkFailovers : Obj :=
  { idx := 0x2010, sub := 0x0A, ty := .u32, acc := .ro, role := .observer, dflt := .num 0 }

/-- 0x2010:0B `clk.last_relock` (Table of chapter 18): From the last forced switch to lock -/
def clkLastRelock : Obj :=
  { idx := 0x2010, sub := 0x0B, ty := .dur64, acc := .ro, role := .observer, dflt := .num 0 }

/-- 0x2010:0C `clk.last_loss` (Table of chapter 18): Time of the last declared loss of the reference in use -/
def clkLastLoss : Obj :=
  { idx := 0x2010, sub := 0x0C, ty := .time64, acc := .ro, role := .observer, dflt := .num (-9223372036854775808) }

/-- 0x2010:0D `clk.zero_reads` (Table of chapter 18): Bus reads of gated units (R476); saturates -/
def clkZeroReads : Obj :=
  { idx := 0x2010, sub := 0x0D, ty := .u32, acc := .ro, role := .observer, dflt := .num 0 }

/-- 0x2010:0E `clk.flags` (Table of chapter 18): Sticky, cleared by read: [7:6] —; [5] DRIFT; [4] DRIFT_WARN; [3] HRC_UNPROVEN; [2] HRC_LOST; [1] REFIN_COARSE; [0] REF_LOST -/
def clkFlags : Obj :=
  { idx := 0x2010, sub := 0x0E, ty := .u8, acc := .rws, role := .operator, dflt := .num 0, lo := 0, hi := 255, rsv := 0xC0 }

/-- 0x2100:01 `pmu.pstate` (Table of chapter 19): 0 RUN, 1 QUIET (R481) -/
def pmuPstate : Obj :=
  { idx := 0x2100, sub := 0x01, ty := .enum8, acc := .ro, role := .observer, dflt := .num 0 }

/-- 0x2100:02 `pmu.cmd` (Table of chapter 19): 1 RESET, 2 QUIET, 3 RUN, 4 STANDBY, 5 CONFIRM (R481, R482, R494) -/
def pmuCmd : Obj :=
  { idx := 0x2100, sub := 0x02, ty := .enum8, acc := .wo, role := .owner, dflt := .num 0, lo := 1, hi := 5 }

/-- 0x2100:03 `pmu.keep` (Table of chapter 19): Domains that QUIET leaves on; bit 0 reserved. -/
def pmuKeep : Obj :=
  { idx := 0x2100, sub := 0x03, ty := .u32, acc := .rw, role := .owner, pers := .stored, dflt := .num 0, lo := 0, hi := 4294967295, rsv := 0x1 }

/-- 0x2100:04 `pmu.pfail_count` (Table of chapter 19): Power-fail warnings since power-on (R489); saturates -/
def pmuPfailCount : Obj :=
  { idx := 0x2100, sub := 0x04, ty := .u32, acc := .ro, role := .observer, dflt := .num 0 }

/-- 0x2100:05 `pmu.flags` (Table of chapter 19): Sticky, cleared by read: [7:6] —; [5] STRAP_BAD; [4] PFAIL; [3] STUCK; [2] ROLLBACK; [1] SLOT_FALLBACK; [0] WATCHDOG -/
def pmuFlags : Obj :=
  { idx := 0x2100, sub := 0x05, ty := .u8, acc := .rws, role := .operator, dflt := .num 0, lo := 0, hi := 255, rsv := 0xC0 }

/-- 0x2110:01 `pmu.pd.state` (Table of chapter 19): Bit set while the domain carries power and is ungated; bit 0 always 1 -/
def pmuPdState : Obj :=
  { idx := 0x2110, sub := 0x01, ty := .u32, acc := .ro, role := .observer, dflt := .num 0 }

/-- 0x2110:02 `pmu.pd.retain` (Table of chapter 19): Bits 28 and 29: domain in retention (R480) -/
def pmuPdRetain : Obj :=
  { idx := 0x2110, sub := 0x02, ty := .u32, acc := .ro, role := .observer, dflt := .num 0 }

/-- 0x2110:03 `pmu.pd.on` (Table of chapter 19): Switch-on request (R479) -/
def pmuPdOn : Obj :=
  { idx := 0x2110, sub := 0x03, ty := .u32, acc := .wo, role := .owner, dflt := .num 0, lo := 0, hi := 4294967295 }

/-- 0x2110:04 `pmu.pd.off` (Table of chapter 19): Switch-off request (R478, R479) -/
def pmuPdOff : Obj :=
  { idx := 0x2110, sub := 0x04, ty := .u32, acc := .wo, role := .owner, dflt := .num 0, lo := 0, hi := 4294967295 }

/-- 0x2110:05 `pmu.pd.boot` (Table of chapter 19): Domains switched on at the end of BOOT (Table 19.7); bits 21, 29 and 30 always set. -/
def pmuPdBoot : Obj :=
  { idx := 0x2110, sub := 0x05, ty := .u32, acc := .rw, role := .owner, pers := .stored, dflt := .num 2147483646, lo := 0, hi := 4294967295 }

/-- 0x2110:06 `pmu.lane_reset` (Table of chapter 19): Bit n resets lane Ln (Table 19.4); [15:12] reserved -/
def pmuLaneReset : Obj :=
  { idx := 0x2110, sub := 0x06, ty := .u16, acc := .wo, role := .owner, dflt := .num 0, lo := 0, hi := 65535, rsv := 0xF000 }

/-- 0x2110:07 `pmu.unit_reset` (Table of chapter 19): Bits as Table 18.7 (Table 19.4) -/
def pmuUnitReset : Obj :=
  { idx := 0x2110, sub := 0x07, ty := .u32, acc := .wo, role := .owner, dflt := .num 0, lo := 0, hi := 4294967295 }

/-- 0x2110:08 `pmu.core_reset` (Table of chapter 19): 0 core A, 1 core B; refused with STATE for the active core -/
def pmuCoreReset : Obj :=
  { idx := 0x2110, sub := 0x08, ty := .enum8, acc := .wo, role := .owner, dflt := .num 0, lo := 0, hi := 1 }

/-- 0x2120:01 `pmu.reset.cause` (Table of chapter 19): Table 19.4 code of the last reset through BOOT -/
def pmuResetCause : Obj :=
  { idx := 0x2120, sub := 0x01, ty := .enum8, acc := .ro, role := .observer, dflt := .num 0 }

/-- 0x2120:02 `pmu.reset.time` (Table of chapter 19): Time the last reset was recognised -/
def pmuResetTime : Obj :=
  { idx := 0x2120, sub := 0x02, ty := .time64, acc := .ro, role := .observer, dflt := .num (-9223372036854775808) }

/-- 0x2120:03 `pmu.reset.count` (Table of chapter 19): Controller resets since power-on; saturates -/
def pmuResetCount : Obj :=
  { idx := 0x2120, sub := 0x03, ty := .u32, acc := .ro, role := .observer, dflt := .num 0 }

/-- 0x2120:04 `pmu.reset.stuck_guard` (Table of chapter 19): R487, 1–600 s. -/
def pmuResetStuckGuard : Obj :=
  { idx := 0x2120, sub := 0x04, ty := .dur64, acc := .rw, role := .owner, pers := .stored, dflt := .num 5000000000, lo := 1000000000, hi := 600000000000 }

/-- 0x2120:05 `pmu.reset.pin` (Table of chapter 19): Table 19.5: 0 POWERUP, 1 ARMED, 2 HELD, 3 IGNORED -/
def pmuResetPin : Obj :=
  { idx := 0x2120, sub := 0x05, ty := .enum8, acc := .ro, role := .observer, dflt := .num 1 }

/-- 0x2120:06 `pmu.wdt.timeout` (Table of chapter 19): R490, 1 ms–10 s. -/
def pmuWdtTimeout : Obj :=
  { idx := 0x2120, sub := 0x06, ty := .dur64, acc := .rw, role := .owner, pers := .stored, dflt := .num 100000000, lo := 1000000, hi := 10000000000 }

/-- 0x2120:07 `pmu.wdt.expiries` (Table of chapter 19): Watchdog expiries since power-on; saturates -/
def pmuWdtExpiries : Obj :=
  { idx := 0x2120, sub := 0x07, ty := .u32, acc := .ro, role := .observer, dflt := .num 0 }

/-- 0x2130:01 `pmu.boot.pref` (Table of chapter 19): Preferred slot: 0 A, 1 B (R493) -/
def pmuBootPref : Obj :=
  { idx := 0x2130, sub := 0x01, ty := .enum8, acc := .ro, role := .observer, dflt := .num 0 }

/-- 0x2130:02 `pmu.boot.confirmed` (Table of chapter 19): [7:2] —; [1] B confirmed; [0] A confirmed -/
def pmuBootConfirmed : Obj :=
  { idx := 0x2130, sub := 0x02, ty := .u8, acc := .ro, role := .observer, dflt := .num 0 }

/-- 0x2130:03 `pmu.boot.trials` (Table of chapter 19): Trials left for the preferred slot -/
def pmuBootTrials : Obj :=
  { idx := 0x2130, sub := 0x03, ty := .u8, acc := .ro, role := .observer, dflt := .num 0 }

/-- 0x2130:04 `pmu.boot.confirm_time` (Table of chapter 19): R494, 10 s–86,400 s. -/
def pmuBootConfirmTime : Obj :=
  { idx := 0x2130, sub := 0x04, ty := .dur64, acc := .rw, role := .owner, pers := .stored, dflt := .num 300000000000, lo := 10000000000, hi := 86400000000000 }

/-- 0x2130:05 `pmu.boot.strap` (Table of chapter 19): S of R491; 0xFF invalid -/
def pmuBootStrap : Obj :=
  { idx := 0x2130, sub := 0x05, ty := .u8, acc := .ro, role := .observer, dflt := .num 0 }

/-- 0x2130:06 `pmu.boot.time` (Table of chapter 19): From the last reset release to MEADOW or HEATH -/
def pmuBootTime : Obj :=
  { idx := 0x2130, sub := 0x06, ty := .dur64, acc := .ro, role := .observer, dflt := .num 0 }

/-- 0x2130:07 `pmu.boot.safe_start` (Table of chapter 19): BOOT ends in SAFE (Table 19.7). -/
def pmuBootSafeStart : Obj :=
  { idx := 0x2130, sub := 0x07, ty := .bool, acc := .rw, role := .owner, pers := .stored, dflt := .num 0, lo := 0, hi := 1 }

/-- 0x2140:01 `pmu.wake.at` (Table of chapter 19): Alarm wake; 0 none (Table 19.3) -/
def pmuWakeAt : Obj :=
  { idx := 0x2140, sub := 0x01, ty := .time64, acc := .rw, role := .owner, dflt := .num 0, lo := (-9223372036854775808), hi := 9223372036854775807 }

/-- 0x2140:02 `pmu.wake.can` (Table of chapter 19): [7:2] —; [1] CAN port 1; [0] CAN port 0. -/
def pmuWakeCan : Obj :=
  { idx := 0x2140, sub := 0x02, ty := .u8, acc := .rw, role := .owner, pers := .stored, dflt := .num 0, lo := 0, hi := 255, rsv := 0xFC }

/-- 0x2140:03 `pmu.wake.src` (Table of chapter 19): Table 19.3 code of the last wake; 0 none -/
def pmuWakeSrc : Obj :=
  { idx := 0x2140, sub := 0x03, ty := .enum8, acc := .ro, role := .observer, dflt := .num 0 }

/-- 0x2140:04 `pmu.wake.detail` (Table of chapter 19): TIN, EVIO or CAN port number of the last wake -/
def pmuWakeDetail : Obj :=
  { idx := 0x2140, sub := 0x04, ty := .u8, acc := .ro, role := .observer, dflt := .num 0 }

/-- 0x7000:01 `fcr.first` (Table of chapter 20): Table 20.5 (R505); all zero while none is held -/
def fcrFirst : Obj :=
  { idx := 0x7000, sub := 0x01, ty := .domain, acc := .ro, role := .observer, dflt := .bytes [] }

/-- 0x7000:02 `fcr.first_held` (Table of chapter 20): A first source is held -/
def fcrFirstHeld : Obj :=
  { idx := 0x7000, sub := 0x02, ty := .bool, acc := .ro, role := .observer, dflt := .num 0 }

/-- 0x7000:03 `fcr.cmd` (Table of chapter 20): 1 ACK (R507), 2 SAFE (R519) -/
def fcrCmd : Obj :=
  { idx := 0x7000, sub := 0x03, ty := .enum8, acc := .wo, role := .operator, dflt := .num 0, lo := 1, hi := 2 }

/-- 0x7000:04 `fcr.raises` (Table of chapter 20): Raises of every source since power-on -/
def fcrRaises : Obj :=
  { idx := 0x7000, sub := 0x04, ty := .u64, acc := .ro, role := .observer, dflt := .num 0 }

/-- 0x7000:05 `fcr.records_lost` (Table of chapter 20): Fault records without a staging slot (R517); saturates -/
def fcrRecordsLost : Obj :=
  { idx := 0x7000, sub := 0x05, ty := .u32, acc := .ro, role := .observer, dflt := .num 0 }

/-- 0x7000:06 `fcr.inject` (Table of chapter 20): Table 20.6 (R509) -/
def fcrInject : Obj :=
  { idx := 0x7000, sub := 0x06, ty := .domain, acc := .wo, role := .owner, dflt := .bytes [] }

/-- 0x7000:07 `fcr.inject_armed` (Table of chapter 20): An injection is armed -/
def fcrInjectArmed : Obj :=
  { idx := 0x7000, sub := 0x07, ty := .bool, acc := .ro, role := .observer, dflt := .num 0 }

/-- 0x7000:08 `fcr.history` (Table of chapter 20): 131,072 bytes, oldest record first (R508) -/
def fcrHistory : Obj :=
  { idx := 0x7000, sub := 0x08, ty := .domain, acc := .ro, role := .observer, dflt := .bytes [] }

/-- 0x7000:09 `fcr.history_seq` (Table of chapter 20): Sequence of the last history record -/
def fcrHistorySeq : Obj :=
  { idx := 0x7000, sub := 0x09, ty := .u64, acc := .ro, role := .observer, dflt := .num 0 }

/-- 0x7000:0A `fcr.ring.used` (Table of chapter 20): RAM ring fill, 0–4,096 -/
def fcrRingUsed : Obj :=
  { idx := 0x7000, sub := 0x0A, ty := .u16, acc := .ro, role := .observer, dflt := .num 0 }

/-- 0x7000:0B `fcr.ring.overwritten` (Table of chapter 20): Records overwritten in the ring -/
def fcrRingOverwritten : Obj :=
  { idx := 0x7000, sub := 0x0B, ty := .u64, acc := .ro, role := .observer, dflt := .num 0 }

/-- 0x7000:0C `fcr.flags` (Table of chapter 20): Sticky, cleared by read: [7:3] —; [2] RING; [1] OVERFLOW; [0] INJECTED -/
def fcrFlags : Obj :=
  { idx := 0x7000, sub := 0x0C, ty := .u8, acc := .rws, role := .operator, dflt := .num 0, lo := 0, hi := 255, rsv := 0xF8 }

/-- 0x7001:01 `fcr.status` (Table of chapter 20): Status word 0 (R499); words 1–7 at 02–08 -/
def fcrStatus : Obj :=
  { idx := 0x7001, sub := 0x01, gcnt := 8, gstride := 0x1, ty := .u32, acc := .rws, role := .operator, dflt := .num 0, lo := 0, hi := 4294967295 }

/-- 0x7002:01 `fcr.active` (Table of chapter 20): Live error lines, word 0; 02–08 -/
def fcrActive : Obj :=
  { idx := 0x7002, sub := 0x01, gcnt := 8, gstride := 0x1, ty := .u32, acc := .ro, role := .observer, dflt := .num 0 }

/-- 0x7003:01 `fcr.severe` (Table of chapter 20): Severe raises, word 0 (R501); 02–08 -/
def fcrSevere : Obj :=
  { idx := 0x7003, sub := 0x01, gcnt := 8, gstride := 0x1, ty := .u32, acc := .rws, role := .operator, dflt := .num 0, lo := 0, hi := 4294967295 }

/-- 0x7010:01 `fcr.src.window` (Table of chapter 20): W of F000; 1 ms–30 days. -/
def fcrSrcWindow : Obj :=
  { idx := 0x7010, sub := 0x01, cnt := 2, stride := 0x1, gcnt := 128, gstride := 0x1, ty := .dur64, acc := .rw, role := .owner, pers := .stored, dflt := .num 0, lo := 1000000, hi := 2592000000000000 }

/-- 0x7012:01 `fcr.src.thresh` (Table of chapter 20): N of F000, 0–16. -/
def fcrSrcThresh : Obj :=
  { idx := 0x7012, sub := 0x01, cnt := 2, stride := 0x1, gcnt := 128, gstride := 0x1, ty := .u8, acc := .rw, role := .owner, pers := .stored, dflt := .num 0, lo := 0, hi := 16 }

/-- 0x7014:01 `fcr.src.react_minor` (Table of chapter 20): Table 20.3, 0–5. -/
def fcrSrcReactMinor : Obj :=
  { idx := 0x7014, sub := 0x01, cnt := 2, stride := 0x1, gcnt := 128, gstride := 0x1, ty := .enum8, acc := .rw, role := .owner, pers := .stored, dflt := .num 0, lo := 0, hi := 5 }

/-- 0x7016:01 `fcr.src.react_severe` (Table of chapter 20): Table 20.3, 0–5. -/
def fcrSrcReactSevere : Obj :=
  { idx := 0x7016, sub := 0x01, cnt := 2, stride := 0x1, gcnt := 128, gstride := 0x1, ty := .enum8, acc := .rw, role := .owner, pers := .stored, dflt := .num 0, lo := 0, hi := 5 }

/-- 0x7018:01 `fcr.src.count` (Table of chapter 20): Raises since power-on; saturates -/
def fcrSrcCount : Obj :=
  { idx := 0x7018, sub := 0x01, cnt := 2, stride := 0x1, gcnt := 128, gstride := 0x1, ty := .u32, acc := .ro, role := .observer, dflt := .num 0 }

/-- 0x701A:01 `fcr.src.last` (Table of chapter 20): Time of the last raise -/
def fcrSrcLast : Obj :=
  { idx := 0x701A, sub := 0x01, cnt := 2, stride := 0x1, gcnt := 128, gstride := 0x1, ty := .time64, acc := .ro, role := .observer, dflt := .num (-9223372036854775808) }

/-- 0x701C:01 `fcr.src.cause` (Table of chapter 20): Cause word of the last raise, Table 20.2 -/
def fcrSrcCause : Obj :=
  { idx := 0x701C, sub := 0x01, cnt := 2, stride := 0x1, gcnt := 128, gstride := 0x1, ty := .u32, acc := .ro, role := .observer, dflt := .num 0 }

/-- 0x7020:01 `fcr.core.active` (Table of chapter 20): 0 core A, 1 core B -/
def fcrCoreActive : Obj :=
  { idx := 0x7020, sub := 0x01, ty := .enum8, acc := .ro, role := .observer, dflt := .num 0 }

/-- 0x7020:02 `fcr.core.standby` (Table of chapter 20): Standby ready (R514) -/
def fcrCoreStandby : Obj :=
  { idx := 0x7020, sub := 0x02, ty := .bool, acc := .ro, role := .observer, dflt := .num 0 }

/-- 0x7020:03 `fcr.core.ckpt_age` (Table of chapter 20): Age of the last completed checkpoint -/
def fcrCoreCkptAge : Obj :=
  { idx := 0x7020, sub := 0x03, ty := .dur64, acc := .ro, role := .observer, dflt := .num 0 }

/-- 0x7020:04 `fcr.core.takeovers` (Table of chapter 20): Takeovers since power-on; saturates -/
def fcrCoreTakeovers : Obj :=
  { idx := 0x7020, sub := 0x04, ty := .u32, acc := .ro, role := .observer, dflt := .num 0 }

/-- 0x7020:05 `fcr.core.last_gap` (Table of chapter 20): Fault to resumption of the last takeover -/
def fcrCoreLastGap : Obj :=
  { idx := 0x7020, sub := 0x05, ty := .dur64, acc := .ro, role := .observer, dflt := .num 0 }

/-- 0x7020:06 `fcr.core.lost` (Table of chapter 20): [7:2] —; [1] core B lost; [0] core A lost -/
def fcrCoreLost : Obj :=
  { idx := 0x7020, sub := 0x06, ty := .u8, acc := .ro, role := .observer, dflt := .num 0 }

/-- 0x7100:01 `compat.version` (Table of chapter 20): Layout of the forerunner view -/
def compatVersion : Obj :=
  { idx := 0x7100, sub := 0x01, ty := .u16, acc := .const, role := .observer, dflt := .num 18454 }

/-- 0x7100:02 `compat.summary` (Table of chapter 20): Bit b: block b has a set bit -/
def compatSummary : Obj :=
  { idx := 0x7100, sub := 0x02, ty := .u16, acc := .ro, role := .observer, dflt := .num 0 }

/-- 0x7110:01 `compat.blk.status` (Table of chapter 20): Block 0, Table 20.7 (R510); 16 bits as on the DXL-4816 -/
def compatBlkStatus : Obj :=
  { idx := 0x7110, sub := 0x01, cnt := 16, stride := 0x1, ty := .u16, acc := .rws, role := .operator, dflt := .num 0, lo := 0, hi := 65535 }

/-- 0x7110:02 `compat.blk.name` (Table of chapter 20): Block name, Table 20.7 -/
def compatBlkName : Obj :=
  { idx := 0x7110, sub := 0x02, cnt := 16, stride := 0x1, ty := .str, acc := .const, role := .observer, dflt := .bytes (ascii "LINK"), maxLen := 64 }

/-- 0x7200:01 `fallow.causes` (Table of chapter 20): Table 20.12 bits; [7] — -/
def fallowCauses : Obj :=
  { idx := 0x7200, sub := 0x01, ty := .u8, acc := .ro, role := .observer, dflt := .num 0 }

/-- 0x7200:02 `fallow.lost` (Table of chapter 20): Table 20.13 bits; [15:6] — -/
def fallowLost : Obj :=
  { idx := 0x7200, sub := 0x02, ty := .u16, acc := .ro, role := .observer, dflt := .num 0 }

/-- 0x7200:03 `fallow.lanes` (Table of chapter 20): Bit n: lane Ln permanently lost; [15:12] — -/
def fallowLanes : Obj :=
  { idx := 0x7200, sub := 0x03, ty := .u16, acc := .ro, role := .observer, dflt := .num 0 }

/-- 0x7200:04 `fallow.isolated` (Table of chapter 20): Bit n: lane Ln isolated (R524); held in PD0 -/
def fallowIsolated : Obj :=
  { idx := 0x7200, sub := 0x04, ty := .u16, acc := .ro, role := .observer, dflt := .num 0 }

/-- 0x7200:05 `fallow.cmd` (Table of chapter 20): 1 RECHECK, 2 LEAVE_SAFE (R519) -/
def fallowCmd : Obj :=
  { idx := 0x7200, sub := 0x05, ty := .enum8, acc := .wo, role := .owner, dflt := .num 0, lo := 1, hi := 2 }

/-- 0x7200:06 `fallow.restore_lane` (Table of chapter 20): Lane 0–11 whose isolation is cleared; refused with STATE when not isolated -/
def fallowRestoreLane : Obj :=
  { idx := 0x7200, sub := 0x06, ty := .u8, acc := .wo, role := .owner, dflt := .num 0, lo := 0, hi := 11 }

/-- 0x7200:07 `fallow.lane_grace` (Table of chapter 20): R524, 1 s–86,400 s. -/
def fallowLaneGrace : Obj :=
  { idx := 0x7200, sub := 0x07, ty := .dur64, acc := .rw, role := .owner, pers := .stored, dflt := .num 600000000000, lo := 1000000000, hi := 86400000000000 }

/-- 0x7200:08 `fallow.since` (Table of chapter 20): Time of the last entry into FALLOW -/
def fallowSince : Obj :=
  { idx := 0x7200, sub := 0x08, ty := .time64, acc := .ro, role := .observer, dflt := .num (-9223372036854775808) }

/-- 0x7200:09 `fallow.entries` (Table of chapter 20): Entries into FALLOW since power-on; saturates -/
def fallowEntries : Obj :=
  { idx := 0x7200, sub := 0x09, ty := .u32, acc := .ro, role := .observer, dflt := .num 0 }

/-- 0x7800:01 `jrn.state` (Table of chapter 21): 0 off, 1 running, 2 RAM ring, 3 full and holding, 4 UNSUPPORTED -/
def jrnState : Obj :=
  { idx := 0x7800, sub := 0x01, ty := .enum8, acc := .ro, role := .observer, dflt := .num 0 }

/-- 0x7800:02 `jrn.cmd` (Table of chapter 21): 1 FORMAT (R534), 2 SEAL_NOW, 3 VERIFY (R538) -/
def jrnCmd : Obj :=
  { idx := 0x7800, sub := 0x02, ty := .enum8, acc := .wo, role := .owner, dflt := .num 0, lo := 1, hi := 3 }

/-- 0x7800:03 `jrn.seq.next` (Table of chapter 21): Next sequence to assign -/
def jrnSeqNext : Obj :=
  { idx := 0x7800, sub := 0x03, ty := .u64, acc := .ro, role := .observer, dflt := .num 0 }

/-- 0x7800:04 `jrn.seq.sealed` (Table of chapter 21): R531 -/
def jrnSeqSealed : Obj :=
  { idx := 0x7800, sub := 0x04, ty := .u64, acc := .ro, role := .observer, dflt := .num 0 }

/-- 0x7800:05 `jrn.seq.oldest` (Table of chapter 21): Lowest sequence held -/
def jrnSeqOldest : Obj :=
  { idx := 0x7800, sub := 0x05, ty := .u64, acc := .ro, role := .observer, dflt := .num 0 }

/-- 0x7800:06 `jrn.ack` (Table of chapter 21): Acknowledge cursor, kept in MRAM (R535) -/
def jrnAck : Obj :=
  { idx := 0x7800, sub := 0x06, ty := .u64, acc := .ro, role := .observer, dflt := .num 0 }

/-- 0x7800:07 `jrn.ack_to` (Table of chapter 21): R533 -/
def jrnAckTo : Obj :=
  { idx := 0x7800, sub := 0x07, ty := .u64, acc := .wo, role := .operator, dflt := .num 0, lo := 0, hi := 18446744073709551615 }

/-- 0x7800:08 `jrn.pages` (Table of chapter 21): [63:32] pages held; [31:0] sectors free -/
def jrnPages : Obj :=
  { idx := 0x7800, sub := 0x08, ty := .u64, acc := .ro, role := .observer, dflt := .num 0 }

/-- 0x7800:09 `jrn.full_policy` (Table of chapter 21): 0 overwrite, 1 hold (R532). -/
def jrnFullPolicy : Obj :=
  { idx := 0x7800, sub := 0x09, ty := .enum8, acc := .rw, role := .owner, pers := .stored, dflt := .num 0, lo := 0, hi := 1 }

/-- 0x7800:0A `jrn.seal_interval` (Table of chapter 21): 100 ms–3,600 s. -/
def jrnSealInterval : Obj :=
  { idx := 0x7800, sub := 0x0A, ty := .dur64, acc := .rw, role := .owner, pers := .stored, dflt := .num 10000000000, lo := 100000000, hi := 3600000000000 }

/-- 0x7800:0B `jrn.refresh_age` (Table of chapter 21): 30 days–20 years (R536). -/
def jrnRefreshAge : Obj :=
  { idx := 0x7800, sub := 0x0B, ty := .dur64, acc := .rw, role := .owner, pers := .stored, dflt := .num 157788000000000000, lo := 2592000000000000, hi := 631152000000000000 }

/-- 0x7800:0C `jrn.warn_pct` (Table of chapter 21): 10–99. -/
def jrnWarnPct : Obj :=
  { idx := 0x7800, sub := 0x0C, ty := .u8, acc := .rw, role := .owner, pers := .stored, dflt := .num 90, lo := 10, hi := 99 }

/-- 0x7800:0D `jrn.lost` (Table of chapter 21): Records lost, every cause -/
def jrnLost : Obj :=
  { idx := 0x7800, sub := 0x0D, ty := .u64, acc := .ro, role := .observer, dflt := .num 0 }

/-- 0x7800:0E `jrn.flash.size` (Table of chapter 21): Flash density -/
def jrnFlashSize : Obj :=
  { idx := 0x7800, sub := 0x0E, ty := .u64, acc := .ro, role := .observer, dflt := .num 0 }

/-- 0x7800:0F `jrn.flash.retired` (Table of chapter 21): Sectors retired -/
def jrnFlashRetired : Obj :=
  { idx := 0x7800, sub := 0x0F, ty := .u32, acc := .ro, role := .observer, dflt := .num 0 }

/-- 0x7800:10 `jrn.flash.passes` (Table of chapter 21): Passes of the head since FORMAT -/
def jrnFlashPasses : Obj :=
  { idx := 0x7800, sub := 0x10, ty := .u32, acc := .ro, role := .observer, dflt := .num 0 }

/-- 0x7800:11 `jrn.head_seal` (Table of chapter 21): 40 bytes: page sequence U64, C(p) of the last sealed page -/
def jrnHeadSeal : Obj :=
  { idx := 0x7800, sub := 0x11, ty := .domain, acc := .ro, role := .observer, dflt := .bytes [] }

/-- 0x7800:12 `jrn.verify.state` (Table of chapter 21): 0 idle, 1 running, 2 PASS, 3 FAIL -/
def jrnVerifyState : Obj :=
  { idx := 0x7800, sub := 0x12, ty := .enum8, acc := .ro, role := .observer, dflt := .num 0 }

/-- 0x7800:13 `jrn.verify.bad` (Table of chapter 21): First failing page sequence -/
def jrnVerifyBad : Obj :=
  { idx := 0x7800, sub := 0x13, ty := .u64, acc := .ro, role := .observer, dflt := .num 0 }

/-- 0x7800:14 `jrn.flags` (Table of chapter 21): Sticky, cleared by read: [7:3] —; [2] FULL_WARN; [1] OVERWRITE; [0] VERIFY_FAIL -/
def jrnFlags : Obj :=
  { idx := 0x7800, sub := 0x14, ty := .u8, acc := .rws, role := .operator, dflt := .num 0, lo := 0, hi := 255, rsv := 0xF8 }

/-- 0x7810:01 `jrn.rd.select` (Table of chapter 21): Per session (R537) -/
def jrnRdSelect : Obj :=
  { idx := 0x7810, sub := 0x01, ty := .u64, acc := .rw, role := .observer, dflt := .num 0, lo := 0, hi := 18446744073709551615 }

/-- 0x7810:02 `jrn.rd.page` (Table of chapter 21): 4,096 bytes -/
def jrnRdPage : Obj :=
  { idx := 0x7810, sub := 0x02, ty := .domain, acc := .ro, role := .observer, dflt := .bytes [] }

/-- 0x7810:03 `jrn.rd.page_seq` (Table of chapter 21): Page sequence of the selected page -/
def jrnRdPageSeq : Obj :=
  { idx := 0x7810, sub := 0x03, ty := .u64, acc := .ro, role := .observer, dflt := .num 0 }

/-- 0x300C:01 `ch.cal.state` (Table of chapter 21): R543 -/
def chCalState : Obj :=
  { idx := 0x300C, sub := 0x01, cnt := 96, stride := 0x10, ty := .enum8, acc := .ro, role := .observer, dflt := .num 2 }

/-- 0x300C:02 `ch.cal.serial` (Table of chapter 21): Serial in the block -/
def chCalSerial : Obj :=
  { idx := 0x300C, sub := 0x02, cnt := 96, stride := 0x10, ty := .str, acc := .ro, role := .observer, dflt := .bytes [], maxLen := 64 }

/-- 0x300C:03 `ch.cal.tag` (Table of chapter 21): Calibration tag, header bytes 28–29; a write changes the block and is recorded under R542. CAL -/
def chCalTag : Obj :=
  { idx := 0x300C, sub := 0x03, cnt := 96, stride := 0x10, ty := .u16, acc := .rw, role := .calibrator, pers := .cal, dflt := .num 0, lo := 0, hi := 65535 }

/-- 0x300C:04 `ch.cal.time` (Table of chapter 21): Header time -/
def chCalTime : Obj :=
  { idx := 0x300C, sub := 0x04, cnt := 96, stride := 0x10, ty := .time64, acc := .ro, role := .observer, dflt := .num (-9223372036854775808) }

/-- 0x300C:05 `ch.cal.block` (Table of chapter 21): 640 bytes (R540, R542). CAL -/
def chCalBlock : Obj :=
  { idx := 0x300C, sub := 0x05, cnt := 96, stride := 0x10, ty := .domain, acc := .rw, role := .calibrator, pers := .cal, dflt := .bytes [] }

/-- 0x300C:06 `ch.cal.cmd` (Table of chapter 21): 1 ADOPT (R543) -/
def chCalCmd : Obj :=
  { idx := 0x300C, sub := 0x06, cnt := 96, stride := 0x10, ty := .enum8, acc := .wo, role := .calibrator, dflt := .num 0, lo := 1, hi := 1 }

/-- 0x8000:01 `cal.ch.target` (Table of chapter 21): [15:8] channel; [7] 0 voltage, 1 current; [6:4] —; [3:0] range -/
def calChTarget : Obj :=
  { idx := 0x8000, sub := 0x01, ty := .u16, acc := .rw, role := .calibrator, dflt := .num 0, lo := 0, hi := 65535, rsv := 0x70 }

/-- 0x8000:02 `cal.ch.applied` (Table of chapter 21): Applied value -/
def calChApplied : Obj :=
  { idx := 0x8000, sub := 0x02, ty := .i64, acc := .rw, role := .calibrator, dflt := .num 0, lo := (-9223372036854775808), hi := 9223372036854775807 }

/-- 0x8000:03 `cal.ch.frames` (Table of chapter 21): 1,024–16,777,216 -/
def calChFrames : Obj :=
  { idx := 0x8000, sub := 0x03, ty := .u32, acc := .rw, role := .calibrator, dflt := .num 65536, lo := 1024, hi := 16777216 }

/-- 0x8000:04 `cal.ch.cmd` (Table of chapter 21): 1 ZERO, 2 MID, 3 SPAN, 4 COMPUTE, 5 OUT, 6 ABORT -/
def calChCmd : Obj :=
  { idx := 0x8000, sub := 0x04, ty := .enum8, acc := .wo, role := .calibrator, dflt := .num 0, lo := 1, hi := 6 }

/-- 0x8000:05 `cal.ch.state` (Table of chapter 21): 0 IDLE, 1 RUN, 2 ZERO_DONE, 3 MID_DONE, 4 SPAN_DONE, 5 DONE, 6 FAILED -/
def calChState : Obj :=
  { idx := 0x8000, sub := 0x05, ty := .enum8, acc := .ro, role := .observer, dflt := .num 0 }

/-- 0x8000:06 `cal.ch.result` (Table of chapter 21): 0 none, 1 OK, 2 SPAN_SMALL, 3 ABORTED -/
def calChResult : Obj :=
  { idx := 0x8000, sub := 0x06, ty := .enum8, acc := .ro, role := .observer, dflt := .num 0 }

/-- 0x8010:01 `cal.sam` (Table of chapter 21): 944 bytes (R541). CAL -/
def calSam : Obj :=
  { idx := 0x8010, sub := 0x01, ty := .domain, acc := .rw, role := .calibrator, pers := .cal, dflt := .bytes [] }

/-- 0x8011:01 `cal.axd` (Table of chapter 21): 80 bytes. CAL -/
def calAxd : Obj :=
  { idx := 0x8011, sub := 0x01, ty := .domain, acc := .rw, role := .calibrator, pers := .cal, dflt := .bytes [] }

/-- 0x8012:01 `cal.tiu` (Table of chapter 21): 128 bytes. CAL -/
def calTiu : Obj :=
  { idx := 0x8012, sub := 0x01, ty := .domain, acc := .rw, role := .calibrator, pers := .cal, dflt := .bytes [] }

/-- 0x8020:01 `cal.writes` (Table of chapter 21): Block changes since power-on; saturates -/
def calWrites : Obj :=
  { idx := 0x8020, sub := 0x01, ty := .u32, acc := .ro, role := .observer, dflt := .num 0 }

/-- 0x9000:01 `sec.fw.cmd` (Table of chapter 21): 1 BEGIN, 2 VERIFY, 3 INSTALL, 4 ABORT (R549) -/
def secFwCmd : Obj :=
  { idx := 0x9000, sub := 0x01, ty := .enum8, acc := .wo, role := .owner, dflt := .num 0, lo := 1, hi := 4 }

/-- 0x9000:02 `sec.fw.state` (Table of chapter 21): 0 IDLE, 1 LOADING, 2 VERIFIED, 3 INSTALLED, 4 FAILED -/
def secFwState : Obj :=
  { idx := 0x9000, sub := 0x02, ty := .enum8, acc := .ro, role := .observer, dflt := .num 0 }

/-- 0x9000:03 `sec.fw.image` (Table of chapter 21): Header and image, up to 458,752 + 256 bytes -/
def secFwImage : Obj :=
  { idx := 0x9000, sub := 0x03, ty := .domain, acc := .wo, role := .owner, dflt := .bytes [] }

/-- 0x9000:04 `sec.fw.result` (Table of chapter 21): 0 none, 1 OK, 2 header, 3 hash, 4 signature, 5 revoked key, 6 security version -/
def secFwResult : Obj :=
  { idx := 0x9000, sub := 0x04, ty := .enum8, acc := .ro, role := .observer, dflt := .num 0 }

/-- 0x9000:05 `sec.fw.trials` (Table of chapter 21): 1–15. -/
def secFwTrials : Obj :=
  { idx := 0x9000, sub := 0x05, ty := .u8, acc := .rw, role := .owner, pers := .stored, dflt := .num 3, lo := 1, hi := 15 }

/-- 0x9000:06 `sec.fw.min_svn` (Table of chapter 21): R550 -/
def secFwMinSvn : Obj :=
  { idx := 0x9000, sub := 0x06, ty := .u32, acc := .ro, role := .observer, dflt := .num 0 }

/-- 0x9000:07 `sec.fw.revoked` (Table of chapter 21): Bit k: key k revoked -/
def secFwRevoked : Obj :=
  { idx := 0x9000, sub := 0x07, ty := .u8, acc := .ro, role := .observer, dflt := .num 0 }

/-- 0x9000:08 `sec.fw.revoke` (Table of chapter 21): Key index 0–3 -/
def secFwRevoke : Obj :=
  { idx := 0x9000, sub := 0x08, ty := .u8, acc := .wo, role := .owner, dflt := .num 0, lo := 0, hi := 3 }

/-- 0x9010:01 `sec.key.role` (Table of chapter 21): Role as Table 14.6; 0xFF empty -/
def secKeyRole : Obj :=
  { idx := 0x9010, sub := 0x01, cnt := 16, stride := 0x1, ty := .enum8, acc := .ro, role := .observer, dflt := .num 0 }

/-- 0x9010:02 `sec.key.fp` (Table of chapter 21): Fingerprint (R545) -/
def secKeyFp : Obj :=
  { idx := 0x9010, sub := 0x02, cnt := 16, stride := 0x1, ty := .u64, acc := .ro, role := .observer, dflt := .num 0 }

/-- 0x9010:03 `sec.key.label` (Table of chapter 21): Up to 16 bytes -/
def secKeyLabel : Obj :=
  { idx := 0x9010, sub := 0x03, cnt := 16, stride := 0x1, ty := .str, acc := .rw, role := .owner, dflt := .bytes [], maxLen := 16 }

/-- 0x9010:04 `sec.key.set` (Table of chapter 21): 34 bytes (R546) -/
def secKeySet : Obj :=
  { idx := 0x9010, sub := 0x04, cnt := 16, stride := 0x1, ty := .domain, acc := .wo, role := .owner, dflt := .bytes [] }

/-- 0x9010:05 `sec.key.cmd` (Table of chapter 21): 1 ERASE -/
def secKeyCmd : Obj :=
  { idx := 0x9010, sub := 0x05, cnt := 16, stride := 0x1, ty := .enum8, acc := .wo, role := .owner, dflt := .num 0, lo := 1, hi := 1 }

/-- 0x9020:01 `sec.dbg.cmd` (Table of chapter 21): 1 UNLOCK, 2 LOCK (R551) -/
def secDbgCmd : Obj :=
  { idx := 0x9020, sub := 0x01, ty := .enum8, acc := .wo, role := .owner, dflt := .num 0, lo := 1, hi := 2 }

/-- 0x9020:02 `sec.dbg.duration` (Table of chapter 21): 60 s–86,400 s. -/
def secDbgDuration : Obj :=
  { idx := 0x9020, sub := 0x02, ty := .dur64, acc := .rw, role := .owner, pers := .stored, dflt := .num 3600000000000, lo := 60000000000, hi := 86400000000000 }

/-- 0x9020:03 `sec.dbg.remaining` (Table of chapter 21): Time to relock -/
def secDbgRemaining : Obj :=
  { idx := 0x9020, sub := 0x03, ty := .dur64, acc := .ro, role := .observer, dflt := .num 0 }

/-- 0x9030:01 `sec.rng.state` (Table of chapter 21): 0 OK, 1 FAILED (R547) -/
def secRngState : Obj :=
  { idx := 0x9030, sub := 0x01, ty := .enum8, acc := .ro, role := .observer, dflt := .num 0 }

/-- The rows above, part 0. -/
def objectsDevice0 : List Obj :=
  [jdpVersion, jdpMaxBody, jdpTimeoutDefault, jdpUdpPort, jdpUdpEnable, jdpCanEnable, jdpCanBase, jdpSpiEnable,
   jdpSelf, jdpSessions, jdpRetSpan, jdpCntMalformed, jdpCntVersion, jdpCntUnknown, jdpCntTag, jdpCntNonce,
   jdpCntWindow, jdpCntHeldExpired, jdpSesState, jdpSesId, jdpSesRole, jdpSesBinding, jdpSesPeer, jdpSesCseq,
   jdpSesDseq, jdpSesAck, jdpSesLag, jdpSesTimeout, jdpSesIdle, jdpSesLocks, jdpSesSubs, jdpSesDropped,
   jdpSesOpened, jdpSesRejoins, jdpSesCmd, jdpLockOwner, jdpLockHandle, jdpLockNode, jdpLockRanges,
   jdpLockRemaining]

/-- The rows above, part 1. -/
def objectsDevice1 : List Obj :=
  [jdpLockStaged, jdpLockStagedBytes, dbgAttached, dbgUnlocked, dbgPeeks, dbgLastPeek, dbgHalted, dbgHalts,
   idVendor, idVendorCode, idFamily, idProduct, idProductCode, idOrderCode, idRevision, idRevisionCode, idSerial,
   idUid, idLot, idMade, idTjMax, idFwVersion, idFwSlot, idFwBuilt, idFwHash, idBootVersion, idCapLanes,
   idCapChannels, idCapPoints, idCapScans, idCapSessions, devState, devPrevState, devSince, devReason, devUptime,
   devTransitions, devAutostart, devName, devFlags]

/-- The rows above, part 2. -/
def objectsDevice2 : List Obj :=
  [devCfgCmd, devCfgState, devCfgSeq, devCfgTime, devCfgSize, devCfgLimit, devCfgSkipped, devCfgRefused,
   devCfgImage, devDictMap, devDictCrc, devDictCount, devMirrorPeriod, devMirrorRefreshes, devMirrorDivergent,
   chEnable, chState, chLane, chSlot, chName, chTermCmd, chTermSlice, chTermDacSlice, chDivergent, chEnabledAt,
   chStatus, chStatusSticky, chStatusChanged, chSnap, netEthEnable, netEthMac, netEthPhyAddr, netEthVlan,
   netEthLink, netEthDuplex, netEthRxFrames, netEthTxFrames, netEthRxErrors, netIpMode, netIpAddr]

/-- The rows above, part 3. -/
def objectsDevice3 : List Obj :=
  [netIpMask, netIpGateway, netIpAddrNow, netIpLease, netIpDropped, netPrpMode, netPrpWindow, netPrpLifeCheck,
   netPrpDupDiscarded, netPrpOnlyA, netPrpOnlyB, netPtpEnable, netPtpRole, netPtpTransport, netPtpDomain,
   netPtpPriority1, netPtpPriority2, netPtpPort, netPtpLogSync, netPtpLogAnnounce, netPtpLogDelay, netPtpLatRx,
   netPtpLatTx, netPtpState, netPtpMasterId, netPtpPathDelay, netCanEnable, netCanNominal, netCanData, netCanState,
   netCanTec, netCanRec, netCanBusoffs, netSpiMsgsIn, netSpiMsgsOut, netSpiErrors, hlEnable, hlRole, hlPriority,
   hlNumberMode]

/-- The rows above, part 4. -/
def objectsDevice4 : List Obj :=
  [hlNodeFixed, hlElectDelay, hlRevertHold, hlResShare, hlCmd, hlState, hlNode, hlNodes, hlEpoch, hlCircuit,
   hlLate, hlMembers, hlBreaks, hlEvtErrors, hlTransitDropped, hlResDropped, hlFlags, hlPortState, hlPortDelay,
   hlPortAsym, hlPortPol, hlPortBad, hlPortDowns, clkRefSel, clkRefinFreq, clkRefinTol, clkQualTimeout,
   clkRevertAuto, clkRevertHold, clkDriftTol, clkDriftWindow, clkBackupLimit, clkCmd, clkGate, clkState, clkInput,
   clkQualified, clkHrcTrim, clkHrcError, clkTrimSrc]

/-- The rows above, part 5. -/
def objectsDevice5 : List Obj :=
  [clkMuxPending, clkDrift, clkBackupTime, clkFailovers, clkLastRelock, clkLastLoss, clkZeroReads, clkFlags,
   pmuPstate, pmuCmd, pmuKeep, pmuPfailCount, pmuFlags, pmuPdState, pmuPdRetain, pmuPdOn, pmuPdOff, pmuPdBoot,
   pmuLaneReset, pmuUnitReset, pmuCoreReset, pmuResetCause, pmuResetTime, pmuResetCount, pmuResetStuckGuard,
   pmuResetPin, pmuWdtTimeout, pmuWdtExpiries, pmuBootPref, pmuBootConfirmed, pmuBootTrials, pmuBootConfirmTime,
   pmuBootStrap, pmuBootTime, pmuBootSafeStart, pmuWakeAt, pmuWakeCan, pmuWakeSrc, pmuWakeDetail, fcrFirst]

/-- The rows above, part 6. -/
def objectsDevice6 : List Obj :=
  [fcrFirstHeld, fcrCmd, fcrRaises, fcrRecordsLost, fcrInject, fcrInjectArmed, fcrHistory, fcrHistorySeq,
   fcrRingUsed, fcrRingOverwritten, fcrFlags, fcrStatus, fcrActive, fcrSevere, fcrSrcWindow, fcrSrcThresh,
   fcrSrcReactMinor, fcrSrcReactSevere, fcrSrcCount, fcrSrcLast, fcrSrcCause, fcrCoreActive, fcrCoreStandby,
   fcrCoreCkptAge, fcrCoreTakeovers, fcrCoreLastGap, fcrCoreLost, compatVersion, compatSummary, compatBlkStatus,
   compatBlkName, fallowCauses, fallowLost, fallowLanes, fallowIsolated, fallowCmd, fallowRestoreLane,
   fallowLaneGrace, fallowSince, fallowEntries]

/-- The rows above, part 7. -/
def objectsDevice7 : List Obj :=
  [jrnState, jrnCmd, jrnSeqNext, jrnSeqSealed, jrnSeqOldest, jrnAck, jrnAckTo, jrnPages, jrnFullPolicy,
   jrnSealInterval, jrnRefreshAge, jrnWarnPct, jrnLost, jrnFlashSize, jrnFlashRetired, jrnFlashPasses, jrnHeadSeal,
   jrnVerifyState, jrnVerifyBad, jrnFlags, jrnRdSelect, jrnRdPage, jrnRdPageSeq, chCalState, chCalSerial, chCalTag,
   chCalTime, chCalBlock, chCalCmd, calChTarget, calChApplied, calChFrames, calChCmd, calChState, calChResult,
   calSam, calAxd, calTiu, calWrites, secFwCmd]

/-- The rows above, part 8. -/
def objectsDevice8 : List Obj :=
  [secFwState, secFwImage, secFwResult, secFwTrials, secFwMinSvn, secFwRevoked, secFwRevoke, secKeyRole, secKeyFp,
   secKeyLabel, secKeySet, secKeyCmd, secDbgCmd, secDbgDuration, secDbgRemaining, secRngState]

/-- Every row of this file. -/
def objectsDevice : List Obj := objectsDevice0 ++ objectsDevice1 ++ objectsDevice2 ++ objectsDevice3 ++ objectsDevice4 ++ objectsDevice5 ++ objectsDevice6 ++ objectsDevice7 ++ objectsDevice8

end Sys2Proof.Machine.O
end

