-- ==== Sys2Proof/Machine/ObjectsLane.lean ====
section
/-! DEFINITION. The dictionary objects of lanes, channels, apertures, results and sequencers (chapters 2-7): one row of the
specification's object tables per definition, with its type, access, role, persistence, default and permitted values. -/
namespace Sys2Proof.Machine.O

/-- 0x2700:01 `lane.state` (Table of chapter 2): Lane state: 0 OFF, 1 IDLE, 2 TRAIN, 3 DESCRIBE, 4 RUN, 5 RETRAIN, 6 REATTACH, 7 LOST, 8 DRAIN, 9 FAULT -/
def laneState : Obj :=
  { idx := 0x2700, sub := 0x01, cnt := 12, stride := 0x10, ty := .enum8, acc := .ro, role := .observer, dflt := .num 0 }

/-- 0x2700:02 `lane.enable` (Table of chapter 2): 1 trains and runs the lane; 0 drains it (Table 2.16). -/
def laneEnable : Obj :=
  { idx := 0x2700, sub := 0x02, cnt := 12, stride := 0x10, ty := .bool, acc := .rw, role := .operator, pers := .stored, dflt := .num 0, lo := 0, hi := 1 }

/-- 0x2700:03 `lane.div` (Table of chapter 2): Divisor D, 1–2000 (R32, R34). -/
def laneDiv : Obj :=
  { idx := 0x2700, sub := 0x03, cnt := 12, stride := 0x10, ty := .u16, acc := .rw, role := .operator, pers := .stored, dflt := .num 1, lo := 1, hi := 2000 }

/-- 0x2700:04 `lane.cmd` (Table of chapter 2): 1 ATTACH from LOST or FAULT; 2 RETRAIN from RUN; 3 SAFE_RELEASE, from RUN, of every safed slot whose safe ramp is complete (R65). Refused in any other lane state -/
def laneCmd : Obj :=
  { idx := 0x2700, sub := 0x04, cnt := 12, stride := 0x10, ty := .enum8, acc := .wo, role := .operator, dflt := .num 0, lo := 1, hi := 3 }

/-- 0x2700:05 `lane.slice_state` (Table of chapter 2): Last SSTATE accepted, coded as in Table 2.14 -/
def laneSliceState : Obj :=
  { idx := 0x2700, sub := 0x05, cnt := 12, stride := 0x10, ty := .enum8, acc := .ro, role := .observer, dflt := .num 0 }

/-- 0x2700:06 `lane.boot_count` (Table of chapter 2): Slice boot count from the last STATUS -/
def laneBootCount : Obj :=
  { idx := 0x2700, sub := 0x06, cnt := 12, stride := 0x10, ty := .u16, acc := .ro, role := .observer, dflt := .num 0 }

/-- 0x2701:01 `lane.link.rtt` (Table of chapter 2): Round trip d_rt (R71) -/
def laneLinkRtt : Obj :=
  { idx := 0x2701, sub := 0x01, cnt := 12, stride := 0x10, ty := .u32, acc := .ro, role := .observer, dflt := .num 0 }

/-- 0x2701:02 `lane.link.d_down` (Table of chapter 2): Down-link delay (R71) -/
def laneLinkDDown : Obj :=
  { idx := 0x2701, sub := 0x02, cnt := 12, stride := 0x10, ty := .u32, acc := .ro, role := .observer, dflt := .num 0 }

/-- 0x2701:03 `lane.link.d_up` (Table of chapter 2): Up-link delay (R71) -/
def laneLinkDUp : Obj :=
  { idx := 0x2701, sub := 0x03, cnt := 12, stride := 0x10, ty := .u32, acc := .ro, role := .observer, dflt := .num 0 }

/-- 0x2701:04 `lane.link.asym` (Table of chapter 2): Designed d_up − d_down, −200,000 to +200,000. -/
def laneLinkAsym : Obj :=
  { idx := 0x2701, sub := 0x04, cnt := 12, stride := 0x10, ty := .i32, acc := .rw, role := .owner, pers := .stored, dflt := .num 0, lo := (-200000), hi := 200000 }

/-- 0x2701:05 `lane.link.pol` (Table of chapter 2): [0] invert down-link; [1] invert up-link; [7:2] reserved. Takes effect at the next training. -/
def laneLinkPol : Obj :=
  { idx := 0x2701, sub := 0x05, cnt := 12, stride := 0x10, ty := .u8, acc := .rw, role := .owner, pers := .stored, dflt := .num 0, lo := 0, hi := 255, rsv := 0xFC }

/-- 0x2701:06 `lane.link.err_up` (Table of chapter 2): Rejected or missing up-frames since reset; saturates -/
def laneLinkErrUp : Obj :=
  { idx := 0x2701, sub := 0x06, cnt := 12, stride := 0x10, ty := .u32, acc := .ro, role := .observer, dflt := .num 0 }

/-- 0x2701:07 `lane.link.err_down` (Table of chapter 2): Rejected down-frames from the last STATUS -/
def laneLinkErrDown : Obj :=
  { idx := 0x2701, sub := 0x07, cnt := 12, stride := 0x10, ty := .u32, acc := .ro, role := .observer, dflt := .num 0 }

/-- 0x2701:08 `lane.link.retrains` (Table of chapter 2): Entries into RETRAIN since reset; saturates -/
def laneLinkRetrains : Obj :=
  { idx := 0x2701, sub := 0x08, cnt := 12, stride := 0x10, ty := .u32, acc := .ro, role := .observer, dflt := .num 0 }

/-- 0x2701:09 `lane.link.last_gap` (Table of chapter 2): From entry into RETRAIN to the next RUN, for the last retrain -/
def laneLinkLastGap : Obj :=
  { idx := 0x2701, sub := 0x09, cnt := 12, stride := 0x10, ty := .dur64, acc := .ro, role := .observer, dflt := .num 0 }

/-- 0x2702:01 `lane.hold.timeout` (Table of chapter 2): Slice hold timeout, 1,000,000–60,000,000,000, in whole microseconds (R82). -/
def laneHoldTimeout : Obj :=
  { idx := 0x2702, sub := 0x01, cnt := 12, stride := 0x10, ty := .dur64, acc := .rw, role := .owner, pers := .stored, dflt := .num 100000000, lo := 1000000, hi := 60000000000 }

/-- 0x2702:02 `lane.hold.entries` (Table of chapter 2): Slice HOLD entries seen since reset -/
def laneHoldEntries : Obj :=
  { idx := 0x2702, sub := 0x02, cnt := 12, stride := 0x10, ty := .u32, acc := .ro, role := .observer, dflt := .num 0 }

/-- 0x2702:03 `lane.hold.reattach` (Table of chapter 2): Permits bumpless reattach (R87). -/
def laneHoldReattach : Obj :=
  { idx := 0x2702, sub := 0x03, cnt := 12, stride := 0x10, ty := .bool, acc := .rw, role := .owner, pers := .stored, dflt := .num 1, lo := 0, hi := 1 }

/-- 0x2702:04 `lane.hold.last_result` (Table of chapter 2): Outcome of the last HOLD (R89); 0 none yet -/
def laneHoldLastResult : Obj :=
  { idx := 0x2702, sub := 0x04, cnt := 12, stride := 0x10, ty := .enum8, acc := .ro, role := .observer, dflt := .num 0 }

/-- 0x2703:01 `lane.desc.raw` (Table of chapter 2): Descriptor bytes as received, big-endian fields -/
def laneDescRaw : Obj :=
  { idx := 0x2703, sub := 0x01, cnt := 12, stride := 0x10, ty := .domain, acc := .ro, role := .observer, dflt := .bytes [] }

/-- 0x2703:02 `lane.desc.class` (Table of chapter 2): 0x50 P, 0x48 H, 0x53 S -/
def laneDescClass : Obj :=
  { idx := 0x2703, sub := 0x02, cnt := 12, stride := 0x10, ty := .enum8, acc := .ro, role := .observer, dflt := .num 0 }

/-- 0x2703:03 `lane.desc.serial` (Table of chapter 2): Slice serial number -/
def laneDescSerial : Obj :=
  { idx := 0x2703, sub := 0x03, cnt := 12, stride := 0x10, ty := .str, acc := .ro, role := .observer, dflt := .bytes [], maxLen := 64 }

/-- 0x2703:04 `lane.desc.latency` (Table of chapter 2): Converter latency L -/
def laneDescLatency : Obj :=
  { idx := 0x2703, sub := 0x04, cnt := 12, stride := 0x10, ty := .u8, acc := .ro, role := .observer, dflt := .num 0 }

/-- 0x2703:05 `lane.desc.slots` (Table of chapter 2): Slot mask; clear bits are ABSENT slots (R94) -/
def laneDescSlots : Obj :=
  { idx := 0x2703, sub := 0x05, cnt := 12, stride := 0x10, ty := .u8, acc := .ro, role := .observer, dflt := .num 0 }

/-- 0x2703:06 `lane.desc.crc` (Table of chapter 2): Descriptor CRC -/
def laneDescCrc : Obj :=
  { idx := 0x2703, sub := 0x06, cnt := 12, stride := 0x10, ty := .u32, acc := .ro, role := .observer, dflt := .num 0 }

/-- 0x2703:07 `lane.desc.n_irng` (Table of chapter 2): NI -/
def laneDescNIrng : Obj :=
  { idx := 0x2703, sub := 0x07, cnt := 12, stride := 0x10, ty := .u8, acc := .ro, role := .observer, dflt := .num 0 }

/-- 0x2703:08 `lane.desc.n_vrng` (Table of chapter 2): NV -/
def laneDescNVrng : Obj :=
  { idx := 0x2703, sub := 0x08, cnt := 12, stride := 0x10, ty := .u8, acc := .ro, role := .observer, dflt := .num 0 }

/-- 0x2704:01 `lane.clamp.margin` (Table of chapter 2): Clamp margin of R67 as a share of range full scale, 0–2000. -/
def laneClampMargin : Obj :=
  { idx := 0x2704, sub := 0x01, cnt := 12, stride := 0x10, ty := .u16, acc := .rw, role := .owner, pers := .stored, dflt := .num 200, lo := 0, hi := 2000 }

/-- 0x2704:02 `lane.msg.resends` (Table of chapter 2): Message segments resent by the controller since reset -/
def laneMsgResends : Obj :=
  { idx := 0x2704, sub := 0x02, cnt := 12, stride := 0x10, ty := .u32, acc := .ro, role := .observer, dflt := .num 0 }

/-- 0x3001:01 `ch.force.mode` (Table of chapter 3): 0 voltage force, 1 current force, 2 measure-only. Writable only in Disabled (R116). -/
def chForceMode : Obj :=
  { idx := 0x3001, sub := 0x01, cnt := 96, stride := 0x10, ty := .enum8, acc := .rw, role := .operator, pers := .stored, dflt := .num 2, lo := 0, hi := 2 }

/-- 0x3001:02 `ch.force.v_level` (Table of chapter 3): Static target in voltage force; outer target when `ch.casc.qty` = 0. -/
def chForceVLevel : Obj :=
  { idx := 0x3001, sub := 0x02, cnt := 96, stride := 0x10, ty := .volt, acc := .rw, role := .operator, pers := .stored, dflt := .num 0, lo := (-9223372036854775808), hi := 9223372036854775807 }

/-- 0x3001:03 `ch.force.i_level` (Table of chapter 3): Static target in current force; outer target when `ch.casc.qty` = 1. -/
def chForceILevel : Obj :=
  { idx := 0x3001, sub := 0x03, cnt := 96, stride := 0x10, ty := .amp, acc := .rw, role := .operator, pers := .stored, dflt := .num 0, lo := (-9223372036854775808), hi := 9223372036854775807 }

/-- 0x3001:04 `ch.force.src` (Table of chapter 3): 0 static level, 1 sequencer (R105). -/
def chForceSrc : Obj :=
  { idx := 0x3001, sub := 0x04, cnt := 96, stride := 0x10, ty := .enum8, acc := .rw, role := .operator, pers := .stored, dflt := .num 0, lo := 0, hi := 1 }

/-- 0x3001:05 `ch.force.target` (Table of chapter 3): Target of the last completed iteration -/
def chForceTarget : Obj :=
  { idx := 0x3001, sub := 0x05, cnt := 96, stride := 0x10, ty := .i64, acc := .ro, role := .observer, dflt := .num 0 }

/-- 0x3001:06 `ch.force.setpoint` (Table of chapter 3): r_eff of the last completed iteration -/
def chForceSetpoint : Obj :=
  { idx := 0x3001, sub := 0x06, cnt := 96, stride := 0x10, ty := .i64, acc := .ro, role := .observer, dflt := .num 0 }

/-- 0x3001:07 `ch.force.u` (Table of chapter 3): Output u, loop units of the forcing range -/
def chForceU : Obj :=
  { idx := 0x3001, sub := 0x07, cnt := 96, stride := 0x10, ty := .i32, acc := .ro, role := .observer, dflt := .num 0 }

/-- 0x3001:08 `ch.force.dac` (Table of chapter 3): DAC code last sent -/
def chForceDac : Obj :=
  { idx := 0x3001, sub := 0x08, cnt := 96, stride := 0x10, ty := .i32, acc := .ro, role := .observer, dflt := .num 0 }

/-- 0x3001:09 `ch.force.integ` (Table of chapter 3): Integrator -/
def chForceInteg : Obj :=
  { idx := 0x3001, sub := 0x09, cnt := 96, stride := 0x10, ty := .i32, acc := .ro, role := .observer, dflt := .num 0 }

/-- 0x3001:0A `ch.force.sat` (Table of chapter 3): Saturation of the last iteration: 0 none, 1 high, 2 low -/
def chForceSat : Obj :=
  { idx := 0x3001, sub := 0x0A, cnt := 96, stride := 0x10, ty := .enum8, acc := .ro, role := .observer, dflt := .num 0 }

/-- 0x3001:0B `ch.force.flags` (Table of chapter 3): Sticky flags, cleared by read: [7] —; [6] CLAMPED; [5] CASC_STALE; [4] DACSAT; [3] MISS_ECC; [2] MISS_INPUT; [1] MISS_NOSAMPLE; [0] MISS -/
def chForceFlags : Obj :=
  { idx := 0x3001, sub := 0x0B, cnt := 96, stride := 0x10, ty := .u8, acc := .rws, role := .operator, dflt := .num 0, lo := 0, hi := 255, rsv := 0x80 }

/-- 0x3001:0C `ch.force.miss_count` (Table of chapter 3): Abandoned iterations since reset; saturates -/
def chForceMissCount : Obj :=
  { idx := 0x3001, sub := 0x0C, cnt := 96, stride := 0x10, ty := .u32, acc := .ro, role := .observer, dflt := .num 0 }

/-- 0x3001:0D `ch.force.miss_run` (Table of chapter 3): Consecutive abandoned iterations; saturates -/
def chForceMissRun : Obj :=
  { idx := 0x3001, sub := 0x0D, cnt := 96, stride := 0x10, ty := .u16, acc := .ro, role := .observer, dflt := .num 0 }

/-- 0x3001:0E `ch.force.miss_limit` (Table of chapter 3): Threshold of R114, 1–65,535. -/
def chForceMissLimit : Obj :=
  { idx := 0x3001, sub := 0x0E, cnt := 96, stride := 0x10, ty := .u16, acc := .rw, role := .owner, pers := .stored, dflt := .num 64, lo := 1, hi := 65535 }

/-- 0x3001:0F `ch.force.iter` (Table of chapter 3): Completed iterations since the last enable -/
def chForceIter : Obj :=
  { idx := 0x3001, sub := 0x0F, cnt := 96, stride := 0x10, ty := .u64, acc := .ro, role := .observer, dflt := .num 0 }

/-- 0x3001:10 `ch.force.loop_state` (Table of chapter 3): Table 3.5: 0 Disabled, 1 Sensing, 2 Forcing, 3 Draining, 4 Opening, 5 Measuring -/
def chForceLoopState : Obj :=
  { idx := 0x3001, sub := 0x10, cnt := 96, stride := 0x10, ty := .enum8, acc := .ro, role := .observer, dflt := .num 0 }

/-- 0x3004:01 `ch.coef.active` (Table of chapter 3): Set in use, 0–7, chosen by region selection -/
def chCoefActive : Obj :=
  { idx := 0x3004, sub := 0x01, cnt := 96, stride := 0x10, ty := .u8, acc := .ro, role := .observer, dflt := .num 0 }

/-- 0x3004:02 `ch.coef.switches` (Table of chapter 3): Changes of the set in use since reset; saturates -/
def chCoefSwitches : Obj :=
  { idx := 0x3004, sub := 0x02, cnt := 96, stride := 0x10, ty := .u32, acc := .ro, role := .observer, dflt := .num 0 }

/-- 0x3004:10 `ch.coef.kp` (Table of chapter 3): kp of set 0. -/
def chCoefKp : Obj :=
  { idx := 0x3004, sub := 0x10, cnt := 96, stride := 0x10, gcnt := 8, gstride := 0x10, ty := .q32, acc := .rw, role := .calibrator, pers := .stored, dflt := .q 0 0 }

/-- 0x3004:11 `ch.coef.ki` (Table of chapter 3): ki of set 0. -/
def chCoefKi : Obj :=
  { idx := 0x3004, sub := 0x11, cnt := 96, stride := 0x10, gcnt := 8, gstride := 0x10, ty := .q32, acc := .rw, role := .calibrator, pers := .stored, dflt := .q 0 0 }

/-- 0x3004:12 `ch.coef.kd` (Table of chapter 3): kd of set 0. -/
def chCoefKd : Obj :=
  { idx := 0x3004, sub := 0x12, cnt := 96, stride := 0x10, gcnt := 8, gstride := 0x10, ty := .q32, acc := .rw, role := .calibrator, pers := .stored, dflt := .q 0 0 }

/-- 0x3004:13 `ch.coef.alpha` (Table of chapter 3): alpha of set 0. -/
def chCoefAlpha : Obj :=
  { idx := 0x3004, sub := 0x13, cnt := 96, stride := 0x10, gcnt := 8, gstride := 0x10, ty := .q32, acc := .rw, role := .calibrator, pers := .stored, dflt := .q 0 0 }

/-- 0x3004:14 `ch.coef.b` (Table of chapter 3): b of set 0 (1.0). -/
def chCoefB : Obj :=
  { idx := 0x3004, sub := 0x14, cnt := 96, stride := 0x10, gcnt := 8, gstride := 0x10, ty := .q32, acc := .rw, role := .calibrator, pers := .stored, dflt := .q 0x40000000 30 }

/-- 0x3004:15 `ch.coef.c` (Table of chapter 3): c of set 0. -/
def chCoefC : Obj :=
  { idx := 0x3004, sub := 0x15, cnt := 96, stride := 0x10, gcnt := 8, gstride := 0x10, ty := .q32, acc := .rw, role := .calibrator, pers := .stored, dflt := .q 0 0 }

/-- 0x3004:16 `ch.coef.kff` (Table of chapter 3): kff of set 0 (1.0). -/
def chCoefKff : Obj :=
  { idx := 0x3004, sub := 0x16, cnt := 96, stride := 0x10, gcnt := 8, gstride := 0x10, ty := .q32, acc := .rw, role := .calibrator, pers := .stored, dflt := .q 0x40000000 30 }

/-- 0x3004:17 `ch.coef.ffc` (Table of chapter 3): ffc of set 0, loop units. -/
def chCoefFfc : Obj :=
  { idx := 0x3004, sub := 0x17, cnt := 96, stride := 0x10, gcnt := 8, gstride := 0x10, ty := .i32, acc := .rw, role := .calibrator, pers := .stored, dflt := .num 0, lo := (-2147483648), hi := 2147483647 }

/-- 0x3007:01 `ch.casc.role` (Table of chapter 3): 0 none, 1 outer, 2 inner (R122). -/
def chCascRole : Obj :=
  { idx := 0x3007, sub := 0x01, cnt := 96, stride := 0x10, ty := .enum8, acc := .rw, role := .operator, pers := .stored, dflt := .num 0, lo := 0, hi := 2 }

/-- 0x3007:02 `ch.casc.partner` (Table of chapter 3): Partner channel, 0–95. -/
def chCascPartner : Obj :=
  { idx := 0x3007, sub := 0x02, cnt := 96, stride := 0x10, ty := .u8, acc := .rw, role := .operator, pers := .stored, dflt := .num 0, lo := 0, hi := 95 }

/-- 0x3007:03 `ch.casc.m` (Table of chapter 3): M, 1–256; used on the inner. -/
def chCascM : Obj :=
  { idx := 0x3007, sub := 0x03, cnt := 96, stride := 0x10, ty := .u16, acc := .rw, role := .operator, pers := .stored, dflt := .num 1, lo := 1, hi := 256 }

/-- 0x3007:04 `ch.casc.qty` (Table of chapter 3): Outer measured quantity: 0 voltage, 1 current; used on the outer. -/
def chCascQty : Obj :=
  { idx := 0x3007, sub := 0x04, cnt := 96, stride := 0x10, ty := .enum8, acc := .rw, role := .operator, pers := .stored, dflt := .num 0, lo := 0, hi := 1 }

/-- 0x3007:05 `ch.casc.gain` (Table of chapter 3): Inner target per outer loop unit (R125); used on the inner. -/
def chCascGain : Obj :=
  { idx := 0x3007, sub := 0x05, cnt := 96, stride := 0x10, ty := .q32, acc := .rw, role := .calibrator, pers := .stored, dflt := .q 0 0 }

/-- 0x3007:06 `ch.casc.offset` (Table of chapter 3): Added to the mapped target; used on the inner. -/
def chCascOffset : Obj :=
  { idx := 0x3007, sub := 0x06, cnt := 96, stride := 0x10, ty := .i64, acc := .rw, role := .calibrator, pers := .stored, dflt := .num 0, lo := (-9223372036854775808), hi := 9223372036854775807 }

/-- 0x3007:07 `ch.casc.u_lo` (Table of chapter 3): Outer output lower bound; used on the outer. Must be below u_hi. -/
def chCascULo : Obj :=
  { idx := 0x3007, sub := 0x07, cnt := 96, stride := 0x10, ty := .i32, acc := .rw, role := .calibrator, pers := .stored, dflt := .num (-268435456), lo := (-2147483648), hi := 2147483647 }

/-- 0x3007:08 `ch.casc.u_hi` (Table of chapter 3): Outer output upper bound; used on the outer. -/
def chCascUHi : Obj :=
  { idx := 0x3007, sub := 0x08, cnt := 96, stride := 0x10, ty := .i32, acc := .rw, role := .calibrator, pers := .stored, dflt := .num 268435456, lo := (-2147483648), hi := 2147483647 }

/-- 0x3007:09 `ch.casc.engage` (Table of chapter 3): Engages (R123) or disengages (R126) the pair; written on the inner. Reads 0 after any disengagement -/
def chCascEngage : Obj :=
  { idx := 0x3007, sub := 0x09, cnt := 96, stride := 0x10, ty := .bool, acc := .rw, role := .operator, dflt := .num 0, lo := 0, hi := 1 }

/-- 0x3007:0A `ch.casc.latency` (Table of chapter 3): 0 or 1 (R123) for the pair as configured -/
def chCascLatency : Obj :=
  { idx := 0x3007, sub := 0x0A, cnt := 96, stride := 0x10, ty := .u8, acc := .ro, role := .observer, dflt := .num 0 }

/-- 0x3007:0B `ch.casc.ticks` (Table of chapter 3): Ticks since the last engagement -/
def chCascTicks : Obj :=
  { idx := 0x3007, sub := 0x0B, cnt := 96, stride := 0x10, ty := .u64, acc := .ro, role := .observer, dflt := .num 0 }

/-- 0x3007:0C `ch.casc.stale` (Table of chapter 3): Stale ticks since the last engagement -/
def chCascStale : Obj :=
  { idx := 0x3007, sub := 0x0C, cnt := 96, stride := 0x10, ty := .u32, acc := .ro, role := .observer, dflt := .num 0 }

/-- 0x3008:01 `ch.ss.v_slew` (Table of chapter 3): Voltage slew, 0–10^12; 0 disables ramps (R119). -/
def chSsVSlew : Obj :=
  { idx := 0x3008, sub := 0x01, cnt := 96, stride := 0x10, ty := .volt, acc := .rw, role := .operator, pers := .stored, dflt := .num 1000000000, lo := 0, hi := 1000000000000 }

/-- 0x3008:02 `ch.ss.i_slew` (Table of chapter 3): Current slew, 0–10^16; 0 disables ramps. -/
def chSsISlew : Obj :=
  { idx := 0x3008, sub := 0x02, cnt := 96, stride := 0x10, ty := .amp, acc := .rw, role := .operator, pers := .stored, dflt := .num 1000000000000, lo := 0, hi := 10000000000000000 }

/-- 0x3008:03 `ch.ss.v_step` (Table of chapter 3): Voltage step threshold, 0 or more. -/
def chSsVStep : Obj :=
  { idx := 0x3008, sub := 0x03, cnt := 96, stride := 0x10, ty := .volt, acc := .rw, role := .operator, pers := .stored, dflt := .num 100000000, lo := 0, hi := 9223372036854775807 }

/-- 0x3008:04 `ch.ss.i_step` (Table of chapter 3): Current step threshold, 0 or more. -/
def chSsIStep : Obj :=
  { idx := 0x3008, sub := 0x04, cnt := 96, stride := 0x10, ty := .amp, acc := .rw, role := .operator, pers := .stored, dflt := .num 100000000000, lo := 0, hi := 9223372036854775807 }

/-- 0x3008:05 `ch.ss.active` (Table of chapter 3): A ramp is in progress -/
def chSsActive : Obj :=
  { idx := 0x3008, sub := 0x05, cnt := 96, stride := 0x10, ty := .bool, acc := .ro, role := .observer, dflt := .num 0 }

/-- 0x3008:06 `ch.ss.ramps` (Table of chapter 3): Ramps started since reset; saturates -/
def chSsRamps : Obj :=
  { idx := 0x3008, sub := 0x06, cnt := 96, stride := 0x10, ty := .u32, acc := .ro, role := .observer, dflt := .num 0 }

/-- 0x3008:07 `ch.ss.step_iter` (Table of chapter 3): Step per iteration in force (R120) -/
def chSsStepIter : Obj :=
  { idx := 0x3008, sub := 0x07, cnt := 96, stride := 0x10, ty := .i64, acc := .ro, role := .observer, dflt := .num 0 }

/-- 0x3005:01 `ch.region.enable` (Table of chapter 4): Bit k makes region k eligible (R129). -/
def chRegionEnable : Obj :=
  { idx := 0x3005, sub := 0x01, cnt := 96, stride := 0x10, ty := .u8, acc := .rw, role := .calibrator, pers := .stored, dflt := .num 0, lo := 0, hi := 255 }

/-- 0x3005:02 `ch.region.fallback` (Table of chapter 4): Set used when no region matches, 0–7. -/
def chRegionFallback : Obj :=
  { idx := 0x3005, sub := 0x02, cnt := 96, stride := 0x10, ty := .u8, acc := .rw, role := .calibrator, pers := .stored, dflt := .num 0, lo := 0, hi := 7 }

/-- 0x3005:03 `ch.region.dwell` (Table of chapter 4): Dwell of R132, 0–65,535. -/
def chRegionDwell : Obj :=
  { idx := 0x3005, sub := 0x03, cnt := 96, stride := 0x10, ty := .u16, acc := .rw, role := .calibrator, pers := .stored, dflt := .num 16, lo := 0, hi := 65535 }

/-- 0x3005:04 `ch.region.active` (Table of chapter 4): Region in use, 0–7; 8 fallback -/
def chRegionActive : Obj :=
  { idx := 0x3005, sub := 0x04, cnt := 96, stride := 0x10, ty := .u8, acc := .ro, role := .observer, dflt := .num 8 }

/-- 0x3005:05 `ch.region.flags` (Table of chapter 4): Sticky, cleared by read: [7:3] —; [2] DWELL_HELD; [1] COMPLY; [0] SWITCH (R135) -/
def chRegionFlags : Obj :=
  { idx := 0x3005, sub := 0x05, cnt := 96, stride := 0x10, ty := .u8, acc := .rws, role := .operator, dflt := .num 0, lo := 0, hi := 255, rsv := 0xF8 }

/-- 0x3005:10 `ch.region.set` (Table of chapter 4): Set of region 0, 0–7; region k defaults to set k. -/
def chRegionSet : Obj :=
  { idx := 0x3005, sub := 0x10, cnt := 96, stride := 0x10, gcnt := 8, gstride := 0x10, ty := .u8, acc := .rw, role := .calibrator, pers := .stored, dflt := .num 0, lo := 0, hi := 7 }

/-- 0x3005:11 `ch.region.mode_mask` (Table of chapter 4): [1] current force; [0] voltage force; [7:2] reserved. -/
def chRegionModeMask : Obj :=
  { idx := 0x3005, sub := 0x11, cnt := 96, stride := 0x10, gcnt := 8, gstride := 0x10, ty := .u8, acc := .rw, role := .calibrator, pers := .stored, dflt := .num 3, lo := 0, hi := 255, rsv := 0xFC }

/-- 0x3005:12 `ch.region.comp_mask` (Table of chapter 4): [2] at negative limit; [1] at positive limit; [0] regulating forced quantity; [7:3] reserved. -/
def chRegionCompMask : Obj :=
  { idx := 0x3005, sub := 0x12, cnt := 96, stride := 0x10, gcnt := 8, gstride := 0x10, ty := .u8, acc := .rw, role := .calibrator, pers := .stored, dflt := .num 7, lo := 0, hi := 255, rsv := 0xF8 }

/-- 0x3005:13 `ch.region.rng_mask` (Table of chapter 4): Bit k: regulated range index k; [15:12] reserved. -/
def chRegionRngMask : Obj :=
  { idx := 0x3005, sub := 0x13, cnt := 96, stride := 0x10, gcnt := 8, gstride := 0x10, ty := .u16, acc := .rw, role := .calibrator, pers := .stored, dflt := .num 4095, lo := 0, hi := 65535, rsv := 0xF000 }

/-- 0x3005:14 `ch.region.e_lo` (Table of chapter 4): Error band low bound, loop units. -/
def chRegionELo : Obj :=
  { idx := 0x3005, sub := 0x14, cnt := 96, stride := 0x10, gcnt := 8, gstride := 0x10, ty := .u32, acc := .rw, role := .calibrator, pers := .stored, dflt := .num 0, lo := 0, hi := 4294967295 }

/-- 0x3005:15 `ch.region.e_hi` (Table of chapter 4): Error band high bound, not below e_lo. -/
def chRegionEHi : Obj :=
  { idx := 0x3005, sub := 0x15, cnt := 96, stride := 0x10, gcnt := 8, gstride := 0x10, ty := .u32, acc := .rw, role := .calibrator, pers := .stored, dflt := .num 4294967295, lo := 0, hi := 4294967295 }

/-- 0x3005:16 `ch.region.e_hyst` (Table of chapter 4): Error band hysteresis. -/
def chRegionEHyst : Obj :=
  { idx := 0x3005, sub := 0x16, cnt := 96, stride := 0x10, gcnt := 8, gstride := 0x10, ty := .u32, acc := .rw, role := .calibrator, pers := .stored, dflt := .num 0, lo := 0, hi := 4294967295 }

/-- 0x3005:17 `ch.region.sp_lo` (Table of chapter 4): Set-point band low bound. -/
def chRegionSpLo : Obj :=
  { idx := 0x3005, sub := 0x17, cnt := 96, stride := 0x10, gcnt := 8, gstride := 0x10, ty := .i64, acc := .rw, role := .calibrator, pers := .stored, dflt := .num (-9223372036854775808), lo := (-9223372036854775808), hi := 9223372036854775807 }

/-- 0x3005:18 `ch.region.sp_hi` (Table of chapter 4): Set-point band high bound, not below sp_lo. -/
def chRegionSpHi : Obj :=
  { idx := 0x3005, sub := 0x18, cnt := 96, stride := 0x10, gcnt := 8, gstride := 0x10, ty := .i64, acc := .rw, role := .calibrator, pers := .stored, dflt := .num 9223372036854775807, lo := (-9223372036854775808), hi := 9223372036854775807 }

/-- 0x3005:19 `ch.region.sp_hyst` (Table of chapter 4): Set-point band hysteresis, 0 or more. -/
def chRegionSpHyst : Obj :=
  { idx := 0x3005, sub := 0x19, cnt := 96, stride := 0x10, gcnt := 8, gstride := 0x10, ty := .i64, acc := .rw, role := .calibrator, pers := .stored, dflt := .num 0, lo := 0, hi := 9223372036854775807 }

/-- 0x3006:01 `ch.rep.mode` (Table of chapter 4): 0 off, 1 learn, 2 frozen (R139, R141). -/
def chRepMode : Obj :=
  { idx := 0x3006, sub := 0x01, cnt := 96, stride := 0x10, ty := .enum8, acc := .rw, role := .operator, pers := .stored, dflt := .num 0, lo := 0, hi := 2 }

/-- 0x3006:02 `ch.rep.cmd` (Table of chapter 4): 1 clear the table (R144) -/
def chRepCmd : Obj :=
  { idx := 0x3006, sub := 0x02, cnt := 96, stride := 0x10, ty := .enum8, acc := .wo, role := .operator, dflt := .num 0, lo := 1, hi := 1 }

/-- 0x3006:03 `ch.rep.bins` (Table of chapter 4): N: 0 is 256, 1 is 512, 2 is 1,024, 3 is 2,048 (R144). -/
def chRepBins : Obj :=
  { idx := 0x3006, sub := 0x03, cnt := 96, stride := 0x10, ty := .enum8, acc := .rw, role := .calibrator, pers := .stored, dflt := .num 1, lo := 0, hi := 3 }

/-- 0x3006:04 `ch.rep.kl` (Table of chapter 4): Learning gain kl. -/
def chRepKl : Obj :=
  { idx := 0x3006, sub := 0x04, cnt := 96, stride := 0x10, ty := .q32, acc := .rw, role := .calibrator, pers := .stored, dflt := .q 0 0 }

/-- 0x3006:05 `ch.rep.lambda` (Table of chapter 4): Forgetting factor, 0 < lam ≤ 1. -/
def chRepLambda : Obj :=
  { idx := 0x3006, sub := 0x05, cnt := 96, stride := 0x10, ty := .q32, acc := .rw, role := .calibrator, pers := .stored, dflt := .q 0x40000000 30 }

/-- 0x3006:06 `ch.rep.q0` (Table of chapter 4): Q-filter centre tap. -/
def chRepQ0 : Obj :=
  { idx := 0x3006, sub := 0x06, cnt := 96, stride := 0x10, ty := .q32, acc := .rw, role := .calibrator, pers := .stored, dflt := .q 0x40000000 30 }

/-- 0x3006:07 `ch.rep.q1` (Table of chapter 4): Q-filter side tap. -/
def chRepQ1 : Obj :=
  { idx := 0x3006, sub := 0x07, cnt := 96, stride := 0x10, ty := .q32, acc := .rw, role := .calibrator, pers := .stored, dflt := .q 0 0 }

/-- 0x3006:08 `ch.rep.lead` (Table of chapter 4): Read lead (R137). -/
def chRepLead : Obj :=
  { idx := 0x3006, sub := 0x08, cnt := 96, stride := 0x10, ty := .phase, acc := .rw, role := .calibrator, pers := .stored, dflt := .num 0, lo := 0, hi := 65535 }

/-- 0x3006:09 `ch.rep.limit` (Table of chapter 4): Bin magnitude limit, 0–2,147,483,647, loop units. -/
def chRepLimit : Obj :=
  { idx := 0x3006, sub := 0x09, cnt := 96, stride := 0x10, ty := .i32, acc := .rw, role := .calibrator, pers := .stored, dflt := .num 26843546, lo := 0, hi := 2147483647 }

/-- 0x3006:0A `ch.rep.state` (Table of chapter 4): Table 4.3 -/
def chRepState : Obj :=
  { idx := 0x3006, sub := 0x0A, cnt := 96, stride := 0x10, ty := .enum8, acc := .ro, role := .observer, dflt := .num 0 }

/-- 0x3006:0B `ch.rep.range` (Table of chapter 4): [7] quantity, 0 voltage, 1 current; [6:0] bin range index; 0xFF undefined -/
def chRepRange : Obj :=
  { idx := 0x3006, sub := 0x0B, cnt := 96, stride := 0x10, ty := .u8, acc := .ro, role := .observer, dflt := .num 255 }

/-- 0x3006:0C `ch.rep.term` (Table of chapter 4): rep of the last completed iteration -/
def chRepTerm : Obj :=
  { idx := 0x3006, sub := 0x0C, cnt := 96, stride := 0x10, ty := .i32, acc := .ro, role := .observer, dflt := .num 0 }

/-- 0x3006:0D `ch.rep.cycles` (Table of chapter 4): Updates of bin 0 since the last clear -/
def chRepCycles : Obj :=
  { idx := 0x3006, sub := 0x0D, cnt := 96, stride := 0x10, ty := .u64, acc := .ro, role := .observer, dflt := .num 0 }

/-- 0x3006:0E `ch.rep.flags` (Table of chapter 4): Sticky, cleared by read: [7:4] —; [3] ECC; [2] SKIP; [1] STALL; [0] COAST -/
def chRepFlags : Obj :=
  { idx := 0x3006, sub := 0x0E, cnt := 96, stride := 0x10, ty := .u8, acc := .rws, role := .operator, dflt := .num 0, lo := 0, hi := 255, rsv := 0xF0 }

/-- 0x3006:0F `ch.rep.skips` (Table of chapter 4): Bins skipped by R138; saturates -/
def chRepSkips : Obj :=
  { idx := 0x3006, sub := 0x0F, cnt := 96, stride := 0x10, ty := .u32, acc := .ro, role := .observer, dflt := .num 0 }

/-- 0x3006:10 `ch.rep.data` (Table of chapter 4): N little-endian I32 bins, exactly 4 × N bytes (R144) -/
def chRepData : Obj :=
  { idx := 0x3006, sub := 0x10, cnt := 96, stride := 0x10, ty := .domain, acc := .rw, role := .calibrator, dflt := .bytes [] }

/-- 0x3009:01 `ch.trace.probe` (Table of chapter 4): Probe (slot of this channel): [15] enable; [14:11] —; [10:8] slot watched; [7:5] —; [4:0] tap, 0–23 -/
def chTraceProbe : Obj :=
  { idx := 0x3009, sub := 0x01, cnt := 96, stride := 0x10, ty := .u16, acc := .rw, role := .operator, dflt := .num 0, lo := 0, hi := 65535, rsv := 0x78E0 }

/-- 0x3009:02 `ch.trace.div` (Table of chapter 4): Lane-wide. Trace frame interval, 1–65,535 (R146) -/
def chTraceDiv : Obj :=
  { idx := 0x3009, sub := 0x02, cnt := 96, stride := 0x10, ty := .u16, acc := .rw, role := .operator, dflt := .num 1, lo := 1, hi := 65535 }

/-- 0x3009:03 `ch.trace.pre` (Table of chapter 4): Lane-wide. Pre-trigger rows, 0–4,095 -/
def chTracePre : Obj :=
  { idx := 0x3009, sub := 0x03, cnt := 96, stride := 0x10, ty := .u16, acc := .rw, role := .operator, dflt := .num 2048, lo := 0, hi := 4095 }

/-- 0x3009:04 `ch.trace.trig_src` (Table of chapter 4): Lane-wide. Table 4.7 -/
def chTraceTrigSrc : Obj :=
  { idx := 0x3009, sub := 0x04, cnt := 96, stride := 0x10, ty := .enum8, acc := .rw, role := .operator, dflt := .num 0, lo := 0, hi := 3 }

/-- 0x3009:05 `ch.trace.trig_probe` (Table of chapter 4): Lane-wide. Probe for source 2, slot for source 3; 0–7 -/
def chTraceTrigProbe : Obj :=
  { idx := 0x3009, sub := 0x05, cnt := 96, stride := 0x10, ty := .u8, acc := .rw, role := .operator, dflt := .num 0, lo := 0, hi := 7 }

/-- 0x3009:06 `ch.trace.trig_level` (Table of chapter 4): Lane-wide. Compare level -/
def chTraceTrigLevel : Obj :=
  { idx := 0x3009, sub := 0x06, cnt := 96, stride := 0x10, ty := .i32, acc := .rw, role := .operator, dflt := .num 0, lo := (-2147483648), hi := 2147483647 }

/-- 0x3009:07 `ch.trace.trig_slope` (Table of chapter 4): Lane-wide. 0 rising, 1 falling, 2 either -/
def chTraceTrigSlope : Obj :=
  { idx := 0x3009, sub := 0x07, cnt := 96, stride := 0x10, ty := .enum8, acc := .rw, role := .operator, dflt := .num 0, lo := 0, hi := 2 }

/-- 0x3009:08 `ch.trace.trig_flags` (Table of chapter 4): Lane-wide. [7:5] —; [4] MISS; [3] SWITCH; [2] COMPLY; [1] CLAMPED; [0] repetitive STALL -/
def chTraceTrigFlags : Obj :=
  { idx := 0x3009, sub := 0x08, cnt := 96, stride := 0x10, ty := .u8, acc := .rw, role := .operator, dflt := .num 0, lo := 0, hi := 255, rsv := 0xE0 }

/-- 0x3009:09 `ch.trace.cmd` (Table of chapter 4): Lane-wide. 1 ARM, 2 FORCE, 3 STOP (R148) -/
def chTraceCmd : Obj :=
  { idx := 0x3009, sub := 0x09, cnt := 96, stride := 0x10, ty := .enum8, acc := .wo, role := .operator, dflt := .num 0, lo := 1, hi := 3 }

/-- 0x3009:0A `ch.trace.state` (Table of chapter 4): Lane-wide. 0 IDLE, 1 ARMED, 2 READY, 3 POST, 4 DONE -/
def chTraceState : Obj :=
  { idx := 0x3009, sub := 0x0A, cnt := 96, stride := 0x10, ty := .enum8, acc := .ro, role := .observer, dflt := .num 0 }

/-- 0x3009:0B `ch.trace.trig_time` (Table of chapter 4): Lane-wide. Time of the trigger row (R147) -/
def chTraceTrigTime : Obj :=
  { idx := 0x3009, sub := 0x0B, cnt := 96, stride := 0x10, ty := .time64, acc := .ro, role := .observer, dflt := .num (-9223372036854775808) }

/-- 0x3009:0C `ch.trace.pre_valid` (Table of chapter 4): Lane-wide. Pre-trigger rows held -/
def chTracePreValid : Obj :=
  { idx := 0x3009, sub := 0x0C, cnt := 96, stride := 0x10, ty := .u16, acc := .ro, role := .observer, dflt := .num 0 }

/-- 0x3009:0D `ch.trace.data` (Table of chapter 4): Lane-wide. Captured rows (R149) -/
def chTraceData : Obj :=
  { idx := 0x3009, sub := 0x0D, cnt := 96, stride := 0x10, ty := .domain, acc := .ro, role := .operator, dflt := .bytes [] }

/-- 0x3002:01 `ch.limit.v_pos` (Table of chapter 5): Positive voltage limit: output bound in voltage force, compliance in current force (R173, R174). -/
def chLimitVPos : Obj :=
  { idx := 0x3002, sub := 0x01, cnt := 96, stride := 0x10, ty := .volt, acc := .rw, role := .operator, pers := .stored, dflt := .num 1000000000, lo := (-9223372036854775808), hi := 9223372036854775807 }

/-- 0x3002:02 `ch.limit.v_neg` (Table of chapter 5): Negative voltage limit, below v_pos (R176). -/
def chLimitVNeg : Obj :=
  { idx := 0x3002, sub := 0x02, cnt := 96, stride := 0x10, ty := .volt, acc := .rw, role := .operator, pers := .stored, dflt := .num (-1000000000), lo := (-9223372036854775808), hi := 9223372036854775807 }

/-- 0x3002:03 `ch.limit.i_pos` (Table of chapter 5): Positive current limit: compliance in voltage force, output bound in current force. -/
def chLimitIPos : Obj :=
  { idx := 0x3002, sub := 0x03, cnt := 96, stride := 0x10, ty := .amp, acc := .rw, role := .operator, pers := .stored, dflt := .num 100000000000, lo := (-9223372036854775808), hi := 9223372036854775807 }

/-- 0x3002:04 `ch.limit.i_neg` (Table of chapter 5): Negative current limit, below i_pos. -/
def chLimitINeg : Obj :=
  { idx := 0x3002, sub := 0x04, cnt := 96, stride := 0x10, ty := .amp, acc := .rw, role := .operator, pers := .stored, dflt := .num (-100000000000), lo := (-9223372036854775808), hi := 9223372036854775807 }

/-- 0x3002:05 `ch.limit.abs_count` (Table of chapter 5): Consecutive frames beyond an absolute limit before a trip, 1–8 (R177). -/
def chLimitAbsCount : Obj :=
  { idx := 0x3002, sub := 0x05, cnt := 96, stride := 0x10, ty := .u8, acc := .rw, role := .owner, pers := .stored, dflt := .num 2, lo := 1, hi := 8 }

/-- 0x3002:06 `ch.limit.comp_state` (Table of chapter 5): 0 regulating the forced quantity, 1 at positive limit, 2 at negative limit (Table 5.4) -/
def chLimitCompState : Obj :=
  { idx := 0x3002, sub := 0x06, cnt := 96, stride := 0x10, ty := .enum8, acc := .ro, role := .observer, dflt := .num 0 }

/-- 0x3002:07 `ch.limit.comp_entries` (Table of chapter 5): Entries into state 1 or 2 since reset; saturates -/
def chLimitCompEntries : Obj :=
  { idx := 0x3002, sub := 0x07, cnt := 96, stride := 0x10, ty := .u32, acc := .ro, role := .observer, dflt := .num 0 }

/-- 0x3002:08 `ch.limit.abs_trips` (Table of chapter 5): Absolute-limit trips since reset; saturates -/
def chLimitAbsTrips : Obj :=
  { idx := 0x3002, sub := 0x08, cnt := 96, stride := 0x10, ty := .u32, acc := .ro, role := .observer, dflt := .num 0 }

/-- 0x3002:09 `ch.limit.flags` (Table of chapter 5): Sticky, cleared by read: [7:4] —; [3] ABS_TRIP; [2] LIMIT_SAT; [1] COMP_NEG; [0] COMP_POS -/
def chLimitFlags : Obj :=
  { idx := 0x3002, sub := 0x09, cnt := 96, stride := 0x10, ty := .u8, acc := .rws, role := .operator, dflt := .num 0, lo := 0, hi := 255, rsv := 0xF0 }

/-- 0x3003:01 `ch.rng.i_floor` (Table of chapter 5): Current range floor, 0–11, not above i_ceil (R153). -/
def chRngIFloor : Obj :=
  { idx := 0x3003, sub := 0x01, cnt := 96, stride := 0x10, ty := .u8, acc := .rw, role := .operator, pers := .stored, dflt := .num 0, lo := 0, hi := 11 }

/-- 0x3003:02 `ch.rng.i_ceil` (Table of chapter 5): Current range ceiling, 0–11. -/
def chRngICeil : Obj :=
  { idx := 0x3003, sub := 0x02, cnt := 96, stride := 0x10, ty := .u8, acc := .rw, role := .operator, pers := .stored, dflt := .num 11, lo := 0, hi := 11 }

/-- 0x3003:03 `ch.rng.i_pin` (Table of chapter 5): Pinned current range, 0–11; 0xFF not pinned. -/
def chRngIPin : Obj :=
  { idx := 0x3003, sub := 0x03, cnt := 96, stride := 0x10, ty := .u8, acc := .rw, role := .operator, pers := .stored, dflt := .num 255, lo := 0, hi := 11, alts := [255] }

/-- 0x3003:04 `ch.rng.v_floor` (Table of chapter 5): Voltage range floor, 0–5, not above v_ceil. -/
def chRngVFloor : Obj :=
  { idx := 0x3003, sub := 0x04, cnt := 96, stride := 0x10, ty := .u8, acc := .rw, role := .operator, pers := .stored, dflt := .num 0, lo := 0, hi := 5 }

/-- 0x3003:05 `ch.rng.v_ceil` (Table of chapter 5): Voltage range ceiling, 0–5. -/
def chRngVCeil : Obj :=
  { idx := 0x3003, sub := 0x05, cnt := 96, stride := 0x10, ty := .u8, acc := .rw, role := .operator, pers := .stored, dflt := .num 5, lo := 0, hi := 5 }

/-- 0x3003:06 `ch.rng.v_pin` (Table of chapter 5): Pinned voltage range, 0–5; 0xFF not pinned. -/
def chRngVPin : Obj :=
  { idx := 0x3003, sub := 0x06, cnt := 96, stride := 0x10, ty := .u8, acc := .rw, role := .operator, pers := .stored, dflt := .num 255, lo := 0, hi := 5, alts := [255] }

/-- 0x3003:07 `ch.rng.up_pct` (Table of chapter 5): Up threshold, 1001–1100 (R161). -/
def chRngUpPct : Obj :=
  { idx := 0x3003, sub := 0x07, cnt := 96, stride := 0x10, ty := .u16, acc := .rw, role := .calibrator, pers := .stored, dflt := .num 1050, lo := 1001, hi := 1100 }

/-- 0x3003:08 `ch.rng.down_pct` (Table of chapter 5): Down threshold, 10–500. -/
def chRngDownPct : Obj :=
  { idx := 0x3003, sub := 0x08, cnt := 96, stride := 0x10, ty := .u16, acc := .rw, role := .calibrator, pers := .stored, dflt := .num 90, lo := 10, hi := 500 }

/-- 0x3003:09 `ch.rng.down_dwell` (Table of chapter 5): Down-range dwell, 1–65,535 (R162). -/
def chRngDownDwell : Obj :=
  { idx := 0x3003, sub := 0x09, cnt := 96, stride := 0x10, ty := .u16, acc := .rw, role := .calibrator, pers := .stored, dflt := .num 64, lo := 1, hi := 65535 }

/-- 0x3003:0A `ch.rng.down_guard` (Table of chapter 5): Neighbour level that permits a down-range, 100–1000, below up_pct. -/
def chRngDownGuard : Obj :=
  { idx := 0x3003, sub := 0x0A, cnt := 96, stride := 0x10, ty := .u16, acc := .rw, role := .calibrator, pers := .stored, dflt := .num 900, lo := 100, hi := 1000 }

/-- 0x3003:0B `ch.rng.arm_time` (Table of chapter 5): Arm time, 1–65,535; the descriptor settle time is used when larger (R159). -/
def chRngArmTime : Obj :=
  { idx := 0x3003, sub := 0x0B, cnt := 96, stride := 0x10, ty := .u16, acc := .rw, role := .calibrator, pers := .stored, dflt := .num 16, lo := 1, hi := 65535 }

/-- 0x3003:0C `ch.rng.stitch_pct` (Table of chapter 5): Back-reach level, 900 up to up_pct (R169). -/
def chRngStitchPct : Obj :=
  { idx := 0x3003, sub := 0x0C, cnt := 96, stride := 0x10, ty := .u16, acc := .rw, role := .calibrator, pers := .stored, dflt := .num 1000, lo := 900, hi := 1100 }

/-- 0x3003:0D `ch.rng.stitch_tol` (Table of chapter 5): Plausibility tolerance, 0–100,000; 0 uses the descriptor checker threshold (R167). -/
def chRngStitchTol : Obj :=
  { idx := 0x3003, sub := 0x0D, cnt := 96, stride := 0x10, ty := .u32, acc := .rw, role := .calibrator, pers := .stored, dflt := .num 0, lo := 0, hi := 100000 }

/-- 0x3003:0E `ch.rng.gap_policy` (Table of chapter 5): 0 restart, 1 report with gap (Table 5.3). -/
def chRngGapPolicy : Obj :=
  { idx := 0x3003, sub := 0x0E, cnt := 96, stride := 0x10, ty := .enum8, acc := .rw, role := .operator, pers := .stored, dflt := .num 0, lo := 0, hi := 1 }

/-- 0x3003:0F `ch.rng.restart_max` (Table of chapter 5): Restarts per aperture before the gap policy applies, 0–255. -/
def chRngRestartMax : Obj :=
  { idx := 0x3003, sub := 0x0F, cnt := 96, stride := 0x10, ty := .u8, acc := .rw, role := .operator, pers := .stored, dflt := .num 4, lo := 0, hi := 255 }

/-- 0x3003:10 `ch.rng.pred_hi` (Table of chapter 5): Predictor up level, above pred_lo, at most 1000 (Table 5.1). -/
def chRngPredHi : Obj :=
  { idx := 0x3003, sub := 0x10, cnt := 96, stride := 0x10, ty := .u16, acc := .rw, role := .calibrator, pers := .stored, dflt := .num 500, lo := 1, hi := 1000 }

/-- 0x3003:11 `ch.rng.pred_lo` (Table of chapter 5): Predictor down level, 1–999. -/
def chRngPredLo : Obj :=
  { idx := 0x3003, sub := 0x11, cnt := 96, stride := 0x10, ty := .u16, acc := .rw, role := .calibrator, pers := .stored, dflt := .num 200, lo := 1, hi := 999 }

/-- 0x3003:12 `ch.rng.pred_band` (Table of chapter 5): Trend band, 0–100. -/
def chRngPredBand : Obj :=
  { idx := 0x3003, sub := 0x12, cnt := 96, stride := 0x10, ty := .u16, acc := .rw, role := .calibrator, pers := .stored, dflt := .num 5, lo := 0, hi := 100 }

/-- 0x3003:13 `ch.rng.pred_hold` (Table of chapter 5): Least interval between neighbour changes, 1–65,535 (R158). -/
def chRngPredHold : Obj :=
  { idx := 0x3003, sub := 0x13, cnt := 96, stride := 0x10, ty := .u16, acc := .rw, role := .calibrator, pers := .stored, dflt := .num 32, lo := 1, hi := 65535 }

/-- 0x3003:14 `ch.rng.i_active` (Table of chapter 5): Active current range -/
def chRngIActive : Obj :=
  { idx := 0x3003, sub := 0x14, cnt := 96, stride := 0x10, ty := .u8, acc := .ro, role := .observer, dflt := .num 0 }

/-- 0x3003:15 `ch.rng.v_active` (Table of chapter 5): Active voltage range -/
def chRngVActive : Obj :=
  { idx := 0x3003, sub := 0x15, cnt := 96, stride := 0x10, ty := .u8, acc := .ro, role := .observer, dflt := .num 0 }

/-- 0x3003:16 `ch.rng.nbr` (Table of chapter 5): [7] armed; [6] direction, 1 up; [5] settled; [4] —; [3:0] neighbour range -/
def chRngNbr : Obj :=
  { idx := 0x3003, sub := 0x16, cnt := 96, stride := 0x10, ty := .u8, acc := .ro, role := .observer, dflt := .num 0 }

/-- 0x3003:17 `ch.rng.arm_count` (Table of chapter 5): Arm count (R159) -/
def chRngArmCount : Obj :=
  { idx := 0x3003, sub := 0x17, cnt := 96, stride := 0x10, ty := .u16, acc := .ro, role := .observer, dflt := .num 0 }

/-- 0x3003:18 `ch.rng.changes` (Table of chapter 5): Current range changes since reset; saturates -/
def chRngChanges : Obj :=
  { idx := 0x3003, sub := 0x18, cnt := 96, stride := 0x10, ty := .u32, acc := .ro, role := .observer, dflt := .num 0 }

/-- 0x3003:19 `ch.rng.stitched` (Table of chapter 5): Stitched transitions since reset; saturates -/
def chRngStitched : Obj :=
  { idx := 0x3003, sub := 0x19, cnt := 96, stride := 0x10, ty := .u32, acc := .ro, role := .observer, dflt := .num 0 }

/-- 0x3003:1A `ch.rng.unstitched` (Table of chapter 5): Unstitched transitions since reset; saturates -/
def chRngUnstitched : Obj :=
  { idx := 0x3003, sub := 0x1A, cnt := 96, stride := 0x10, ty := .u32, acc := .ro, role := .observer, dflt := .num 0 }

/-- 0x3003:1B `ch.rng.overrides` (Table of chapter 5): Moves outside the allowed set (R179); saturates -/
def chRngOverrides : Obj :=
  { idx := 0x3003, sub := 0x1B, cnt := 96, stride := 0x10, ty := .u32, acc := .ro, role := .observer, dflt := .num 0 }

/-- 0x3003:1C `ch.rng.override` (Table of chapter 5): Active range lies above the allowed set -/
def chRngOverride : Obj :=
  { idx := 0x3003, sub := 0x1C, cnt := 96, stride := 0x10, ty := .bool, acc := .ro, role := .observer, dflt := .num 0 }

/-- 0x3003:1D `ch.rng.flags` (Table of chapter 5): Sticky, cleared by read: [7:5] —; [4] POLICY_OVERRIDE; [3] IMPLAUSIBLE; [2] UNSTITCHED; [1] STITCHED; [0] FAST_UP -/
def chRngFlags : Obj :=
  { idx := 0x3003, sub := 0x1D, cnt := 96, stride := 0x10, ty := .u8, acc := .rws, role := .operator, dflt := .num 0, lo := 0, hi := 255, rsv := 0xE0 }

/-- 0x300A:01 `ch.ap.mode` (Table of chapter 6): 0 frames, 1 cycles, 2 steps (Table 6.2). -/
def chApMode : Obj :=
  { idx := 0x300A, sub := 0x01, cnt := 96, stride := 0x10, ty := .enum8, acc := .rw, role := .operator, pers := .stored, dflt := .num 0, lo := 0, hi := 2 }

/-- 0x300A:02 `ch.ap.len_frames` (Table of chapter 6): Mode 0 length; 0 means 2^32. -/
def chApLenFrames : Obj :=
  { idx := 0x300A, sub := 0x02, cnt := 96, stride := 0x10, ty := .u32, acc := .rw, role := .operator, pers := .stored, dflt := .num 2000, lo := 0, hi := 4294967295 }

/-- 0x300A:03 `ch.ap.len_cyc` (Table of chapter 6): Mode 1 length, 1–100,000. -/
def chApLenCyc : Obj :=
  { idx := 0x300A, sub := 0x03, cnt := 96, stride := 0x10, ty := .u32, acc := .rw, role := .operator, pers := .stored, dflt := .num 100, lo := 1, hi := 100000 }

/-- 0x300A:04 `ch.ap.phase` (Table of chapter 6): Mode 1 start phase (R187). -/
def chApPhase : Obj :=
  { idx := 0x300A, sub := 0x04, cnt := 96, stride := 0x10, ty := .phase, acc := .rw, role := .operator, pers := .stored, dflt := .num 0, lo := 0, hi := 65535 }

/-- 0x300A:05 `ch.ap.settle` (Table of chapter 6): Settle before the first frame or edge. -/
def chApSettle : Obj :=
  { idx := 0x300A, sub := 0x05, cnt := 96, stride := 0x10, ty := .u32, acc := .rw, role := .operator, pers := .stored, dflt := .num 0, lo := 0, hi := 4294967295 }

/-- 0x300A:06 `ch.ap.start` (Table of chapter 6): 0 START command, 1 aperture-start event (*Event routing*). -/
def chApStart : Obj :=
  { idx := 0x300A, sub := 0x06, cnt := 96, stride := 0x10, ty := .enum8, acc := .rw, role := .operator, pers := .stored, dflt := .num 0, lo := 0, hi := 1 }

/-- 0x300A:07 `ch.ap.count` (Table of chapter 6): Apertures per start; 0 continuous (R188). -/
def chApCount : Obj :=
  { idx := 0x300A, sub := 0x07, cnt := 96, stride := 0x10, ty := .u32, acc := .rw, role := .operator, pers := .stored, dflt := .num 1, lo := 0, hi := 4294967295 }

/-- 0x300A:08 `ch.ap.qty` (Table of chapter 6): Primary quantity, 0–2 (R193). -/
def chApQty : Obj :=
  { idx := 0x300A, sub := 0x08, cnt := 96, stride := 0x10, ty := .enum8, acc := .rw, role := .operator, pers := .stored, dflt := .num 0, lo := 0, hi := 2 }

/-- 0x300A:09 `ch.ap.dest` (Table of chapter 6): [7:2] —; [1] notify; [0] journal (R43). -/
def chApDest : Obj :=
  { idx := 0x300A, sub := 0x09, cnt := 96, stride := 0x10, ty := .u8, acc := .rw, role := .operator, pers := .stored, dflt := .num 1, lo := 0, hi := 255, rsv := 0xFC }

/-- 0x300A:0A `ch.ap.cmd` (Table of chapter 6): 1 START, 2 STOP (R190) -/
def chApCmd : Obj :=
  { idx := 0x300A, sub := 0x0A, cnt := 96, stride := 0x10, ty := .enum8, acc := .wo, role := .operator, dflt := .num 0, lo := 1, hi := 2 }

/-- 0x300A:0B `ch.ap.state` (Table of chapter 6): 0 IDLE, 1 WAIT, 2 OPEN, 3 CONFIRM -/
def chApState : Obj :=
  { idx := 0x300A, sub := 0x0B, cnt := 96, stride := 0x10, ty := .enum8, acc := .ro, role := .observer, dflt := .num 0 }

/-- 0x300A:0C `ch.ap.bound` (Table of chapter 6): Point bound to the channel; 0xFFFF none -/
def chApBound : Obj :=
  { idx := 0x300A, sub := 0x0C, cnt := 96, stride := 0x10, ty := .u16, acc := .ro, role := .observer, dflt := .num 65535 }

/-- 0x300A:0D `ch.ap.open_time` (Table of chapter 6): tfirst of the open aperture -/
def chApOpenTime : Obj :=
  { idx := 0x300A, sub := 0x0D, cnt := 96, stride := 0x10, ty := .time64, acc := .ro, role := .observer, dflt := .num (-9223372036854775808) }

/-- 0x300A:0E `ch.ap.closed` (Table of chapter 6): Apertures reaching DECIDE since reset -/
def chApClosed : Obj :=
  { idx := 0x300A, sub := 0x0E, cnt := 96, stride := 0x10, ty := .u64, acc := .ro, role := .observer, dflt := .num 0 }

/-- 0x300A:0F `ch.ap.coalesced` (Table of chapter 6): Apertures coalesced (R200); saturates -/
def chApCoalesced : Obj :=
  { idx := 0x300A, sub := 0x0F, cnt := 96, stride := 0x10, ty := .u32, acc := .ro, role := .observer, dflt := .num 0 }

/-- 0x300A:10 `ch.ap.pending` (Table of chapter 6): [1] W held; [0] C occupied -/
def chApPending : Obj :=
  { idx := 0x300A, sub := 0x10, cnt := 96, stride := 0x10, ty := .u8, acc := .ro, role := .observer, dflt := .num 0 }

/-- 0x300A:11 `ch.ap.short` (Table of chapter 6): Steps too short for an aperture (R188); saturates -/
def chApShort : Obj :=
  { idx := 0x300A, sub := 0x11, cnt := 96, stride := 0x10, ty := .u32, acc := .ro, role := .observer, dflt := .num 0 }

/-- 0x300A:12 `ch.ap.lost` (Table of chapter 6): Values not added (R202) and apertures lost (R192) -/
def chApLost : Obj :=
  { idx := 0x300A, sub := 0x12, cnt := 96, stride := 0x10, ty := .u64, acc := .ro, role := .observer, dflt := .num 0 }

/-- 0x300A:13 `ch.ap.sq_shift` (Table of chapter 6): k of R184 -/
def chApSqShift : Obj :=
  { idx := 0x300A, sub := 0x13, cnt := 96, stride := 0x10, ty := .u8, acc := .ro, role := .observer, dflt := .num 0 }

/-- 0x300B:01 `ch.chk.enable` (Table of chapter 6): Enables comparison (R196). -/
def chChkEnable : Obj :=
  { idx := 0x300B, sub := 0x01, cnt := 96, stride := 0x10, ty := .bool, acc := .rw, role := .owner, pers := .stored, dflt := .num 1, lo := 0, hi := 1 }

/-- 0x300B:02 `ch.chk.thresh` (Table of chapter 6): Threshold, 0–100,000; 0 uses the descriptor. -/
def chChkThresh : Obj :=
  { idx := 0x300B, sub := 0x02, cnt := 96, stride := 0x10, ty := .u32, acc := .rw, role := .owner, pers := .stored, dflt := .num 0, lo := 0, hi := 100000 }

/-- 0x300B:03 `ch.chk.persist` (Table of chapter 6): Consecutive comparisons to change state, 1–16 (R197). -/
def chChkPersist : Obj :=
  { idx := 0x300B, sub := 0x03, cnt := 96, stride := 0x10, ty := .u8, acc := .rw, role := .owner, pers := .stored, dflt := .num 2, lo := 1, hi := 16 }

/-- 0x300B:04 `ch.chk.state` (Table of chapter 6): [7:2] —; [1] current FAILED; [0] voltage FAILED -/
def chChkState : Obj :=
  { idx := 0x300B, sub := 0x04, cnt := 96, stride := 0x10, ty := .u8, acc := .ro, role := .observer, dflt := .num 0 }

/-- 0x300B:05 `ch.chk.compares` (Table of chapter 6): Comparisons made since reset -/
def chChkCompares : Obj :=
  { idx := 0x300B, sub := 0x05, cnt := 96, stride := 0x10, ty := .u64, acc := .ro, role := .observer, dflt := .num 0 }

/-- 0x300B:06 `ch.chk.fails` (Table of chapter 6): Failing comparisons since reset; saturates -/
def chChkFails : Obj :=
  { idx := 0x300B, sub := 0x06, cnt := 96, stride := 0x10, ty := .u32, acc := .ro, role := .observer, dflt := .num 0 }

/-- 0x300B:07 `ch.chk.noncomp` (Table of chapter 6): Comparisons not made (R196); saturates -/
def chChkNoncomp : Obj :=
  { idx := 0x300B, sub := 0x07, cnt := 96, stride := 0x10, ty := .u32, acc := .ro, role := .observer, dflt := .num 0 }

/-- 0x300B:08 `ch.chk.last_dev` (Table of chapter 6): dev of the last comparison, saturated -/
def chChkLastDev : Obj :=
  { idx := 0x300B, sub := 0x08, cnt := 96, stride := 0x10, ty := .i32, acc := .ro, role := .observer, dflt := .num 0 }

/-- 0x300B:09 `ch.chk.flags` (Table of chapter 6): Sticky, cleared by read: [7:2] —; [1] current FAILED entered; [0] voltage FAILED entered -/
def chChkFlags : Obj :=
  { idx := 0x300B, sub := 0x09, cnt := 96, stride := 0x10, ty := .u8, acc := .rws, role := .operator, dflt := .num 0, lo := 0, hi := 255, rsv := 0xFC }

/-- 0x6000:01 `res.pool.size` (Table of chapter 6): Pool slots -/
def resPoolSize : Obj :=
  { idx := 0x6000, sub := 0x01, ty := .u32, acc := .const, role := .observer, dflt := .num 16384 }

/-- 0x6000:02 `res.pool.used` (Table of chapter 6): Occupied slots -/
def resPoolUsed : Obj :=
  { idx := 0x6000, sub := 0x02, ty := .u32, acc := .ro, role := .observer, dflt := .num 0 }

/-- 0x6000:03 `res.pool.hiwater` (Table of chapter 6): Greatest occupancy since last read; the read sets it to the present occupancy -/
def resPoolHiwater : Obj :=
  { idx := 0x6000, sub := 0x03, ty := .u32, acc := .rws, role := .observer, dflt := .num 0, lo := 0, hi := 4294967295 }

/-- 0x6000:04 `res.pool.written` (Table of chapter 6): Records written since reset -/
def resPoolWritten : Obj :=
  { idx := 0x6000, sub := 0x04, ty := .u64, acc := .ro, role := .observer, dflt := .num 0 }

/-- 0x6000:05 `res.pool.full_frames` (Table of chapter 6): Frames in which an occupied C found no free slot -/
def resPoolFullFrames : Obj :=
  { idx := 0x6000, sub := 0x05, ty := .u64, acc := .ro, role := .observer, dflt := .num 0 }

/-- 0x6000:06 `res.pool.coalesced` (Table of chapter 6): Coalescing events since reset (R200) -/
def resPoolCoalesced : Obj :=
  { idx := 0x6000, sub := 0x06, ty := .u64, acc := .ro, role := .observer, dflt := .num 0 }

/-- 0x6010:00 `res.last` (Table of chapter 6): Last record of channel 0, 64 bytes (R203); channel n at 0x6010 + n, up to 0x606F -/
def resLast : Obj :=
  { idx := 0x6010, sub := 0x00, cnt := 96, stride := 0x1, ty := .domain, acc := .ro, role := .observer, dflt := .bytes [] }

/-- 0x6080:01 `res.stream.enable` (Table of chapter 6): Enables the stream; a write of 1 clears its counters (R205). -/
def resStreamEnable : Obj :=
  { idx := 0x6080, sub := 0x01, cnt := 16, stride := 0x1, ty := .bool, acc := .rw, role := .operator, pers := .stored, dflt := .num 0, lo := 0, hi := 1 }

/-- 0x6080:02 `res.stream.ch_lo` (Table of chapter 6): Bit c: channel c, 0–63. -/
def resStreamChLo : Obj :=
  { idx := 0x6080, sub := 0x02, cnt := 16, stride := 0x1, ty := .u64, acc := .rw, role := .operator, pers := .stored, dflt := .num 0, lo := 0, hi := 18446744073709551615 }

/-- 0x6080:03 `res.stream.ch_hi` (Table of chapter 6): Bit c: channel 64 + c. -/
def resStreamChHi : Obj :=
  { idx := 0x6080, sub := 0x03, cnt := 16, stride := 0x1, ty := .u32, acc := .rw, role := .operator, pers := .stored, dflt := .num 0, lo := 0, hi := 4294967295 }

/-- 0x6080:04 `res.stream.point` (Table of chapter 6): 0–4095; 0xFFFE channel apertures only; 0xFFFF any. -/
def resStreamPoint : Obj :=
  { idx := 0x6080, sub := 0x04, cnt := 16, stride := 0x1, ty := .u16, acc := .rw, role := .operator, pers := .stored, dflt := .num 65535, lo := 0, hi := 4095, alts := [65534, 65535] }

/-- 0x6080:05 `res.stream.decim` (Table of chapter 6): Decimation N, 1–65,535. -/
def resStreamDecim : Obj :=
  { idx := 0x6080, sub := 0x05, cnt := 16, stride := 0x1, ty := .u16, acc := .rw, role := .operator, pers := .stored, dflt := .num 1, lo := 1, hi := 65535 }

/-- 0x6080:06 `res.stream.outcome` (Table of chapter 6): [7:3] —; [2] ENDED; [1] RELEASED; [0] COMMITTED. -/
def resStreamOutcome : Obj :=
  { idx := 0x6080, sub := 0x06, cnt := 16, stride := 0x1, ty := .u8, acc := .rw, role := .operator, pers := .stored, dflt := .num 7, lo := 0, hi := 255, rsv := 0xF8 }

/-- 0x6080:07 `res.stream.taken` (Table of chapter 6): Records taken since enable -/
def resStreamTaken : Obj :=
  { idx := 0x6080, sub := 0x07, cnt := 16, stride := 0x1, ty := .u64, acc := .ro, role := .observer, dflt := .num 0 }

/-- 0x6080:08 `res.stream.dropped` (Table of chapter 6): Deliveries discarded by full queues since enable -/
def resStreamDropped : Obj :=
  { idx := 0x6080, sub := 0x08, cnt := 16, stride := 0x1, ty := .u64, acc := .ro, role := .observer, dflt := .num 0 }

/-- 0x6080:09 `res.stream.subscribers` (Table of chapter 6): Sessions subscribed, 0–16 -/
def resStreamSubscribers : Obj :=
  { idx := 0x6080, sub := 0x09, cnt := 16, stride := 0x1, ty := .u8, acc := .ro, role := .observer, dflt := .num 0 }

/-- 0x5200:01 `seq.state` (Table of chapter 7): 0 IDLE, 1 ARMED, 2 RUN, 3 DONE, 4 FAULT (Table 7.5) -/
def seqState : Obj :=
  { idx := 0x5200, sub := 0x01, cnt := 96, stride := 0x1, ty := .enum8, acc := .ro, role := .observer, dflt := .num 0 }

/-- 0x5200:02 `seq.cmd` (Table of chapter 7): 1 ARM, 2 START, 3 STOP (R227) -/
def seqCmd : Obj :=
  { idx := 0x5200, sub := 0x02, cnt := 96, stride := 0x1, ty := .enum8, acc := .wo, role := .operator, dflt := .num 0, lo := 1, hi := 3 }

/-- 0x5200:03 `seq.first` (Table of chapter 7): First segment, 0–16383. -/
def seqFirst : Obj :=
  { idx := 0x5200, sub := 0x03, cnt := 96, stride := 0x1, ty := .u16, acc := .rw, role := .operator, pers := .stored, dflt := .num 0, lo := 0, hi := 16383 }

/-- 0x5200:04 `seq.start_src` (Table of chapter 7): 0 START command, 1 sequencer line, 2 CTB phase. -/
def seqStartSrc : Obj :=
  { idx := 0x5200, sub := 0x04, cnt := 96, stride := 0x1, ty := .enum8, acc := .rw, role := .operator, pers := .stored, dflt := .num 0, lo := 0, hi := 2 }

/-- 0x5200:05 `seq.start_line` (Table of chapter 7): Start line SL0–SL15, 0–15. -/
def seqStartLine : Obj :=
  { idx := 0x5200, sub := 0x05, cnt := 96, stride := 0x1, ty := .u8, acc := .rw, role := .operator, pers := .stored, dflt := .num 0, lo := 0, hi := 15 }

/-- 0x5200:06 `seq.start_phase` (Table of chapter 7): Start phase for source 2. -/
def seqStartPhase : Obj :=
  { idx := 0x5200, sub := 0x06, cnt := 96, stride := 0x1, ty := .phase, acc := .rw, role := .operator, pers := .stored, dflt := .num 0, lo := 0, hi := 65535 }

/-- 0x5200:07 `seq.exp` (Table of chapter 7): Sequencer unit 10^exp nV or fA, 0–9. -/
def seqExp : Obj :=
  { idx := 0x5200, sub := 0x07, cnt := 96, stride := 0x1, ty := .u8, acc := .rw, role := .operator, pers := .stored, dflt := .num 0, lo := 0, hi := 9 }

/-- 0x5200:08 `seq.init` (Table of chapter 7): Output register at ARM (R211). -/
def seqInit : Obj :=
  { idx := 0x5200, sub := 0x08, cnt := 96, stride := 0x1, ty := .i64, acc := .rw, role := .operator, pers := .stored, dflt := .num 0, lo := (-9223372036854775808), hi := 9223372036854775807 }

/-- 0x5200:09 `seq.trig_a` (Table of chapter 7): Producer of line A, ST0–ST15 as 0–15; 0xFF none (R224). -/
def seqTrigA : Obj :=
  { idx := 0x5200, sub := 0x09, cnt := 96, stride := 0x1, ty := .u8, acc := .rw, role := .operator, pers := .stored, dflt := .num 255, lo := 0, hi := 15, alts := [255] }

/-- 0x5200:0A `seq.trig_b` (Table of chapter 7): Producer of line B, as `seq.trig_a`. -/
def seqTrigB : Obj :=
  { idx := 0x5200, sub := 0x0A, cnt := 96, stride := 0x1, ty := .u8, acc := .rw, role := .operator, pers := .stored, dflt := .num 255, lo := 0, hi := 15, alts := [255] }

/-- 0x5200:0B `seq.seg` (Table of chapter 7): Segment supplying the last value prepared -/
def seqSeg : Obj :=
  { idx := 0x5200, sub := 0x0B, cnt := 96, stride := 0x1, ty := .u16, acc := .ro, role := .observer, dflt := .num 0 }

/-- 0x5200:0C `seq.time` (Table of chapter 7): Sequencer time of the last value prepared -/
def seqTime : Obj :=
  { idx := 0x5200, sub := 0x0C, cnt := 96, stride := 0x1, ty := .u64, acc := .ro, role := .observer, dflt := .num 0 }

/-- 0x5200:0D `seq.value` (Table of chapter 7): Output register -/
def seqValue : Obj :=
  { idx := 0x5200, sub := 0x0D, cnt := 96, stride := 0x1, ty := .i64, acc := .ro, role := .observer, dflt := .num 0 }

/-- 0x5200:0E `seq.start_time` (Table of chapter 7): Start of controller frame S0 of the last start -/
def seqStartTime : Obj :=
  { idx := 0x5200, sub := 0x0E, cnt := 96, stride := 0x1, ty := .time64, acc := .ro, role := .observer, dflt := .num (-9223372036854775808) }

/-- 0x5200:0F `seq.depth` (Table of chapter 7): Loop stack entries, 0–4 -/
def seqDepth : Obj :=
  { idx := 0x5200, sub := 0x0F, cnt := 96, stride := 0x1, ty := .u8, acc := .ro, role := .observer, dflt := .num 0 }

/-- 0x5200:10 `seq.stack` (Table of chapter 7): 16 bytes: per entry, bottom first, U16 segment and U16 passes left; unused entries 0 -/
def seqStack : Obj :=
  { idx := 0x5200, sub := 0x10, cnt := 96, stride := 0x1, ty := .domain, acc := .ro, role := .observer, dflt := .bytes [] }

/-- 0x5200:11 `seq.fault` (Table of chapter 7): 0 none, 1 EMPTY, 2 NEST, 3 RANGE, 4 ECC (R228) -/
def seqFault : Obj :=
  { idx := 0x5200, sub := 0x11, cnt := 96, stride := 0x1, ty := .enum8, acc := .ro, role := .observer, dflt := .num 0 }

/-- 0x5200:12 `seq.flags` (Table of chapter 7): Sticky, cleared by read: [7:4] —; [3] START_OVR; [2] GUARD; [1] LANE_OFF; [0] FAULT -/
def seqFlags : Obj :=
  { idx := 0x5200, sub := 0x12, cnt := 96, stride := 0x1, ty := .u8, acc := .rws, role := .operator, dflt := .num 0, lo := 0, hi := 255, rsv := 0xF0 }

/-- 0x5200:13 `seq.entries` (Table of chapter 7): Segment entries since the last ARM -/
def seqEntries : Obj :=
  { idx := 0x5200, sub := 0x13, cnt := 96, stride := 0x1, ty := .u64, acc := .ro, role := .observer, dflt := .num 0 }

/-- 0x5200:14 `seq.guards_taken` (Table of chapter 7): Guards taken since the last ARM; saturates -/
def seqGuardsTaken : Obj :=
  { idx := 0x5200, sub := 0x14, cnt := 96, stride := 0x1, ty := .u32, acc := .ro, role := .observer, dflt := .num 0 }

/-- 0x5200:15 `seq.guard_nodata` (Table of chapter 7): Compares without a present value (R221); saturates -/
def seqGuardNodata : Obj :=
  { idx := 0x5200, sub := 0x15, cnt := 96, stride := 0x1, ty := .u32, acc := .ro, role := .observer, dflt := .num 0 }

/-- 0x5200:20 `seq.guard.kind` (Table of chapter 7): Guard 1 kind, 0–4. -/
def seqGuardKind : Obj :=
  { idx := 0x5200, sub := 0x20, cnt := 96, stride := 0x1, gcnt := 7, gstride := 0x10, ty := .enum8, acc := .rw, role := .operator, pers := .stored, dflt := .num 0, lo := 0, hi := 4 }

/-- 0x5200:21 `seq.guard.check` (Table of chapter 7): Guard 1 check point, 0–2. -/
def seqGuardCheck : Obj :=
  { idx := 0x5200, sub := 0x21, cnt := 96, stride := 0x1, gcnt := 7, gstride := 0x10, ty := .enum8, acc := .rw, role := .operator, pers := .stored, dflt := .num 0, lo := 0, hi := 2 }

/-- 0x5200:22 `seq.guard.at` (Table of chapter 7): Guard 1 sample boundary, 0–1,048,575. -/
def seqGuardAt : Obj :=
  { idx := 0x5200, sub := 0x22, cnt := 96, stride := 0x1, gcnt := 7, gstride := 0x10, ty := .u32, acc := .rw, role := .operator, pers := .stored, dflt := .num 0, lo := 0, hi := 1048575 }

/-- 0x5200:23 `seq.guard.line` (Table of chapter 7): Guard 1 line SL0–SL15, 0–15. -/
def seqGuardLine : Obj :=
  { idx := 0x5200, sub := 0x23, cnt := 96, stride := 0x1, gcnt := 7, gstride := 0x10, ty := .u8, acc := .rw, role := .operator, pers := .stored, dflt := .num 0, lo := 0, hi := 15 }

/-- 0x5200:24 `seq.guard.level` (Table of chapter 7): Guard 1 compare level. -/
def seqGuardLevel : Obj :=
  { idx := 0x5200, sub := 0x24, cnt := 96, stride := 0x1, gcnt := 7, gstride := 0x10, ty := .i64, acc := .rw, role := .operator, pers := .stored, dflt := .num 0, lo := (-9223372036854775808), hi := 9223372036854775807 }

/-- 0x5200:25 `seq.guard.avg` (Table of chapter 7): Guard 1 a, 0–8. -/
def seqGuardAvg : Obj :=
  { idx := 0x5200, sub := 0x25, cnt := 96, stride := 0x1, gcnt := 7, gstride := 0x10, ty := .u8, acc := .rw, role := .operator, pers := .stored, dflt := .num 0, lo := 0, hi := 8 }

/-- 0x5200:26 `seq.guard.fallback` (Table of chapter 7): Guard 1 fall-back segment, 0–16383. -/
def seqGuardFallback : Obj :=
  { idx := 0x5200, sub := 0x26, cnt := 96, stride := 0x1, gcnt := 7, gstride := 0x10, ty := .u16, acc := .rw, role := .operator, pers := .stored, dflt := .num 0, lo := 0, hi := 16383 }

/-- 0x5200:27 `seq.guard.emit` (Table of chapter 7): Guard 1 emit, 0–2. -/
def seqGuardEmit : Obj :=
  { idx := 0x5200, sub := 0x27, cnt := 96, stride := 0x1, gcnt := 7, gstride := 0x10, ty := .enum8, acc := .rw, role := .operator, pers := .stored, dflt := .num 0, lo := 0, hi := 2 }

/-- 0x300D:01 `ch.seq.state` (Table of chapter 7): `seq.state` of the channel's sequencer -/
def chSeqState : Obj :=
  { idx := 0x300D, sub := 0x01, cnt := 96, stride := 0x10, ty := .enum8, acc := .ro, role := .observer, dflt := .num 0 }

/-- 0x300D:02 `ch.seq.seg` (Table of chapter 7): `seq.seg` of the channel's sequencer -/
def chSeqSeg : Obj :=
  { idx := 0x300D, sub := 0x02, cnt := 96, stride := 0x10, ty := .u16, acc := .ro, role := .observer, dflt := .num 0 }

/-- 0x300D:03 `ch.seq.value` (Table of chapter 7): Value used by the channel's last completed iteration; the lane's latched value after R229 -/
def chSeqValue : Obj :=
  { idx := 0x300D, sub := 0x03, cnt := 96, stride := 0x10, ty := .i64, acc := .ro, role := .observer, dflt := .num 0 }

/-- 0x300D:04 `ch.seq.steps` (Table of chapter 7): Step starts reported to MAU since the last ARM (R225) -/
def chSeqSteps : Obj :=
  { idx := 0x300D, sub := 0x04, cnt := 96, stride := 0x10, ty := .u64, acc := .ro, role := .observer, dflt := .num 0 }

/-- 0x5000:00 `seg.table` (Table of chapter 7): 262,144 bytes, segments 0–16383 (R212); zero after R46; writes under R213, R231, R232 -/
def segTable : Obj :=
  { idx := 0x5000, sub := 0x00, ty := .domain, acc := .rw, role := .operator, dflt := .bytes [] }

/-- 0x5000:01 `seg.count` (Table of chapter 7): Segments in the table -/
def segCount : Obj :=
  { idx := 0x5000, sub := 0x01, ty := .u32, acc := .const, role := .observer, dflt := .num 16384 }

/-- 0x5100:00 `list.data` (Table of chapter 7): 2,097,152 bytes, entries 0–524,287 as little-endian 32-bit words; zero after R46 -/
def listData : Obj :=
  { idx := 0x5100, sub := 0x00, ty := .domain, acc := .rw, role := .operator, dflt := .bytes [] }

/-- 0x5100:01 `list.count` (Table of chapter 7): Entries in list memory -/
def listCount : Obj :=
  { idx := 0x5100, sub := 0x01, ty := .u32, acc := .const, role := .observer, dflt := .num 524288 }

/-- The rows above, part 0. -/
def objectsLane0 : List Obj :=
  [laneState, laneEnable, laneDiv, laneCmd, laneSliceState, laneBootCount, laneLinkRtt, laneLinkDDown, laneLinkDUp,
   laneLinkAsym, laneLinkPol, laneLinkErrUp, laneLinkErrDown, laneLinkRetrains, laneLinkLastGap, laneHoldTimeout,
   laneHoldEntries, laneHoldReattach, laneHoldLastResult, laneDescRaw, laneDescClass, laneDescSerial,
   laneDescLatency, laneDescSlots, laneDescCrc, laneDescNIrng, laneDescNVrng, laneClampMargin, laneMsgResends,
   chForceMode, chForceVLevel, chForceILevel, chForceSrc, chForceTarget, chForceSetpoint, chForceU, chForceDac,
   chForceInteg, chForceSat, chForceFlags]

/-- The rows above, part 1. -/
def objectsLane1 : List Obj :=
  [chForceMissCount, chForceMissRun, chForceMissLimit, chForceIter, chForceLoopState, chCoefActive, chCoefSwitches,
   chCoefKp, chCoefKi, chCoefKd, chCoefAlpha, chCoefB, chCoefC, chCoefKff, chCoefFfc, chCascRole, chCascPartner,
   chCascM, chCascQty, chCascGain, chCascOffset, chCascULo, chCascUHi, chCascEngage, chCascLatency, chCascTicks,
   chCascStale, chSsVSlew, chSsISlew, chSsVStep, chSsIStep, chSsActive, chSsRamps, chSsStepIter, chRegionEnable,
   chRegionFallback, chRegionDwell, chRegionActive, chRegionFlags, chRegionSet]

/-- The rows above, part 2. -/
def objectsLane2 : List Obj :=
  [chRegionModeMask, chRegionCompMask, chRegionRngMask, chRegionELo, chRegionEHi, chRegionEHyst, chRegionSpLo,
   chRegionSpHi, chRegionSpHyst, chRepMode, chRepCmd, chRepBins, chRepKl, chRepLambda, chRepQ0, chRepQ1, chRepLead,
   chRepLimit, chRepState, chRepRange, chRepTerm, chRepCycles, chRepFlags, chRepSkips, chRepData, chTraceProbe,
   chTraceDiv, chTracePre, chTraceTrigSrc, chTraceTrigProbe, chTraceTrigLevel, chTraceTrigSlope, chTraceTrigFlags,
   chTraceCmd, chTraceState, chTraceTrigTime, chTracePreValid, chTraceData, chLimitVPos, chLimitVNeg]

/-- The rows above, part 3. -/
def objectsLane3 : List Obj :=
  [chLimitIPos, chLimitINeg, chLimitAbsCount, chLimitCompState, chLimitCompEntries, chLimitAbsTrips, chLimitFlags,
   chRngIFloor, chRngICeil, chRngIPin, chRngVFloor, chRngVCeil, chRngVPin, chRngUpPct, chRngDownPct,
   chRngDownDwell, chRngDownGuard, chRngArmTime, chRngStitchPct, chRngStitchTol, chRngGapPolicy, chRngRestartMax,
   chRngPredHi, chRngPredLo, chRngPredBand, chRngPredHold, chRngIActive, chRngVActive, chRngNbr, chRngArmCount,
   chRngChanges, chRngStitched, chRngUnstitched, chRngOverrides, chRngOverride, chRngFlags, chApMode,
   chApLenFrames, chApLenCyc, chApPhase]

/-- The rows above, part 4. -/
def objectsLane4 : List Obj :=
  [chApSettle, chApStart, chApCount, chApQty, chApDest, chApCmd, chApState, chApBound, chApOpenTime, chApClosed,
   chApCoalesced, chApPending, chApShort, chApLost, chApSqShift, chChkEnable, chChkThresh, chChkPersist,
   chChkState, chChkCompares, chChkFails, chChkNoncomp, chChkLastDev, chChkFlags, resPoolSize, resPoolUsed,
   resPoolHiwater, resPoolWritten, resPoolFullFrames, resPoolCoalesced, resLast, resStreamEnable, resStreamChLo,
   resStreamChHi, resStreamPoint, resStreamDecim, resStreamOutcome, resStreamTaken, resStreamDropped,
   resStreamSubscribers]

/-- The rows above, part 5. -/
def objectsLane5 : List Obj :=
  [seqState, seqCmd, seqFirst, seqStartSrc, seqStartLine, seqStartPhase, seqExp, seqInit, seqTrigA, seqTrigB,
   seqSeg, seqTime, seqValue, seqStartTime, seqDepth, seqStack, seqFault, seqFlags, seqEntries, seqGuardsTaken,
   seqGuardNodata, seqGuardKind, seqGuardCheck, seqGuardAt, seqGuardLine, seqGuardLevel, seqGuardAvg,
   seqGuardFallback, seqGuardEmit, chSeqState, chSeqSeg, chSeqValue, chSeqSteps, segTable, segCount, listData,
   listCount]

/-- Every row of this file. -/
def objectsLane : List Obj := objectsLane0 ++ objectsLane1 ++ objectsLane2 ++ objectsLane3 ++ objectsLane4 ++ objectsLane5

end Sys2Proof.Machine.O
end

