-- ==== Sys2Proof/Machine/ObjectsStation.lean ====
section
/-! DEFINITION. The dictionary objects of points, scans, relay bus, time, events and supervisory analog (chapters 8-13): one row of the
specification's object tables per definition, with its type, access, role, persistence, default and permitted values. -/
namespace Sys2Proof.Machine.O

/-- 0x4000:00 `pt.record` (Table of chapter 8): Bytes 0–191 as one object, exactly 192 bytes -/
def ptRecord : Obj :=
  { idx := 0x4000, sub := 0x00, cnt := 4096, stride := 0x1, ty := .domain, acc := .rw, role := .operator, dflt := .bytes [] }

/-- 0x4000:01 `pt.mode` (Table of chapter 8): Byte 0. Table 8.2 -/
def ptMode : Obj :=
  { idx := 0x4000, sub := 0x01, cnt := 4096, stride := 0x1, ty := .enum8, acc := .rw, role := .operator, dflt := .num 0, lo := 0, hi := 5 }

/-- 0x4000:02 `pt.bind` (Table of chapter 8): Byte 1. [7] 0 fixed, 1 pool; [6:0] channel 0–95, or pool 0–15 -/
def ptBind : Obj :=
  { idx := 0x4000, sub := 0x02, cnt := 4096, stride := 0x1, ty := .u8, acc := .rw, role := .operator, dflt := .num 0, lo := 0, hi := 255 }

/-- 0x4000:03 `pt.chan_b` (Table of chapter 8): Byte 2. Channel B, 0–95; used in mode 5 and with ratio conversion -/
def ptChanB : Obj :=
  { idx := 0x4000, sub := 0x03, cnt := 4096, stride := 0x1, ty := .u8, acc := .rw, role := .operator, dflt := .num 0, lo := 0, hi := 95 }

/-- 0x4000:04 `pt.tin` (Table of chapter 8): Byte 3. Timing input 0–7 for mode 4 -/
def ptTin : Obj :=
  { idx := 0x4000, sub := 0x04, cnt := 4096, stride := 0x1, ty := .u8, acc := .rw, role := .operator, dflt := .num 0, lo := 0, hi := 7 }

/-- 0x4000:05 `pt.seg` (Table of chapter 8): Bytes 4–5. [15] 1 target from the sequencer; [14] —; [13:0] starting segment -/
def ptSeg : Obj :=
  { idx := 0x4000, sub := 0x05, cnt := 4096, stride := 0x1, ty := .u16, acc := .rw, role := .operator, dflt := .num 0, lo := 0, hi := 65535, rsv := 0x4000 }

/-- 0x4000:06 `pt.cal_tag` (Table of chapter 8): Bytes 6–7. Required calibration tag; 0 any (R238) -/
def ptCalTag : Obj :=
  { idx := 0x4000, sub := 0x06, cnt := 4096, stride := 0x1, ty := .u16, acc := .rw, role := .calibrator, dflt := .num 0, lo := 0, hi := 65535 }

/-- 0x4000:07 `pt.level` (Table of chapter 8): Bytes 8–15. Static target; outer target in mode 5 -/
def ptLevel : Obj :=
  { idx := 0x4000, sub := 0x07, cnt := 4096, stride := 0x1, ty := .i64, acc := .rw, role := .operator, dflt := .num 0, lo := (-9223372036854775808), hi := 9223372036854775807 }

/-- 0x4000:08 `pt.path` (Table of chapter 8): Bytes 16–23, path entry 0 (Table 8.3) -/
def ptPath : Obj :=
  { idx := 0x4000, sub := 0x08, cnt := 4096, stride := 0x1, gcnt := 4, gstride := 0x1, ty := .u64, acc := .rw, role := .operator, dflt := .num 0, lo := 0, hi := 18446744073709551615 }

/-- 0x4000:0C `pt.path_settle` (Table of chapter 8): Bytes 48–51. Settle after the last entry is made -/
def ptPathSettle : Obj :=
  { idx := 0x4000, sub := 0x0C, cnt := 4096, stride := 0x1, ty := .u32, acc := .rw, role := .operator, dflt := .num 0, lo := 0, hi := 4294967295 }

/-- 0x4000:0D `pt.settle` (Table of chapter 8): Bytes 52–55. Settle from FORCE to the aperture start -/
def ptSettle : Obj :=
  { idx := 0x4000, sub := 0x0D, cnt := 4096, stride := 0x1, ty := .u32, acc := .rw, role := .operator, dflt := .num 0, lo := 0, hi := 4294967295 }

/-- 0x4000:0E `pt.v_pos` (Table of chapter 8): Bytes 56–63. With `pt.v_neg`: both 0 use the channel's own limits -/
def ptVPos : Obj :=
  { idx := 0x4000, sub := 0x0E, cnt := 4096, stride := 0x1, ty := .volt, acc := .rw, role := .operator, dflt := .num 0, lo := (-9223372036854775808), hi := 9223372036854775807 }

/-- 0x4000:0F `pt.v_neg` (Table of chapter 8): Bytes 64–71 -/
def ptVNeg : Obj :=
  { idx := 0x4000, sub := 0x0F, cnt := 4096, stride := 0x1, ty := .volt, acc := .rw, role := .operator, dflt := .num 0, lo := (-9223372036854775808), hi := 9223372036854775807 }

/-- 0x4000:10 `pt.i_pos` (Table of chapter 8): Bytes 72–79. With `pt.i_neg`: both 0 use the channel's own limits -/
def ptIPos : Obj :=
  { idx := 0x4000, sub := 0x10, cnt := 4096, stride := 0x1, ty := .amp, acc := .rw, role := .operator, dflt := .num 0, lo := (-9223372036854775808), hi := 9223372036854775807 }

/-- 0x4000:11 `pt.i_neg` (Table of chapter 8): Bytes 80–87 -/
def ptINeg : Obj :=
  { idx := 0x4000, sub := 0x11, cnt := 4096, stride := 0x1, ty := .amp, acc := .rw, role := .operator, dflt := .num 0, lo := (-9223372036854775808), hi := 9223372036854775807 }

/-- 0x4000:12 `pt.rng` (Table of chapter 8): Bytes 88–95. Bytes i_floor, i_ceil, i_pin, v_floor, v_ceil, v_pin from [7:0] upward; [63:48] —. Each byte: 0 the channel's own object; k + 1 index k -/
def ptRng : Obj :=
  { idx := 0x4000, sub := 0x12, cnt := 4096, stride := 0x1, ty := .u64, acc := .rw, role := .operator, dflt := .num 0, lo := 0, hi := 18446744073709551615, rsv := 0xFFFF000000000000 }

/-- 0x4000:13 `pt.ap.mode` (Table of chapter 8): Byte 96. As `ch.ap.mode` -/
def ptApMode : Obj :=
  { idx := 0x4000, sub := 0x13, cnt := 4096, stride := 0x1, ty := .enum8, acc := .rw, role := .operator, dflt := .num 0, lo := 0, hi := 2 }

/-- 0x4000:14 `pt.ap.qty` (Table of chapter 8): Byte 97. As `ch.ap.qty` -/
def ptApQty : Obj :=
  { idx := 0x4000, sub := 0x14, cnt := 4096, stride := 0x1, ty := .enum8, acc := .rw, role := .operator, dflt := .num 0, lo := 0, hi := 2 }

/-- 0x4000:15 `pt.ap.start` (Table of chapter 8): Byte 98. 0 at the end of settle; 1 at the aperture-start event after it -/
def ptApStart : Obj :=
  { idx := 0x4000, sub := 0x15, cnt := 4096, stride := 0x1, ty := .enum8, acc := .rw, role := .operator, dflt := .num 0, lo := 0, hi := 1 }

/-- 0x4000:16 `pt.dest` (Table of chapter 8): Byte 99. [7:2] —; [1] notify; [0] journal -/
def ptDest : Obj :=
  { idx := 0x4000, sub := 0x16, cnt := 4096, stride := 0x1, ty := .u8, acc := .rw, role := .operator, dflt := .num 0, lo := 0, hi := 255, rsv := 0xFC }

/-- 0x4000:17 `pt.ap.len` (Table of chapter 8): Bytes 100–103. As `ch.ap.len_frames` or `ch.ap.len_cyc`, by mode -/
def ptApLen : Obj :=
  { idx := 0x4000, sub := 0x17, cnt := 4096, stride := 0x1, ty := .u32, acc := .rw, role := .operator, dflt := .num 0, lo := 0, hi := 4294967295 }

/-- 0x4000:18 `pt.ap.phase` (Table of chapter 8): Bytes 104–105 -/
def ptApPhase : Obj :=
  { idx := 0x4000, sub := 0x18, cnt := 4096, stride := 0x1, ty := .phase, acc := .rw, role := .operator, dflt := .num 0, lo := 0, hi := 65535 }

/-- 0x4000:19 `pt.ap.count` (Table of chapter 8): Bytes 106–107. Apertures per execution; 0 means 1 -/
def ptApCount : Obj :=
  { idx := 0x4000, sub := 0x19, cnt := 4096, stride := 0x1, ty := .u16, acc := .rw, role := .operator, dflt := .num 0, lo := 0, hi := 65535 }

/-- 0x4000:1A `pt.alarm.maj` (Table of chapter 8): Byte 108. [7:4] n, 0–8; [3:0] m. With n of 1–8, m must be 1–n. With n = 0, alarms are disabled and m is not used: any m of 0–15 is accepted and reads back as written -/
def ptAlarmMaj : Obj :=
  { idx := 0x4000, sub := 0x1A, cnt := 4096, stride := 0x1, ty := .u8, acc := .rw, role := .operator, dflt := .num 0, lo := 0, hi := 255 }

/-- 0x4000:1B `pt.poly.src` (Table of chapter 8): Byte 109. Table 8.4 -/
def ptPolySrc : Obj :=
  { idx := 0x4000, sub := 0x1B, cnt := 4096, stride := 0x1, ty := .enum8, acc := .rw, role := .calibrator, dflt := .num 0, lo := 0, hi := 3 }

/-- 0x4000:1C `pt.poly.xs` (Table of chapter 8): Byte 110. Shift xs, 0–62 -/
def ptPolyXs : Obj :=
  { idx := 0x4000, sub := 0x1C, cnt := 4096, stride := 0x1, ty := .u8, acc := .rw, role := .calibrator, dflt := .num 0, lo := 0, hi := 62 }

/-- 0x4000:1D `pt.poly.exp` (Table of chapter 8): Byte 111. Engineering value in units of 10^exp of `pt.unit`, −18 to +18 -/
def ptPolyExp : Obj :=
  { idx := 0x4000, sub := 0x1D, cnt := 4096, stride := 0x1, ty := .i8, acc := .rw, role := .calibrator, dflt := .num 0, lo := (-18), hi := 18 }

/-- 0x4000:1E `pt.poly.c0` (Table of chapter 8): Bytes 112–119 -/
def ptPolyC0 : Obj :=
  { idx := 0x4000, sub := 0x1E, cnt := 4096, stride := 0x1, gcnt := 4, gstride := 0x1, ty := .q32, acc := .rw, role := .calibrator, dflt := .q 0 0 }

/-- 0x4000:22 `pt.alarm.hi` (Table of chapter 8): Bytes 144–151. High alarm limit, judged units -/
def ptAlarmHi : Obj :=
  { idx := 0x4000, sub := 0x22, cnt := 4096, stride := 0x1, ty := .i64, acc := .rw, role := .operator, dflt := .num 0, lo := (-9223372036854775808), hi := 9223372036854775807 }

/-- 0x4000:23 `pt.alarm.lo` (Table of chapter 8): Bytes 152–159. Low alarm limit, below hi -/
def ptAlarmLo : Obj :=
  { idx := 0x4000, sub := 0x23, cnt := 4096, stride := 0x1, ty := .i64, acc := .rw, role := .operator, dflt := .num 0, lo := (-9223372036854775808), hi := 9223372036854775807 }

/-- 0x4000:24 `pt.alarm.hyst` (Table of chapter 8): Bytes 160–167. Hysteresis, 0 or more -/
def ptAlarmHyst : Obj :=
  { idx := 0x4000, sub := 0x24, cnt := 4096, stride := 0x1, ty := .i64, acc := .rw, role := .operator, dflt := .num 0, lo := 0, hi := 9223372036854775807 }

/-- 0x4000:25 `pt.window` (Table of chapter 8): Bytes 168–175. Longest wait for resources; 0 no limit -/
def ptWindow : Obj :=
  { idx := 0x4000, sub := 0x25, cnt := 4096, stride := 0x1, ty := .dur64, acc := .rw, role := .operator, dflt := .num 0, lo := 0, hi := 18446744073709551615 }

/-- 0x4000:26 `pt.unit` (Table of chapter 8): Bytes 176–183. ASCII unit name, NUL-padded, at most 8 bytes -/
def ptUnit : Obj :=
  { idx := 0x4000, sub := 0x26, cnt := 4096, stride := 0x1, ty := .str, acc := .rw, role := .calibrator, dflt := .bytes [], maxLen := 8 }

/-- 0x4000:27 `pt.listen` (Table of chapter 8): Bytes 184–185. Mode 4 listen limit, 1–65,535; a mode-4 request with 0 ends INVALID (R237); unused in other modes -/
def ptListen : Obj :=
  { idx := 0x4000, sub := 0x27, cnt := 4096, stride := 0x1, ty := .u16, acc := .rw, role := .operator, dflt := .num 0, lo := 0, hi := 65535 }

/-- 0x4000:30 `pt.state` (Table of chapter 8): Byte 192. Table 8.5: 0 IDLE, 1 WAIT, 2 CONNECT, 3 FORCE, 4 SETTLE, 5 MEASURE, 6 LISTEN, 7 RELEASE -/
def ptState : Obj :=
  { idx := 0x4000, sub := 0x30, cnt := 4096, stride := 0x1, ty := .enum8, acc := .ro, role := .observer, dflt := .num 0 }

/-- 0x4000:31 `pt.status` (Table of chapter 8): Byte 193. End status of the last execution, Table 8.6 -/
def ptStatus : Obj :=
  { idx := 0x4000, sub := 0x31, cnt := 4096, stride := 0x1, ty := .enum8, acc := .ro, role := .observer, dflt := .num 0 }

/-- 0x4000:32 `pt.alarm.state` (Table of chapter 8): Byte 194. 0 NORMAL, 1 HIGH, 2 LOW -/
def ptAlarmState : Obj :=
  { idx := 0x4000, sub := 0x32, cnt := 4096, stride := 0x1, ty := .enum8, acc := .ro, role := .observer, dflt := .num 0 }

/-- 0x4000:33 `pt.alarm.votes` (Table of chapter 8): Bytes 196–197. Last eight votes, 2 bits each, newest in [1:0]: 0 none, 1 normal, 2 high, 3 low -/
def ptAlarmVotes : Obj :=
  { idx := 0x4000, sub := 0x33, cnt := 4096, stride := 0x1, ty := .u16, acc := .ro, role := .observer, dflt := .num 0 }

/-- 0x4000:34 `pt.used` (Table of chapter 8): Bytes 198–199. [15:8] channel B, [7:0] channel A of the last execution; 0xFF none -/
def ptUsed : Obj :=
  { idx := 0x4000, sub := 0x34, cnt := 4096, stride := 0x1, ty := .u16, acc := .ro, role := .observer, dflt := .num 65535 }

/-- 0x4000:35 `pt.last_start` (Table of chapter 8): Bytes 200–207. Grant time of the last execution -/
def ptLastStart : Obj :=
  { idx := 0x4000, sub := 0x35, cnt := 4096, stride := 0x1, ty := .time64, acc := .ro, role := .observer, dflt := .num (-9223372036854775808) }

/-- 0x4000:36 `pt.eng` (Table of chapter 8): Bytes 208–215. Last judged value -/
def ptEng : Obj :=
  { idx := 0x4000, sub := 0x36, cnt := 4096, stride := 0x1, ty := .i64, acc := .ro, role := .observer, dflt := .num 0 }

/-- 0x4000:37 `pt.runs` (Table of chapter 8): Bytes 216–223. Executions granted -/
def ptRuns : Obj :=
  { idx := 0x4000, sub := 0x37, cnt := 4096, stride := 0x1, ty := .u64, acc := .ro, role := .observer, dflt := .num 0 }

/-- 0x4000:38 `pt.conflicts` (Table of chapter 8): Bytes 224–227. Ties lost; saturates -/
def ptConflicts : Obj :=
  { idx := 0x4000, sub := 0x38, cnt := 4096, stride := 0x1, ty := .u32, acc := .ro, role := .observer, dflt := .num 0 }

/-- 0x4000:39 `pt.skips` (Table of chapter 8): Bytes 228–231. Requests ended BUSY, CONFLICT or SKIPPED; saturates -/
def ptSkips : Obj :=
  { idx := 0x4000, sub := 0x39, cnt := 4096, stride := 0x1, ty := .u32, acc := .ro, role := .observer, dflt := .num 0 }

/-- 0x4000:3A `pt.cmd` (Table of chapter 8): Not in the record. 1 START, 2 STOP, 3 CLEAR_ALARM -/
def ptCmd : Obj :=
  { idx := 0x4000, sub := 0x3A, cnt := 4096, stride := 0x1, ty := .enum8, acc := .wo, role := .operator, dflt := .num 0, lo := 1, hi := 3 }

/-- 0x5800:01 `scan.state` (Table of chapter 8): 0 IDLE, 1 ARMED, 2 RUN, 3 DONE -/
def scanState : Obj :=
  { idx := 0x5800, sub := 0x01, cnt := 256, stride := 0x1, ty := .enum8, acc := .ro, role := .observer, dflt := .num 0 }

/-- 0x5800:02 `scan.cmd` (Table of chapter 8): 1 ARM, 2 START, 3 STOP (R251) -/
def scanCmd : Obj :=
  { idx := 0x5800, sub := 0x02, cnt := 256, stride := 0x1, ty := .enum8, acc := .wo, role := .operator, dflt := .num 0, lo := 1, hi := 3 }

/-- 0x5800:03 `scan.src` (Table of chapter 8): Table 8.8 -/
def scanSrc : Obj :=
  { idx := 0x5800, sub := 0x03, cnt := 256, stride := 0x1, ty := .enum8, acc := .rw, role := .operator, dflt := .num 0, lo := 0, hi := 3 }

/-- 0x5800:04 `scan.list` (Table of chapter 8): First list entry, 0–524,287 -/
def scanList : Obj :=
  { idx := 0x5800, sub := 0x04, cnt := 256, stride := 0x1, ty := .u32, acc := .rw, role := .operator, dflt := .num 0, lo := 0, hi := 524287 }

/-- 0x5800:05 `scan.len` (Table of chapter 8): Entries, 1 to 524,288 − `scan.list` -/
def scanLen : Obj :=
  { idx := 0x5800, sub := 0x05, cnt := 256, stride := 0x1, ty := .u32, acc := .rw, role := .operator, dflt := .num 1, lo := 1, hi := 524288 }

/-- 0x5800:06 `scan.t_start` (Table of chapter 8): Grid origin, source 1 -/
def scanTStart : Obj :=
  { idx := 0x5800, sub := 0x06, cnt := 256, stride := 0x1, ty := .time64, acc := .rw, role := .operator, dflt := .num 0, lo := (-9223372036854775808), hi := 9223372036854775807 }

/-- 0x5800:07 `scan.period` (Table of chapter 8): Grid period; 0 once -/
def scanPeriod : Obj :=
  { idx := 0x5800, sub := 0x07, cnt := 256, stride := 0x1, ty := .dur64, acc := .rw, role := .operator, dflt := .num 0, lo := 0, hi := 18446744073709551615 }

/-- 0x5800:08 `scan.cyc_period` (Table of chapter 8): Source 2 period, 1 or more -/
def scanCycPeriod : Obj :=
  { idx := 0x5800, sub := 0x08, cnt := 256, stride := 0x1, ty := .u32, acc := .rw, role := .operator, dflt := .num 1, lo := 1, hi := 4294967295 }

/-- 0x5800:09 `scan.cyc_phase` (Table of chapter 8): Source 2 phase -/
def scanCycPhase : Obj :=
  { idx := 0x5800, sub := 0x09, cnt := 256, stride := 0x1, ty := .phase, acc := .rw, role := .operator, dflt := .num 0, lo := 0, hi := 65535 }

/-- 0x5800:0A `scan.runs` (Table of chapter 8): Runs per ARM; 0 continuous -/
def scanRuns : Obj :=
  { idx := 0x5800, sub := 0x0A, cnt := 256, stride := 0x1, ty := .u32, acc := .rw, role := .operator, dflt := .num 1, lo := 0, hi := 4294967295 }

/-- 0x5800:0B `scan.late` (Table of chapter 8): 0 run late, 1 skip (R250) -/
def scanLate : Obj :=
  { idx := 0x5800, sub := 0x0B, cnt := 256, stride := 0x1, ty := .enum8, acc := .rw, role := .operator, dflt := .num 0, lo := 0, hi := 1 }

/-- 0x5800:0C `scan.late_tol` (Table of chapter 8): Lateness tolerated -/
def scanLateTol : Obj :=
  { idx := 0x5800, sub := 0x0C, cnt := 256, stride := 0x1, ty := .dur64, acc := .rw, role := .operator, dflt := .num 1000000, lo := 0, hi := 18446744073709551615 }

/-- 0x5800:0D `scan.run_count` (Table of chapter 8): Runs since the last ARM -/
def scanRunCount : Obj :=
  { idx := 0x5800, sub := 0x0D, cnt := 256, stride := 0x1, ty := .u64, acc := .ro, role := .observer, dflt := .num 0 }

/-- 0x5800:0E `scan.late_count` (Table of chapter 8): Late runs; saturates -/
def scanLateCount : Obj :=
  { idx := 0x5800, sub := 0x0E, cnt := 256, stride := 0x1, ty := .u32, acc := .ro, role := .observer, dflt := .num 0 }

/-- 0x5800:0F `scan.skipped` (Table of chapter 8): Starts dropped; saturates -/
def scanSkipped : Obj :=
  { idx := 0x5800, sub := 0x0F, cnt := 256, stride := 0x1, ty := .u32, acc := .ro, role := .observer, dflt := .num 0 }

/-- 0x5800:10 `scan.last_start` (Table of chapter 8): Start instant of the last run -/
def scanLastStart : Obj :=
  { idx := 0x5800, sub := 0x10, cnt := 256, stride := 0x1, ty := .time64, acc := .ro, role := .observer, dflt := .num (-9223372036854775808) }

/-- 0x5800:11 `scan.next` (Table of chapter 8): Next start instant; unknown for sources 0 and 3 -/
def scanNext : Obj :=
  { idx := 0x5800, sub := 0x11, cnt := 256, stride := 0x1, ty := .time64, acc := .ro, role := .observer, dflt := .num (-9223372036854775808) }

/-- 0x5800:12 `scan.entry` (Table of chapter 8): Position of the entry in progress -/
def scanEntry : Obj :=
  { idx := 0x5800, sub := 0x12, cnt := 256, stride := 0x1, ty := .u32, acc := .ro, role := .observer, dflt := .num 0 }

/-- 0x5800:13 `scan.flags` (Table of chapter 8): Sticky, cleared by read: [7:3] —; [2] INVALID; [1] SKIP; [0] LATE -/
def scanFlags : Obj :=
  { idx := 0x5800, sub := 0x13, cnt := 256, stride := 0x1, ty := .u8, acc := .rws, role := .operator, dflt := .num 0, lo := 0, hi := 255, rsv := 0xF8 }

/-- 0x5900:01 `rb.enable` (Table of chapter 8): Runs the relay bus. -/
def rbEnable : Obj :=
  { idx := 0x5900, sub := 0x01, ty := .bool, acc := .rw, role := .owner, pers := .stored, dflt := .num 0, lo := 0, hi := 1 }

/-- 0x5900:02 `rb.drivers` (Table of chapter 8): Driver addresses in use, 1–1024. -/
def rbDrivers : Obj :=
  { idx := 0x5900, sub := 0x02, ty := .u16, acc := .rw, role := .owner, pers := .stored, dflt := .num 1, lo := 1, hi := 1024 }

/-- 0x5900:03 `rb.state` (Table of chapter 8): 0 off, 1 running, 2 fault -/
def rbState : Obj :=
  { idx := 0x5900, sub := 0x03, ty := .enum8, acc := .ro, role := .observer, dflt := .num 0 }

/-- 0x5900:04 `rb.cmd` (Table of chapter 8): 1 RELEASE_ORPHANS (R263); 2 ALL_OFF, refused under the conditions of R263 -/
def rbCmd : Obj :=
  { idx := 0x5900, sub := 0x04, ty := .enum8, acc := .wo, role := .owner, dflt := .num 0, lo := 1, hi := 2 }

/-- 0x5900:05 `rb.audit_ms` (Table of chapter 8): Audit interval; 0 off (R261). -/
def rbAuditMs : Obj :=
  { idx := 0x5900, sub := 0x05, ty := .u16, acc := .rw, role := .owner, pers := .stored, dflt := .num 1000, lo := 0, hi := 65535 }

/-- 0x5900:06 `rb.silent` (Table of chapter 8): 128 bytes; bit d of byte d div 8 set for a silent driver -/
def rbSilent : Obj :=
  { idx := 0x5900, sub := 0x06, ty := .domain, acc := .ro, role := .observer, dflt := .bytes [] }

/-- 0x5900:07 `rb.mismatches` (Table of chapter 8): Read-back mismatches (R260); saturates -/
def rbMismatches : Obj :=
  { idx := 0x5900, sub := 0x07, ty := .u32, acc := .ro, role := .observer, dflt := .num 0 }

/-- 0x5900:08 `rb.frames` (Table of chapter 8): Non-NOP frames sent -/
def rbFrames : Obj :=
  { idx := 0x5900, sub := 0x08, ty := .u64, acc := .ro, role := .observer, dflt := .num 0 }

/-- 0x5901:00 `rb.image` (Table of chapter 8): 2,048 bytes; relay r at bit r mod 8 of byte r div 8 -/
def rbImage : Obj :=
  { idx := 0x5901, sub := 0x00, ty := .domain, acc := .ro, role := .observer, dflt := .bytes [] }

/-- 0x5901:01 `rb.readback` (Table of chapter 8): Last SENSE bits, laid out as `rb.image` -/
def rbReadback : Obj :=
  { idx := 0x5901, sub := 0x01, ty := .domain, acc := .ro, role := .observer, dflt := .bytes [] }

/-- 0x5901:02 `rb.orphans` (Table of chapter 8): Orphans, laid out as `rb.image` -/
def rbOrphans : Obj :=
  { idx := 0x5901, sub := 0x02, ty := .domain, acc := .ro, role := .observer, dflt := .bytes [] }

/-- 0x5902:00 `rb.count` (Table of chapter 8): 65,536 bytes of counts (R264) -/
def rbCount : Obj :=
  { idx := 0x5902, sub := 0x00, ty := .domain, acc := .ro, role := .observer, dflt := .bytes [] }

/-- 0x5902:01 `rb.count_limit` (Table of chapter 8): Wear threshold (R265). -/
def rbCountLimit : Obj :=
  { idx := 0x5902, sub := 0x01, ty := .u32, acc := .rw, role := .owner, pers := .stored, dflt := .num 10000000, lo := 0, hi := 4294967295 }

/-- 0x5902:02 `rb.count_clear` (Table of chapter 8): Relay number, 0–16383 -/
def rbCountClear : Obj :=
  { idx := 0x5902, sub := 0x02, ty := .u16, acc := .wo, role := .owner, dflt := .num 0, lo := 0, hi := 16383 }

/-- 0x5902:03 `rb.worn` (Table of chapter 8): Relays that have reached the limit -/
def rbWorn : Obj :=
  { idx := 0x5902, sub := 0x03, ty := .u32, acc := .ro, role := .observer, dflt := .num 0 }

/-- 0x5980:01 `psc.pool.lo` (Table of chapter 8): Pool 0, bit c: channel c, 0–63. -/
def pscPoolLo : Obj :=
  { idx := 0x5980, sub := 0x01, cnt := 16, stride := 0x1, ty := .u64, acc := .rw, role := .operator, pers := .stored, dflt := .num 0, lo := 0, hi := 18446744073709551615 }

/-- 0x5980:02 `psc.pool.hi` (Table of chapter 8): Pool 0, bit c: channel 64 + c. -/
def pscPoolHi : Obj :=
  { idx := 0x5980, sub := 0x02, cnt := 16, stride := 0x1, ty := .u32, acc := .rw, role := .operator, pers := .stored, dflt := .num 0, lo := 0, hi := 4294967295 }

/-- 0x59F0:01 `psc.pending` (Table of chapter 8): Requests in WAIT -/
def pscPending : Obj :=
  { idx := 0x59F0, sub := 0x01, ty := .u16, acc := .ro, role := .observer, dflt := .num 0 }

/-- 0x59F0:02 `psc.granted` (Table of chapter 8): Grants since reset -/
def pscGranted : Obj :=
  { idx := 0x59F0, sub := 0x02, ty := .u64, acc := .ro, role := .observer, dflt := .num 0 }

/-- 0x59F0:03 `psc.ties` (Table of chapter 8): Tie losses since reset (R254) -/
def pscTies : Obj :=
  { idx := 0x59F0, sub := 0x03, ty := .u64, acc := .ro, role := .observer, dflt := .num 0 }

/-- 0x59F0:04 `psc.alarms` (Table of chapter 8): Points in HIGH or LOW -/
def pscAlarms : Obj :=
  { idx := 0x59F0, sub := 0x04, ty := .u16, acc := .ro, role := .observer, dflt := .num 0 }

/-- 0x59F0:05 `psc.suspended` (Table of chapter 8): Dispatch suspended (Table 8.10) -/
def pscSuspended : Obj :=
  { idx := 0x59F0, sub := 0x05, ty := .bool, acc := .ro, role := .observer, dflt := .num 0 }

/-- 0x2200:01 `ctb.src` (Table of chapter 9): Source, 0–4 (Table 9.1). -/
def ctbSrc : Obj :=
  { idx := 0x2200, sub := 0x01, ty := .enum8, acc := .rw, role := .owner, pers := .stored, dflt := .num 0, lo := 0, hi := 4 }

/-- 0x2200:02 `ctb.tin` (Table of chapter 9): Timing input for sources 1 and 3, 0–7. -/
def ctbTin : Obj :=
  { idx := 0x2200, sub := 0x02, ty := .u8, acc := .rw, role := .owner, pers := .stored, dflt := .num 6, lo := 0, hi := 7 }

/-- 0x2200:03 `ctb.mon` (Table of chapter 9): Source 2: [7] converter, 0 A, 1 B; [6:5] —; [4:0] sequence entry. -/
def ctbMon : Obj :=
  { idx := 0x2200, sub := 0x03, ty := .u8, acc := .rw, role := .owner, pers := .stored, dflt := .num 0, lo := 0, hi := 255, rsv := 0x60 }

/-- 0x2200:04 `ctb.mon_level` (Table of chapter 9): Crossing level, converter code. -/
def ctbMonLevel : Obj :=
  { idx := 0x2200, sub := 0x04, ty := .i16, acc := .rw, role := .owner, pers := .stored, dflt := .num 0, lo := (-32768), hi := 32767 }

/-- 0x2200:05 `ctb.mon_hyst` (Table of chapter 9): Crossing hysteresis, 0–1,023 codes. -/
def ctbMonHyst : Obj :=
  { idx := 0x2200, sub := 0x05, ty := .u16, acc := .rw, role := .owner, pers := .stored, dflt := .num 40, lo := 0, hi := 1023 }

/-- 0x2200:06 `ctb.enc_cpr` (Table of chapter 9): Counts per cycle after ×4 decoding, 4–16,777,216. -/
def ctbEncCpr : Obj :=
  { idx := 0x2200, sub := 0x06, ty := .u32, acc := .rw, role := .owner, pers := .stored, dflt := .num 4096, lo := 4, hi := 16777216 }

/-- 0x2200:07 `ctb.phase_offset` (Table of chapter 9): Phase at the source edge (R273). -/
def ctbPhaseOffset : Obj :=
  { idx := 0x2200, sub := 0x07, ty := .phase, acc := .rw, role := .calibrator, pers := .stored, dflt := .num 0, lo := 0, hi := 65535 }

/-- 0x2200:08 `ctb.gate` (Table of chapter 9): Acceptance window and acquisition tolerance, 1,000–200,000 (R271). -/
def ctbGate : Obj :=
  { idx := 0x2200, sub := 0x08, ty := .u32, acc := .rw, role := .owner, pers := .stored, dflt := .num 50000, lo := 1000, hi := 200000 }

/-- 0x2200:09 `ctb.coast` (Table of chapter 9): Coasting before STALL, 0–255. -/
def ctbCoast : Obj :=
  { idx := 0x2200, sub := 0x09, ty := .u8, acc := .rw, role := .owner, pers := .stored, dflt := .num 4, lo := 0, hi := 255 }

/-- 0x2200:0A `ctb.lock_n` (Table of chapter 9): Raw periods needed to lock, 2–32. -/
def ctbLockN : Obj :=
  { idx := 0x2200, sub := 0x0A, ty := .u8, acc := .rw, role := .owner, pers := .stored, dflt := .num 4, lo := 2, hi := 32 }

/-- 0x2200:0B `ctb.loop_a` (Table of chapter 9): Phase correction shift a, 0–8 (R270). -/
def ctbLoopA : Obj :=
  { idx := 0x2200, sub := 0x0B, ty := .u8, acc := .rw, role := .owner, pers := .stored, dflt := .num 2, lo := 0, hi := 8 }

/-- 0x2200:0C `ctb.loop_b` (Table of chapter 9): Frequency shift b, 1–16, above a (R272). -/
def ctbLoopB : Obj :=
  { idx := 0x2200, sub := 0x0C, ty := .u8, acc := .rw, role := .owner, pers := .stored, dflt := .num 5, lo := 1, hi := 16 }

/-- 0x2200:0D `ctb.cmd` (Table of chapter 9): 1 REACQUIRE (Table 9.3) -/
def ctbCmd : Obj :=
  { idx := 0x2200, sub := 0x0D, ty := .enum8, acc := .wo, role := .owner, dflt := .num 0, lo := 1, hi := 1 }

/-- 0x2210:01 `ctb.state` (Table of chapter 9): Table 9.2 -/
def ctbState : Obj :=
  { idx := 0x2210, sub := 0x01, ty := .enum8, acc := .ro, role := .observer, dflt := .num 0 }

/-- 0x2210:02 `ctb.snap` (Table of chapter 9): 32 bytes (R276): CYC64, PHASE, state U8, reserved U8, frequency U32 in mHz, TIME64, 8 bytes reserved 0 -/
def ctbSnap : Obj :=
  { idx := 0x2210, sub := 0x02, ty := .domain, acc := .ro, role := .observer, dflt := .bytes [] }

/-- 0x2210:03 `ctb.cycle` (Table of chapter 9): Cycle count (R273) -/
def ctbCycle : Obj :=
  { idx := 0x2210, sub := 0x03, ty := .cyc64, acc := .ro, role := .observer, dflt := .num 0 }

/-- 0x2210:04 `ctb.phase` (Table of chapter 9): Phase (R273) -/
def ctbPhase : Obj :=
  { idx := 0x2210, sub := 0x04, ty := .phase, acc := .ro, role := .observer, dflt := .num 0 }

/-- 0x2210:05 `ctb.freq` (Table of chapter 9): inc_f × 5 × 10^14 ÷ 2^64; source 4: counts per second × 10^6 ÷ cpr -/
def ctbFreq : Obj :=
  { idx := 0x2210, sub := 0x05, ty := .u64, acc := .ro, role := .observer, dflt := .num 0 }

/-- 0x2210:06 `ctb.period` (Table of chapter 9): Tracked cycle period -/
def ctbPeriod : Obj :=
  { idx := 0x2210, sub := 0x06, ty := .u64, acc := .ro, role := .observer, dflt := .num 0 }

/-- 0x2210:07 `ctb.phase_err` (Table of chapter 9): err of the last accepted edge, in 2^−32 cycle, saturated -/
def ctbPhaseErr : Obj :=
  { idx := 0x2210, sub := 0x07, ty := .i32, acc := .ro, role := .observer, dflt := .num 0 }

/-- 0x2210:08 `ctb.edges` (Table of chapter 9): Edges accepted since the count began -/
def ctbEdges : Obj :=
  { idx := 0x2210, sub := 0x08, ty := .u64, acc := .ro, role := .observer, dflt := .num 0 }

/-- 0x2210:09 `ctb.rejects` (Table of chapter 9): Edges rejected (R271); saturates -/
def ctbRejects : Obj :=
  { idx := 0x2210, sub := 0x09, ty := .u32, acc := .ro, role := .observer, dflt := .num 0 }

/-- 0x2210:0A `ctb.stalls` (Table of chapter 9): Entries into STALL from COASTING; saturates -/
def ctbStalls : Obj :=
  { idx := 0x2210, sub := 0x0A, ty := .u32, acc := .ro, role := .observer, dflt := .num 0 }

/-- 0x2210:0B `ctb.last_stall` (Table of chapter 9): Time of the last such entry -/
def ctbLastStall : Obj :=
  { idx := 0x2210, sub := 0x0B, ty := .time64, acc := .ro, role := .observer, dflt := .num (-9223372036854775808) }

/-- 0x2210:0C `ctb.stall_time` (Table of chapter 9): From the last STALL entry to the following LOCKED -/
def ctbStallTime : Obj :=
  { idx := 0x2210, sub := 0x0C, ty := .dur64, acc := .ro, role := .observer, dflt := .num 0 }

/-- 0x2210:0D `ctb.passed` (Table of chapter 9): Phase events not issued because passed (Table 9.4); saturates -/
def ctbPassed : Obj :=
  { idx := 0x2210, sub := 0x0D, ty := .u32, acc := .ro, role := .observer, dflt := .num 0 }

/-- 0x2210:0E `ctb.flags` (Table of chapter 9): Sticky, cleared by read: [7:6] —; [5] ENC_ERR; [4] REVERSE; [3] JUMP; [2] STALL; [1] COAST; [0] REJECT -/
def ctbFlags : Obj :=
  { idx := 0x2210, sub := 0x0E, ty := .u8, acc := .rws, role := .operator, dflt := .num 0, lo := 0, hi := 255, rsv := 0xC0 }

/-- 0x2210:0F `ctb.position` (Table of chapter 9): Encoder position pos (R281) -/
def ctbPosition : Obj :=
  { idx := 0x2210, sub := 0x0F, ty := .i64, acc := .ro, role := .observer, dflt := .num 0 }

/-- 0x2210:10 `ctb.highwater` (Table of chapter 9): High-water mark h -/
def ctbHighwater : Obj :=
  { idx := 0x2210, sub := 0x10, ty := .i64, acc := .ro, role := .observer, dflt := .num 0 }

/-- 0x2210:11 `ctb.enc_errors` (Table of chapter 9): Illegal quadrature transitions; saturates -/
def ctbEncErrors : Obj :=
  { idx := 0x2210, sub := 0x11, ty := .u32, acc := .ro, role := .observer, dflt := .num 0 }

/-- 0x2210:12 `ctb.epoch` (Table of chapter 9): Start of the present count (R275) -/
def ctbEpoch : Obj :=
  { idx := 0x2210, sub := 0x12, ty := .time64, acc := .ro, role := .observer, dflt := .num (-9223372036854775808) }

/-- 0x2220:01 `ctb.evt.enable` (Table of chapter 9): Enables the generator (R284). -/
def ctbEvtEnable : Obj :=
  { idx := 0x2220, sub := 0x01, cnt := 8, stride := 0x1, ty := .bool, acc := .rw, role := .operator, pers := .stored, dflt := .num 0, lo := 0, hi := 1 }

/-- 0x2220:02 `ctb.evt.phase` (Table of chapter 9): Phase of the event. -/
def ctbEvtPhase : Obj :=
  { idx := 0x2220, sub := 0x02, cnt := 8, stride := 0x1, ty := .phase, acc := .rw, role := .operator, pers := .stored, dflt := .num 0, lo := 0, hi := 65535 }

/-- 0x2220:03 `ctb.evt.every` (Table of chapter 9): Interval, 1–4,294,967,295. -/
def ctbEvtEvery : Obj :=
  { idx := 0x2220, sub := 0x03, cnt := 8, stride := 0x1, ty := .u32, acc := .rw, role := .operator, pers := .stored, dflt := .num 1, lo := 1, hi := 4294967295 }

/-- 0x2220:04 `ctb.evt.origin` (Table of chapter 9): First cycle of the grid -/
def ctbEvtOrigin : Obj :=
  { idx := 0x2220, sub := 0x04, cnt := 8, stride := 0x1, ty := .cyc64, acc := .rw, role := .operator, dflt := .num 0, lo := 0, hi := 18446744073709551615 }

/-- 0x2220:05 `ctb.evt.count` (Table of chapter 9): Events issued since enable -/
def ctbEvtCount : Obj :=
  { idx := 0x2220, sub := 0x05, cnt := 8, stride := 0x1, ty := .u64, acc := .ro, role := .observer, dflt := .num 0 }

/-- 0x2220:06 `ctb.evt.missed` (Table of chapter 9): Events passed at relock or not issued while not LOCKED or COASTING; saturates -/
def ctbEvtMissed : Obj :=
  { idx := 0x2220, sub := 0x06, cnt := 8, stride := 0x1, ty := .u32, acc := .ro, role := .observer, dflt := .num 0 }

/-- 0x2300:01 `tod.src_order` (Table of chapter 10): [15:12] —; [11:8] first, [7:4] second, [3:0] third source: 0 none, 1 Hedgerow, 2 PTP, 3 PPS; each source at most once (R293). -/
def todSrcOrder : Obj :=
  { idx := 0x2300, sub := 0x01, ty := .u16, acc := .rw, role := .owner, pers := .stored, dflt := .num 291, lo := 0, hi := 65535, rsv := 0xF000 }

/-- 0x2300:02 `tod.pps_tin` (Table of chapter 10): PPS timing input, 0–7. -/
def todPpsTin : Obj :=
  { idx := 0x2300, sub := 0x02, ty := .u8, acc := .rw, role := .owner, pers := .stored, dflt := .num 7, lo := 0, hi := 7 }

/-- 0x2300:03 `tod.pps_delay` (Table of chapter 10): PPS cable and receiver delay, −1,000,000 to +1,000,000. -/
def todPpsDelay : Obj :=
  { idx := 0x2300, sub := 0x03, ty := .i32, acc := .rw, role := .calibrator, pers := .stored, dflt := .num 0, lo := (-1000000), hi := 1000000 }

/-- 0x2300:04 `tod.step_thresh` (Table of chapter 10): Step threshold, 1,000–1,000,000,000 (R295). -/
def todStepThresh : Obj :=
  { idx := 0x2300, sub := 0x04, ty := .dur64, acc := .rw, role := .owner, pers := .stored, dflt := .num 1000000, lo := 1000, hi := 1000000000 }

/-- 0x2300:05 `tod.step_enable` (Table of chapter 10): Permits steps. -/
def todStepEnable : Obj :=
  { idx := 0x2300, sub := 0x05, ty := .bool, acc := .rw, role := .owner, pers := .stored, dflt := .num 1, lo := 0, hi := 1 }

/-- 0x2300:06 `tod.slew_max` (Table of chapter 10): Rate correction limit, 1–500 (R294). -/
def todSlewMax : Obj :=
  { idx := 0x2300, sub := 0x06, ty := .u16, acc := .rw, role := .owner, pers := .stored, dflt := .num 200, lo := 1, hi := 500 }

/-- 0x2300:07 `tod.loop_a` (Table of chapter 10): Phase shift a, 0–8. -/
def todLoopA : Obj :=
  { idx := 0x2300, sub := 0x07, ty := .u8, acc := .rw, role := .owner, pers := .stored, dflt := .num 2, lo := 0, hi := 8 }

/-- 0x2300:08 `tod.loop_b` (Table of chapter 10): Frequency shift b, 1–16, above a. -/
def todLoopB : Obj :=
  { idx := 0x2300, sub := 0x08, ty := .u8, acc := .rw, role := .owner, pers := .stored, dflt := .num 6, lo := 1, hi := 16 }

/-- 0x2300:09 `tod.qual_n` (Table of chapter 10): Samples to qualify, 2–64 (R292). -/
def todQualN : Obj :=
  { idx := 0x2300, sub := 0x09, ty := .u8, acc := .rw, role := .owner, pers := .stored, dflt := .num 8, lo := 2, hi := 64 }

/-- 0x2300:0A `tod.loss_n` (Table of chapter 10): Intervals to lose, 1–16. -/
def todLossN : Obj :=
  { idx := 0x2300, sub := 0x0A, ty := .u8, acc := .rw, role := .owner, pers := .stored, dflt := .num 3, lo := 1, hi := 16 }

/-- 0x2300:0B `tod.switch_holdoff` (Table of chapter 10): Up-switch hold-off, 0–3,600 s. -/
def todSwitchHoldoff : Obj :=
  { idx := 0x2300, sub := 0x0B, ty := .dur64, acc := .rw, role := .owner, pers := .stored, dflt := .num 10000000000, lo := 0, hi := 3600000000000 }

/-- 0x2300:0C `tod.holdover_max` (Table of chapter 10): HOLDOVER duration before FREE, 1 s–30 days. -/
def todHoldoverMax : Obj :=
  { idx := 0x2300, sub := 0x0C, ty := .dur64, acc := .rw, role := .owner, pers := .stored, dflt := .num 86400000000000, lo := 1000000000, hi := 2592000000000000 }

/-- 0x2300:0D `tod.utc_src` (Table of chapter 10): 0 offset and leaps by write; 1 from the source (R304). -/
def todUtcSrc : Obj :=
  { idx := 0x2300, sub := 0x0D, ty := .enum8, acc := .rw, role := .owner, pers := .stored, dflt := .num 1, lo := 0, hi := 1 }

/-- 0x2300:0E `tod.rtc_sync` (Table of chapter 10): RTC load interval, 1–65,535 (R289). -/
def todRtcSync : Obj :=
  { idx := 0x2300, sub := 0x0E, ty := .u16, acc := .rw, role := .owner, pers := .stored, dflt := .num 60, lo := 1, hi := 65535 }

/-- 0x2300:0F `tod.rtc_autotrim` (Table of chapter 10): Automatic RTC trim. -/
def todRtcAutotrim : Obj :=
  { idx := 0x2300, sub := 0x0F, ty := .bool, acc := .rw, role := .owner, pers := .stored, dflt := .num 1, lo := 0, hi := 1 }

/-- 0x2300:10 `tod.rtc_trim` (Table of chapter 10): RTC correction, −1,000 to +1,000; written by autotrim. -/
def todRtcTrim : Obj :=
  { idx := 0x2300, sub := 0x10, ty := .i16, acc := .rw, role := .calibrator, pers := .stored, dflt := .num 0, lo := (-1000), hi := 1000 }

/-- 0x2310:01 `tod.state` (Table of chapter 10): Table 10.2 -/
def todState : Obj :=
  { idx := 0x2310, sub := 0x01, ty := .enum8, acc := .ro, role := .observer, dflt := .num 0 }

/-- 0x2310:02 `tod.src` (Table of chapter 10): Selected source, Table 10.1; 0 none -/
def todSrc : Obj :=
  { idx := 0x2310, sub := 0x02, ty := .enum8, acc := .ro, role := .observer, dflt := .num 0 }

/-- 0x2310:03 `tod.time` (Table of chapter 10): Present t -/
def todTime : Obj :=
  { idx := 0x2310, sub := 0x03, ty := .time64, acc := .ro, role := .observer, dflt := .num (-9223372036854775808) }

/-- 0x2310:04 `tod.snap` (Table of chapter 10): Table 10.5 (R299) -/
def todSnap : Obj :=
  { idx := 0x2310, sub := 0x04, ty := .domain, acc := .ro, role := .observer, dflt := .bytes [] }

/-- 0x2310:05 `tod.offset` (Table of chapter 10): θ of the last accepted sample of the selected source -/
def todOffset : Obj :=
  { idx := 0x2310, sub := 0x05, ty := .i64, acc := .ro, role := .observer, dflt := .num 0 }

/-- 0x2310:06 `tod.freq_adj` (Table of chapter 10): f as a share of rn -/
def todFreqAdj : Obj :=
  { idx := 0x2310, sub := 0x06, ty := .i32, acc := .ro, role := .observer, dflt := .num 0 }

/-- 0x2310:07 `tod.qual` (Table of chapter 10): [7:4] —; [3] PPS; [2] PTP; [1] Hedgerow; [0] — -/
def todQual : Obj :=
  { idx := 0x2310, sub := 0x07, ty := .u8, acc := .ro, role := .observer, dflt := .num 0 }

/-- 0x2310:08 `tod.steps` (Table of chapter 10): Steps, writes and offset changes since reset; saturates -/
def todSteps : Obj :=
  { idx := 0x2310, sub := 0x08, ty := .u32, acc := .ro, role := .observer, dflt := .num 0 }

/-- 0x2310:09 `tod.last_step` (Table of chapter 10): Change of t at the last step or write -/
def todLastStep : Obj :=
  { idx := 0x2310, sub := 0x09, ty := .i64, acc := .ro, role := .observer, dflt := .num 0 }

/-- 0x2310:0A `tod.rejects` (Table of chapter 10): Rejected samples (R291); saturates -/
def todRejects : Obj :=
  { idx := 0x2310, sub := 0x0A, ty := .u32, acc := .ro, role := .observer, dflt := .num 0 }

/-- 0x2310:0B `tod.holdover_time` (Table of chapter 10): Time in the present or last HOLDOVER -/
def todHoldoverTime : Obj :=
  { idx := 0x2310, sub := 0x0B, ty := .dur64, acc := .ro, role := .observer, dflt := .num 0 }

/-- 0x2310:0C `tod.rtc_valid` (Table of chapter 10): RTC valid bit (R288) -/
def todRtcValid : Obj :=
  { idx := 0x2310, sub := 0x0C, ty := .bool, acc := .ro, role := .observer, dflt := .num 0 }

/-- 0x2310:0D `tod.flags` (Table of chapter 10): Sticky, cleared by read: [7] RTC_INVALID; [6] PPS_AMBIG; [5] HOLDOVER; [4] STEP; [3] LEAP_DONE; [2] SRC_SWITCH; [1] WRITE_DONE; [0] REJECT -/
def todFlags : Obj :=
  { idx := 0x2310, sub := 0x0D, ty := .u8, acc := .rws, role := .operator, dflt := .num 0, lo := 0, hi := 255 }

/-- 0x2320:01 `tod.set` (Table of chapter 10): Time write (R297) -/
def todSet : Obj :=
  { idx := 0x2320, sub := 0x01, ty := .time64, acc := .wo, role := .owner, dflt := .num 0, lo := (-9223372036854775808), hi := 9223372036854775807 }

/-- 0x2320:02 `tod.cal_set` (Table of chapter 10): Calendar write, Table 10.6 (R297, R300) -/
def todCalSet : Obj :=
  { idx := 0x2320, sub := 0x02, ty := .domain, acc := .wo, role := .owner, dflt := .bytes [] }

/-- 0x2320:03 `tod.set_mode` (Table of chapter 10): 0 at the next second boundary, 1 immediate. -/
def todSetMode : Obj :=
  { idx := 0x2320, sub := 0x03, ty := .enum8, acc := .rw, role := .owner, pers := .stored, dflt := .num 0, lo := 0, hi := 1 }

/-- 0x2320:04 `tod.set_pending` (Table of chapter 10): A write is pending (R298) -/
def todSetPending : Obj :=
  { idx := 0x2320, sub := 0x04, ty := .bool, acc := .ro, role := .observer, dflt := .num 0 }

/-- 0x2320:05 `tod.cmd` (Table of chapter 10): 1 CANCEL the pending write -/
def todCmd : Obj :=
  { idx := 0x2320, sub := 0x05, ty := .enum8, acc := .wo, role := .owner, dflt := .num 0, lo := 1, hi := 1 }

/-- 0x2320:06 `tod.utc_offset` (Table of chapter 10): TAI − UTC, 0–1,000 (R301, R304). -/
def todUtcOffset : Obj :=
  { idx := 0x2320, sub := 0x06, ty := .i16, acc := .rw, role := .owner, pers := .stored, dflt := .num 37, lo := 0, hi := 1000 }

/-- 0x2320:07 `tod.leap.at` (Table of chapter 10): Scheduled leap instant L; 0 none (R301) -/
def todLeapAt : Obj :=
  { idx := 0x2320, sub := 0x07, ty := .time64, acc := .rw, role := .owner, dflt := .num 0, lo := (-9223372036854775808), hi := 9223372036854775807 }

/-- 0x2320:08 `tod.leap.dir` (Table of chapter 10): 0 positive, 1 negative -/
def todLeapDir : Obj :=
  { idx := 0x2320, sub := 0x08, ty := .enum8, acc := .rw, role := .owner, dflt := .num 0, lo := 0, hi := 1 }

/-- 0x2320:09 `tod.leap.count` (Table of chapter 10): Leaps applied since reset -/
def todLeapCount : Obj :=
  { idx := 0x2320, sub := 0x09, ty := .u32, acc := .ro, role := .observer, dflt := .num 0 }

/-- 0x2400:01 `tiu.in.thresh` (Table of chapter 11): Threshold code, 0–1,023 (R306). OWNER on TIN6, TIN7 (R314). -/
def tiuInThresh : Obj :=
  { idx := 0x2400, sub := 0x01, cnt := 8, stride := 0x1, ty := .u16, acc := .rw, role := .operator, pers := .stored, dflt := .num 310, lo := 0, hi := 1023 }

/-- 0x2400:02 `tiu.in.hyst` (Table of chapter 11): Hysteresis code, 0–31. -/
def tiuInHyst : Obj :=
  { idx := 0x2400, sub := 0x02, cnt := 8, stride := 0x1, ty := .u8, acc := .rw, role := .operator, pers := .stored, dflt := .num 6, lo := 0, hi := 31 }

/-- 0x2400:03 `tiu.in.slope` (Table of chapter 11): 0 rising, 1 falling, 2 both (R309). -/
def tiuInSlope : Obj :=
  { idx := 0x2400, sub := 0x03, cnt := 8, stride := 0x1, ty := .enum8, acc := .rw, role := .operator, pers := .stored, dflt := .num 0, lo := 0, hi := 2 }

/-- 0x2400:04 `tiu.in.latch_clr` (Table of chapter 11): TIN0–TIN5: 0 software clear, 1 after the latch period (R313). -/
def tiuInLatchClr : Obj :=
  { idx := 0x2400, sub := 0x04, cnt := 8, stride := 0x1, ty := .enum8, acc := .rw, role := .operator, pers := .stored, dflt := .num 0, lo := 0, hi := 1 }

/-- 0x2400:05 `tiu.in.latch_period` (Table of chapter 11): Multiple of 10, 10–60,000,000,000. -/
def tiuInLatchPeriod : Obj :=
  { idx := 0x2400, sub := 0x05, cnt := 8, stride := 0x1, ty := .dur64, acc := .rw, role := .operator, pers := .stored, dflt := .num 1000000, lo := 10, hi := 60000000000 }

/-- 0x2400:06 `tiu.in.stuck` (Table of chapter 11): 0 off, or 1,000–3,600,000,000,000 (R312). -/
def tiuInStuck : Obj :=
  { idx := 0x2400, sub := 0x06, cnt := 8, stride := 0x1, ty := .dur64, acc := .rw, role := .operator, pers := .stored, dflt := .num 0, lo := 1000, hi := 3600000000000, alts := [0] }

/-- 0x2400:07 `tiu.in.wake` (Table of chapter 11): Wake path in PD0 (R316). -/
def tiuInWake : Obj :=
  { idx := 0x2400, sub := 0x07, cnt := 8, stride := 0x1, ty := .bool, acc := .rw, role := .owner, pers := .stored, dflt := .num 0, lo := 0, hi := 1 }

/-- 0x2400:08 `tiu.in.cmd` (Table of chapter 11): 1 CLEAR the latch, TIN0–TIN5 only -/
def tiuInCmd : Obj :=
  { idx := 0x2400, sub := 0x08, cnt := 8, stride := 0x1, ty := .enum8, acc := .wo, role := .operator, dflt := .num 0, lo := 1, hi := 1 }

/-- 0x2400:09 `tiu.in.level` (Table of chapter 11): Filtered level -/
def tiuInLevel : Obj :=
  { idx := 0x2400, sub := 0x09, cnt := 8, stride := 0x1, ty := .bool, acc := .ro, role := .observer, dflt := .num 0 }

/-- 0x2400:0A `tiu.in.latch` (Table of chapter 11): Latch; the read clears it (R313); reads 0 on TIN6, TIN7 -/
def tiuInLatch : Obj :=
  { idx := 0x2400, sub := 0x0A, cnt := 8, stride := 0x1, ty := .bool, acc := .rws, role := .operator, dflt := .num 0, lo := 0, hi := 1 }

/-- 0x2400:0B `tiu.in.state` (Table of chapter 11): 0 normal, 1 over-rate, 2 stuck -/
def tiuInState : Obj :=
  { idx := 0x2400, sub := 0x0B, cnt := 8, stride := 0x1, ty := .enum8, acc := .ro, role := .observer, dflt := .num 0 }

/-- 0x2400:0C `tiu.in.edges` (Table of chapter 11): Delivered edges since reset (R315) -/
def tiuInEdges : Obj :=
  { idx := 0x2400, sub := 0x0C, cnt := 8, stride := 0x1, ty := .u64, acc := .ro, role := .observer, dflt := .num 0 }

/-- 0x2400:0D `tiu.in.last_edge` (Table of chapter 11): Edge time of the last delivered edge -/
def tiuInLastEdge : Obj :=
  { idx := 0x2400, sub := 0x0D, cnt := 8, stride := 0x1, ty := .time64, acc := .ro, role := .observer, dflt := .num (-9223372036854775808) }

/-- 0x2400:0E `tiu.in.overrates` (Table of chapter 11): Entries into over-rate; saturates -/
def tiuInOverrates : Obj :=
  { idx := 0x2400, sub := 0x0E, cnt := 8, stride := 0x1, ty := .u32, acc := .ro, role := .observer, dflt := .num 0 }

/-- 0x2400:0F `tiu.in.flags` (Table of chapter 11): Sticky, cleared by read: [7:4] —; [3] STUCK; [2] OVERRATE; [1] FALL; [0] RISE. RISE and FALL on TIN6, TIN7 only -/
def tiuInFlags : Obj :=
  { idx := 0x2400, sub := 0x0F, cnt := 8, stride := 0x1, ty := .u8, acc := .rws, role := .operator, dflt := .num 0, lo := 0, hi := 255, rsv := 0xF0 }

/-- 0x2440:01 `tiu.m.mode` (Table of chapter 11): Table 11.1, 0–3. -/
def tiuMMode : Obj :=
  { idx := 0x2440, sub := 0x01, cnt := 8, stride := 0x1, ty := .enum8, acc := .rw, role := .operator, pers := .stored, dflt := .num 1, lo := 0, hi := 3 }

/-- 0x2440:02 `tiu.m.slope` (Table of chapter 11): Own slope: 0 rising, 1 falling. -/
def tiuMSlope : Obj :=
  { idx := 0x2440, sub := 0x02, cnt := 8, stride := 0x1, ty := .enum8, acc := .rw, role := .operator, pers := .stored, dflt := .num 0, lo := 0, hi := 1 }

/-- 0x2440:03 `tiu.m.gate` (Table of chapter 11): 0 ARM command only, 1 also TIU_GATEk event. -/
def tiuMGate : Obj :=
  { idx := 0x2440, sub := 0x03, cnt := 8, stride := 0x1, ty := .enum8, acc := .rw, role := .operator, pers := .stored, dflt := .num 0, lo := 0, hi := 1 }

/-- 0x2440:04 `tiu.m.stop_tin` (Table of chapter 11): Stop input for mode 0, 0–7. -/
def tiuMStopTin : Obj :=
  { idx := 0x2440, sub := 0x04, cnt := 8, stride := 0x1, ty := .u8, acc := .rw, role := .operator, pers := .stored, dflt := .num 0, lo := 0, hi := 7 }

/-- 0x2440:05 `tiu.m.stop_slope` (Table of chapter 11): 0 rising, 1 falling. -/
def tiuMStopSlope : Obj :=
  { idx := 0x2440, sub := 0x05, cnt := 8, stride := 0x1, ty := .enum8, acc := .rw, role := .operator, pers := .stored, dflt := .num 0, lo := 0, hi := 1 }

/-- 0x2440:06 `tiu.m.skip` (Table of chapter 11): Mode 1 skip, 0–65,535. -/
def tiuMSkip : Obj :=
  { idx := 0x2440, sub := 0x06, cnt := 8, stride := 0x1, ty := .u16, acc := .rw, role := .operator, pers := .stored, dflt := .num 0, lo := 0, hi := 65535 }

/-- 0x2440:07 `tiu.m.periods` (Table of chapter 11): Mode 1 count, 1–65,535. -/
def tiuMPeriods : Obj :=
  { idx := 0x2440, sub := 0x07, cnt := 8, stride := 0x1, ty := .u16, acc := .rw, role := .operator, pers := .stored, dflt := .num 1, lo := 1, hi := 65535 }

/-- 0x2440:08 `tiu.m.window` (Table of chapter 11): Mode 2 window, 1,000–100,000,000,000. -/
def tiuMWindow : Obj :=
  { idx := 0x2440, sub := 0x08, cnt := 8, stride := 0x1, ty := .dur64, acc := .rw, role := .operator, pers := .stored, dflt := .num 1000000000, lo := 1000, hi := 100000000000 }

/-- 0x2440:09 `tiu.m.timeout` (Table of chapter 11): 0 none, or 1,000–3,600,000,000,000. -/
def tiuMTimeout : Obj :=
  { idx := 0x2440, sub := 0x09, cnt := 8, stride := 0x1, ty := .dur64, acc := .rw, role := .operator, pers := .stored, dflt := .num 0, lo := 1000, hi := 3600000000000, alts := [0] }

/-- 0x2440:0A `tiu.m.cmd` (Table of chapter 11): 1 ARM, 2 STOP (Table 11.2, R320) -/
def tiuMCmd : Obj :=
  { idx := 0x2440, sub := 0x0A, cnt := 8, stride := 0x1, ty := .enum8, acc := .wo, role := .operator, dflt := .num 0, lo := 1, hi := 2 }

/-- 0x2440:0B `tiu.m.state` (Table of chapter 11): 0 IDLE, 1 CAL, 2 WAIT, 3 RUN, 4 DONE -/
def tiuMState : Obj :=
  { idx := 0x2440, sub := 0x0B, cnt := 8, stride := 0x1, ty := .enum8, acc := .ro, role := .observer, dflt := .num 0 }

/-- 0x2440:0C `tiu.m.status` (Table of chapter 11): Table 11.3 -/
def tiuMStatus : Obj :=
  { idx := 0x2440, sub := 0x0C, cnt := 8, stride := 0x1, ty := .enum8, acc := .ro, role := .observer, dflt := .num 0 }

/-- 0x2440:0D `tiu.m.result` (Table of chapter 11): Table 11.1 -/
def tiuMResult : Obj :=
  { idx := 0x2440, sub := 0x0D, cnt := 8, stride := 0x1, ty := .u64, acc := .ro, role := .observer, dflt := .num 0 }

/-- 0x2440:0E `tiu.m.span` (Table of chapter 11): Table 11.1 -/
def tiuMSpan : Obj :=
  { idx := 0x2440, sub := 0x0E, cnt := 8, stride := 0x1, ty := .u64, acc := .ro, role := .observer, dflt := .num 0 }

/-- 0x2440:0F `tiu.m.count` (Table of chapter 11): Edges used -/
def tiuMCount : Obj :=
  { idx := 0x2440, sub := 0x0F, cnt := 8, stride := 0x1, ty := .u32, acc := .ro, role := .observer, dflt := .num 0 }

/-- 0x2440:10 `tiu.m.t_first` (Table of chapter 11): Time of the first used edge (R318) -/
def tiuMTFirst : Obj :=
  { idx := 0x2440, sub := 0x10, cnt := 8, stride := 0x1, ty := .time64, acc := .ro, role := .observer, dflt := .num (-9223372036854775808) }

/-- 0x2440:11 `tiu.m.cal` (Table of chapter 11): [63:32] K2; [31:0] K1 of the last calibration -/
def tiuMCal : Obj :=
  { idx := 0x2440, sub := 0x11, cnt := 8, stride := 0x1, ty := .u64, acc := .ro, role := .observer, dflt := .num 0 }

/-- 0x2440:12 `tiu.m.done` (Table of chapter 11): Measurements ended OK since reset; saturates -/
def tiuMDone : Obj :=
  { idx := 0x2440, sub := 0x12, cnt := 8, stride := 0x1, ty := .u32, acc := .ro, role := .observer, dflt := .num 0 }

/-- 0x2440:13 `tiu.m.overruns` (Table of chapter 11): Gate events ignored; saturates -/
def tiuMOverruns : Obj :=
  { idx := 0x2440, sub := 0x13, cnt := 8, stride := 0x1, ty := .u32, acc := .ro, role := .observer, dflt := .num 0 }

/-- 0x2440:14 `tiu.m.flags` (Table of chapter 11): Sticky, cleared by read: [7:2] —; [1] CALFAIL; [0] OVERRUN -/
def tiuMFlags : Obj :=
  { idx := 0x2440, sub := 0x14, cnt := 8, stride := 0x1, ty := .u8, acc := .rws, role := .operator, dflt := .num 0, lo := 0, hi := 255, rsv := 0xFC }

/-- 0x2500:01 `erm.state` (Table of chapter 12): 0 off, 1 running -/
def ermState : Obj :=
  { idx := 0x2500, sub := 0x01, ty := .enum8, acc := .ro, role := .observer, dflt := .num 0 }

/-- 0x2500:02 `erm.soft` (Table of chapter 12): Bit k issues one event on SOFTk in the first cycle after the commit; all set bits issue in the same cycle -/
def ermSoft : Obj :=
  { idx := 0x2500, sub := 0x02, ty := .u8, acc := .wo, role := .operator, dflt := .num 0, lo := 0, hi := 255 }

/-- 0x2500:03 `erm.levels` (Table of chapter 12): 32 bytes; bit p mod 8 of byte p div 8 is producer p's signal, all latched in one cycle -/
def ermLevels : Obj :=
  { idx := 0x2500, sub := 0x03, ty := .domain, acc := .ro, role := .observer, dflt := .bytes [] }

/-- 0x2500:04 `erm.overruns` (Table of chapter 12): Overruns at all inputs since reset -/
def ermOverruns : Obj :=
  { idx := 0x2500, sub := 0x04, ty := .u64, acc := .ro, role := .observer, dflt := .num 0 }

/-- 0x2500:05 `erm.deferred` (Table of chapter 12): Events deferred (R323); saturates -/
def ermDeferred : Obj :=
  { idx := 0x2500, sub := 0x05, ty := .u32, acc := .ro, role := .observer, dflt := .num 0 }

/-- 0x2500:06 `erm.dropped` (Table of chapter 12): Events dropped (R323); saturates -/
def ermDropped : Obj :=
  { idx := 0x2500, sub := 0x06, ty := .u32, acc := .ro, role := .observer, dflt := .num 0 }

/-- 0x2510:01 `erm.in.sel` (Table of chapter 12): Selector of input 0 (R326); subindex c + 1 for input c, up to 0xC0. Inputs 164–179 require OWNER. A selector naming a reserved producer, 113–127, is refused with VALUE_RANGE on every input. On the reserved inputs 187–191 (subindices 0xBC–0xC0), the only value accepted is 0, which is NONE with invert 0; any other value is refused with VALUE_RANGE, and these inputs never act. -/
def ermInSel : Obj :=
  { idx := 0x2510, sub := 0x01, gcnt := 192, gstride := 0x1, ty := .u16, acc := .rw, role := .operator, pers := .stored, dflt := .num 0, lo := 0, hi := 65535 }

/-- 0x2511:01 `erm.in.overruns` (Table of chapter 12): Overruns of input 0 (R328); subindex c + 1 for input c; saturates -/
def ermInOverruns : Obj :=
  { idx := 0x2511, sub := 0x01, gcnt := 192, gstride := 0x1, ty := .u32, acc := .ro, role := .observer, dflt := .num 0 }

/-- 0x2512:01 `erm.in.flags` (Table of chapter 12): Input 0, sticky, cleared by read: [7:1] —; [0] OVERRUN; subindex c + 1 for input c -/
def ermInFlags : Obj :=
  { idx := 0x2512, sub := 0x01, gcnt := 192, gstride := 0x1, ty := .u8, acc := .rws, role := .operator, dflt := .num 0, lo := 0, hi := 255, rsv := 0xFE }

/-- 0x2520:01 `erm.lut.in` (Table of chapter 12): Selectors: i0 [15:0], i1 [31:16], i2 [47:32], i3 [63:48] (R329). -/
def ermLutIn : Obj :=
  { idx := 0x2520, sub := 0x01, cnt := 32, stride := 0x1, ty := .u64, acc := .rw, role := .operator, pers := .stored, dflt := .num 0, lo := 0, hi := 18446744073709551615 }

/-- 0x2520:02 `erm.lut.truth` (Table of chapter 12): Bit idx is the value for input index idx. -/
def ermLutTruth : Obj :=
  { idx := 0x2520, sub := 0x02, cnt := 32, stride := 0x1, ty := .u16, acc := .rw, role := .operator, pers := .stored, dflt := .num 0, lo := 0, hi := 65535 }

/-- 0x2520:03 `erm.lut.ff` (Table of chapter 12): 0 none, 1 sample, 2 toggle (R330). -/
def ermLutFf : Obj :=
  { idx := 0x2520, sub := 0x03, cnt := 32, stride := 0x1, ty := .enum8, acc := .rw, role := .operator, pers := .stored, dflt := .num 0, lo := 0, hi := 2 }

/-- 0x2520:04 `erm.lut.clk` (Table of chapter 12): Clock selector for sample mode. -/
def ermLutClk : Obj :=
  { idx := 0x2520, sub := 0x04, cnt := 32, stride := 0x1, ty := .u16, acc := .rw, role := .operator, pers := .stored, dflt := .num 0, lo := 0, hi := 65535 }

/-- 0x2520:05 `erm.lut.filter` (Table of chapter 12): 1 no filter; 2–16 agreeing cycles. -/
def ermLutFilter : Obj :=
  { idx := 0x2520, sub := 0x05, cnt := 32, stride := 0x1, ty := .u8, acc := .rw, role := .operator, pers := .stored, dflt := .num 1, lo := 1, hi := 16 }

/-- 0x2520:06 `erm.lut.out` (Table of chapter 12): Output o -/
def ermLutOut : Obj :=
  { idx := 0x2520, sub := 0x06, cnt := 32, stride := 0x1, ty := .bool, acc := .ro, role := .observer, dflt := .num 0 }

/-- 0x2520:07 `erm.lut.rises` (Table of chapter 12): Rises of the output since reset -/
def ermLutRises : Obj :=
  { idx := 0x2520, sub := 0x07, cnt := 32, stride := 0x1, ty := .u64, acc := .ro, role := .observer, dflt := .num 0 }

/-- 0x2540:01 `erm.evio.dir` (Table of chapter 12): 0 input, 1 push-pull output, 2 open-drain output (R331). -/
def ermEvioDir : Obj :=
  { idx := 0x2540, sub := 0x01, cnt := 16, stride := 0x1, ty := .enum8, acc := .rw, role := .owner, pers := .stored, dflt := .num 0, lo := 0, hi := 2 }

/-- 0x2540:02 `erm.evio.out_mode` (Table of chapter 12): 0 level, 1 pulse, 2 toggle. -/
def ermEvioOutMode : Obj :=
  { idx := 0x2540, sub := 0x02, cnt := 16, stride := 0x1, ty := .enum8, acc := .rw, role := .operator, pers := .stored, dflt := .num 0, lo := 0, hi := 2 }

/-- 0x2540:03 `erm.evio.width` (Table of chapter 12): Pulse width, 1–65,535. -/
def ermEvioWidth : Obj :=
  { idx := 0x2540, sub := 0x03, cnt := 16, stride := 0x1, ty := .u16, acc := .rw, role := .operator, pers := .stored, dflt := .num 100, lo := 1, hi := 65535 }

/-- 0x2540:04 `erm.evio.wake` (Table of chapter 12): 0 none, 1 rising, 2 falling edge wakes from STANDBY. -/
def ermEvioWake : Obj :=
  { idx := 0x2540, sub := 0x04, cnt := 16, stride := 0x1, ty := .enum8, acc := .rw, role := .owner, pers := .stored, dflt := .num 0, lo := 0, hi := 2 }

/-- 0x2540:05 `erm.evio.level` (Table of chapter 12): Synchronised pin level -/
def ermEvioLevel : Obj :=
  { idx := 0x2540, sub := 0x05, cnt := 16, stride := 0x1, ty := .bool, acc := .ro, role := .observer, dflt := .num 0 }

/-- 0x2540:06 `erm.evio.changes` (Table of chapter 12): Level changes since reset -/
def ermEvioChanges : Obj :=
  { idx := 0x2540, sub := 0x06, cnt := 16, stride := 0x1, ty := .u64, acc := .ro, role := .observer, dflt := .num 0 }

/-- 0x2560:01 `erm.sys.gate` (Table of chapter 12): This node's term of line 0 takes part (R332). -/
def ermSysGate : Obj :=
  { idx := 0x2560, sub := 0x01, cnt := 16, stride := 0x1, ty := .bool, acc := .rw, role := .owner, pers := .stored, dflt := .num 0, lo := 0, hi := 1 }

/-- 0x2560:02 `erm.sys.absent` (Table of chapter 12): Term of a node that has left the ring; used at the head only (R334). -/
def ermSysAbsent : Obj :=
  { idx := 0x2560, sub := 0x02, cnt := 16, stride := 0x1, ty := .bool, acc := .rw, role := .owner, pers := .stored, dflt := .num 0, lo := 0, hi := 1 }

/-- 0x2560:03 `erm.sys.level` (Table of chapter 12): Line value as delivered -/
def ermSysLevel : Obj :=
  { idx := 0x2560, sub := 0x03, cnt := 16, stride := 0x1, ty := .bool, acc := .ro, role := .observer, dflt := .num 0 }

/-- 0x2560:04 `erm.sys.changes` (Table of chapter 12): Changes delivered since reset -/
def ermSysChanges : Obj :=
  { idx := 0x2560, sub := 0x04, cnt := 16, stride := 0x1, ty := .u64, acc := .ro, role := .observer, dflt := .num 0 }

/-- 0x2560:05 `erm.sys.stale` (Table of chapter 12): Line not being delivered (R334) -/
def ermSysStale : Obj :=
  { idx := 0x2560, sub := 0x05, cnt := 16, stride := 0x1, ty := .bool, acc := .ro, role := .observer, dflt := .num 1 }

/-- 0x2580:00 `erm.scan_map` (Table of chapter 12): 256 bytes; byte n, 0–15, is the scan start line of Sn; byte n defaults to n mod 16. -/
def ermScanMap : Obj :=
  { idx := 0x2580, sub := 0x00, ty := .domain, acc := .rw, role := .operator, pers := .stored, dflt := .bytes [] }

/-- 0x2600:01 `sam.state` (Table of chapter 13): 0 off, 1 running (R353) -/
def samState : Obj :=
  { idx := 0x2600, sub := 0x01, cnt := 2, stride := 0x1, ty := .enum8, acc := .ro, role := .observer, dflt := .num 0 }

/-- 0x2600:02 `sam.urg_entry` (Table of chapter 13): Urgent entry, 0–31 (R344). -/
def samUrgEntry : Obj :=
  { idx := 0x2600, sub := 0x02, cnt := 2, stride := 0x1, ty := .u8, acc := .rw, role := .operator, pers := .stored, dflt := .num 0, lo := 0, hi := 31 }

/-- 0x2600:03 `sam.cmd` (Table of chapter 13): 1 RESTART (R345) -/
def samCmd : Obj :=
  { idx := 0x2600, sub := 0x03, cnt := 2, stride := 0x1, ty := .enum8, acc := .wo, role := .operator, dflt := .num 0, lo := 1, hi := 1 }

/-- 0x2600:04 `sam.pass` (Table of chapter 13): Length of the last completed pass, reference slots included -/
def samPass : Obj :=
  { idx := 0x2600, sub := 0x04, cnt := 2, stride := 0x1, ty := .u16, acc := .ro, role := .observer, dflt := .num 0 }

/-- 0x2600:05 `sam.conversions` (Table of chapter 13): Conversions since start -/
def samConversions : Obj :=
  { idx := 0x2600, sub := 0x05, cnt := 2, stride := 0x1, ty := .u64, acc := .ro, role := .observer, dflt := .num 0 }

/-- 0x2600:06 `sam.urgents` (Table of chapter 13): Urgent conversions; saturates -/
def samUrgents : Obj :=
  { idx := 0x2600, sub := 0x06, cnt := 2, stride := 0x1, ty := .u32, acc := .ro, role := .observer, dflt := .num 0 }

/-- 0x2600:07 `sam.lim_last` (Table of chapter 13): Entry of the last limit event (R348) -/
def samLimLast : Obj :=
  { idx := 0x2600, sub := 0x07, cnt := 2, stride := 0x1, ty := .u8, acc := .ro, role := .observer, dflt := .num 255 }

/-- 0x2600:08 `sam.flags` (Table of chapter 13): Sticky, cleared by read: [7:2] —; [1] REF_ONLY; [0] LIM -/
def samFlags : Obj :=
  { idx := 0x2600, sub := 0x08, cnt := 2, stride := 0x1, ty := .u8, acc := .rws, role := .operator, dflt := .num 0, lo := 0, hi := 255, rsv := 0xFC }

/-- 0x2610:01 `sam.ref_every` (Table of chapter 13): 1–32 (R343). -/
def samRefEvery : Obj :=
  { idx := 0x2610, sub := 0x01, ty := .u8, acc := .rw, role := .owner, pers := .stored, dflt := .num 8, lo := 1, hi := 32 }

/-- 0x2610:02 `sam.ref_tol` (Table of chapter 13): 1–4,096 (R349). -/
def samRefTol : Obj :=
  { idx := 0x2610, sub := 0x02, ty := .u16, acc := .rw, role := .owner, pers := .stored, dflt := .num 48, lo := 1, hi := 4096 }

/-- 0x2610:03 `sam.ref_persist` (Table of chapter 13): 1–64. -/
def samRefPersist : Obj :=
  { idx := 0x2610, sub := 0x03, ty := .u8, acc := .rw, role := .owner, pers := .stored, dflt := .num 3, lo := 1, hi := 64 }

/-- 0x2610:04 `sam.ref_nominal` (Table of chapter 13): Expected reference mean, 16,384–49,152 (R350). CAL -/
def samRefNominal : Obj :=
  { idx := 0x2610, sub := 0x04, ty := .i32, acc := .rw, role := .calibrator, pers := .cal, dflt := .num 31457, lo := 16384, hi := 49152 }

/-- 0x2610:05 `sam.ref_drift_tol` (Table of chapter 13): 100–100,000. -/
def samRefDriftTol : Obj :=
  { idx := 0x2610, sub := 0x05, ty := .u32, acc := .rw, role := .owner, pers := .stored, dflt := .num 2000, lo := 100, hi := 100000 }

/-- 0x2610:06 `sam.ref_mean_a` (Table of chapter 13): Last block mean of A -/
def samRefMeanA : Obj :=
  { idx := 0x2610, sub := 0x06, ty := .i32, acc := .ro, role := .observer, dflt := .num (-2147483648) }

/-- 0x2610:07 `sam.ref_mean_b` (Table of chapter 13): Last block mean of B -/
def samRefMeanB : Obj :=
  { idx := 0x2610, sub := 0x07, ty := .i32, acc := .ro, role := .observer, dflt := .num (-2147483648) }

/-- 0x2610:08 `sam.ref_drift` (Table of chapter 13): R350 -/
def samRefDrift : Obj :=
  { idx := 0x2610, sub := 0x08, ty := .i32, acc := .ro, role := .observer, dflt := .num 0 }

/-- 0x2610:09 `sam.ref_fails` (Table of chapter 13): Failed comparisons; saturates -/
def samRefFails : Obj :=
  { idx := 0x2610, sub := 0x09, ty := .u32, acc := .ro, role := .observer, dflt := .num 0 }

/-- 0x2610:0A `sam.ref_skips` (Table of chapter 13): Blocks not compared; saturates -/
def samRefSkips : Obj :=
  { idx := 0x2610, sub := 0x0A, ty := .u32, acc := .ro, role := .observer, dflt := .num 0 }

/-- 0x2610:0B `sam.vref` (Table of chapter 13): VREF for R352, 1,000,000–3,000,000. CAL -/
def samVref : Obj :=
  { idx := 0x2610, sub := 0x0B, ty := .u32, acc := .rw, role := .calibrator, pers := .cal, dflt := .num 2500000, lo := 1000000, hi := 3000000 }

/-- 0x2610:0C `sam.ref_flags` (Table of chapter 13): Sticky, cleared by read: [7:3] —; [2] DRIFT; [1] DRIFT_WARN; [0] PLAUS -/
def samRefFlags : Obj :=
  { idx := 0x2610, sub := 0x0C, ty := .u8, acc := .rws, role := .operator, dflt := .num 0, lo := 0, hi := 255, rsv := 0xF8 }

/-- 0x2618:01 `sam.mon.pull` (Table of chapter 13): MON0 pull: 0 none, 1 up, 2 down; MONp at subindex p + 1, up to 0x0C (R351). -/
def samMonPull : Obj :=
  { idx := 0x2618, sub := 0x01, gcnt := 12, gstride := 0x1, ty := .enum8, acc := .rw, role := .operator, pers := .stored, dflt := .num 0, lo := 0, hi := 2 }

/-- 0x2620:01 `sam.e.cfg` (Table of chapter 13): Entry word, Table 13.2 (R341, R345). -/
def samECfg : Obj :=
  { idx := 0x2620, sub := 0x01, cnt := 64, stride := 0x1, ty := .u32, acc := .rw, role := .operator, pers := .stored, dflt := .num 0, lo := 0, hi := 4294967295 }

/-- 0x2620:02 `sam.e.align` (Table of chapter 13): 0 right-aligned, 1 left-aligned (R346). -/
def samEAlign : Obj :=
  { idx := 0x2620, sub := 0x02, cnt := 64, stride := 0x1, ty := .enum8, acc := .rw, role := .operator, pers := .stored, dflt := .num 1, lo := 0, hi := 1 }

/-- 0x2620:03 `sam.e.lim_hi` (Table of chapter 13): High limit. -/
def samELimHi : Obj :=
  { idx := 0x2620, sub := 0x03, cnt := 64, stride := 0x1, ty := .i32, acc := .rw, role := .operator, pers := .stored, dflt := .num 2147483647, lo := (-2147483648), hi := 2147483647 }

/-- 0x2620:04 `sam.e.lim_lo` (Table of chapter 13): Low limit, below lim_hi. -/
def samELimLo : Obj :=
  { idx := 0x2620, sub := 0x04, cnt := 64, stride := 0x1, ty := .i32, acc := .rw, role := .operator, pers := .stored, dflt := .num (-2147483648), lo := (-2147483648), hi := 2147483647 }

/-- 0x2620:05 `sam.e.lim_hyst` (Table of chapter 13): Hysteresis (R348). -/
def samELimHyst : Obj :=
  { idx := 0x2620, sub := 0x05, cnt := 64, stride := 0x1, ty := .u16, acc := .rw, role := .operator, pers := .stored, dflt := .num 16, lo := 0, hi := 65535 }

/-- 0x2620:06 `sam.e.lim_act` (Table of chapter 13): 0 none, 1 flag, 2 flag and event, 3 flag, event and fault. -/
def samELimAct : Obj :=
  { idx := 0x2620, sub := 0x06, cnt := 64, stride := 0x1, ty := .enum8, acc := .rw, role := .operator, pers := .stored, dflt := .num 1, lo := 0, hi := 3 }

/-- 0x2620:07 `sam.e.value` (Table of chapter 13): View selected by align -/
def samEValue : Obj :=
  { idx := 0x2620, sub := 0x07, cnt := 64, stride := 0x1, ty := .i32, acc := .ro, role := .observer, dflt := .num 0 }

/-- 0x2620:08 `sam.e.min` (Table of chapter 13): Least c; read restarts (R347) -/
def samEMin : Obj :=
  { idx := 0x2620, sub := 0x08, cnt := 64, stride := 0x1, ty := .i32, acc := .rws, role := .operator, dflt := .num (-2147483648), lo := (-2147483648), hi := 2147483647 }

/-- 0x2620:09 `sam.e.max` (Table of chapter 13): Greatest c; read restarts -/
def samEMax : Obj :=
  { idx := 0x2620, sub := 0x09, cnt := 64, stride := 0x1, ty := .i32, acc := .rws, role := .operator, dflt := .num (-2147483648), lo := (-2147483648), hi := 2147483647 }

/-- 0x2620:0A `sam.e.snap` (Table of chapter 13): Table 13.3 -/
def samESnap : Obj :=
  { idx := 0x2620, sub := 0x0A, cnt := 64, stride := 0x1, ty := .domain, acc := .ro, role := .observer, dflt := .bytes [] }

/-- 0x2620:0B `sam.e.lim_state` (Table of chapter 13): 0 inside, 1 above, 2 below -/
def samELimState : Obj :=
  { idx := 0x2620, sub := 0x0B, cnt := 64, stride := 0x1, ty := .enum8, acc := .ro, role := .observer, dflt := .num 0 }

/-- 0x2620:0C `sam.e.windows` (Table of chapter 13): Window number -/
def samEWindows : Obj :=
  { idx := 0x2620, sub := 0x0C, cnt := 64, stride := 0x1, ty := .u32, acc := .ro, role := .observer, dflt := .num 0 }

/-- 0x2620:0D `sam.e.flags` (Table of chapter 13): Sticky, cleared by read: [7:2] —; [1] LIM_LO; [0] LIM_HI -/
def samEFlags : Obj :=
  { idx := 0x2620, sub := 0x0D, cnt := 64, stride := 0x1, ty := .u8, acc := .rws, role := .operator, dflt := .num 0, lo := 0, hi := 255, rsv := 0xFC }

/-- 0x2660:01 `sam.cal.target` (Table of chapter 13): [15:9] —; [8] converter; [7] DIFF; [6:5] —; [4:0] channel code -/
def samCalTarget : Obj :=
  { idx := 0x2660, sub := 0x01, ty := .u16, acc := .rw, role := .calibrator, dflt := .num 0, lo := 0, hi := 65535, rsv := 0xFE60 }

/-- 0x2660:02 `sam.cal.applied` (Table of chapter 13): Applied voltage, 0 to `sam.vref` single-ended, ±`sam.vref` differential -/
def samCalApplied : Obj :=
  { idx := 0x2660, sub := 0x02, ty := .i32, acc := .rw, role := .calibrator, dflt := .num 0, lo := (-2147483648), hi := 2147483647 }

/-- 0x2660:03 `sam.cal.cmd` (Table of chapter 13): 1 ZERO, 2 SPAN, 3 COMPUTE, 4 ABORT (Table 13.4) -/
def samCalCmd : Obj :=
  { idx := 0x2660, sub := 0x03, ty := .enum8, acc := .wo, role := .calibrator, dflt := .num 0, lo := 1, hi := 4 }

/-- 0x2660:04 `sam.cal.state` (Table of chapter 13): 0 IDLE, 1 ZERO_RUN, 2 ZERO_DONE, 3 SPAN_RUN, 4 SPAN_DONE, 5 DONE, 6 FAILED -/
def samCalState : Obj :=
  { idx := 0x2660, sub := 0x04, ty := .enum8, acc := .ro, role := .observer, dflt := .num 0 }

/-- 0x2660:05 `sam.cal.result` (Table of chapter 13): 0 none, 1 OK, 2 SPAN_SMALL, 3 OVERRANGE, 4 ABORTED -/
def samCalResult : Obj :=
  { idx := 0x2660, sub := 0x05, ty := .enum8, acc := .ro, role := .observer, dflt := .num 0 }

/-- 0x2660:06 `sam.cal.gain` (Table of chapter 13): g of the last COMPUTE -/
def samCalGain : Obj :=
  { idx := 0x2660, sub := 0x06, ty := .q32, acc := .ro, role := .observer, dflt := .q 0 0 }

/-- 0x2660:07 `sam.cal.offset` (Table of chapter 13): o of the last COMPUTE -/
def samCalOffset : Obj :=
  { idx := 0x2660, sub := 0x07, ty := .i32, acc := .ro, role := .observer, dflt := .num 0 }

/-- 0x2680:01 `axd.mode` (Table of chapter 13): 0–3 (R355). -/
def axdMode : Obj :=
  { idx := 0x2680, sub := 0x01, cnt := 4, stride := 0x1, ty := .enum8, acc := .rw, role := .operator, pers := .stored, dflt := .num 0, lo := 0, hi := 3 }

/-- 0x2680:02 `axd.level` (Table of chapter 13): Mode 0 value. -/
def axdLevel : Obj :=
  { idx := 0x2680, sub := 0x02, cnt := 4, stride := 0x1, ty := .u16, acc := .rw, role := .operator, pers := .stored, dflt := .num 0, lo := 0, hi := 65535 }

/-- 0x2680:03 `axd.div` (Table of chapter 13): Sample period, 100–16,777,216 (R356). -/
def axdDiv : Obj :=
  { idx := 0x2680, sub := 0x03, cnt := 4, stride := 0x1, ty := .u32, acc := .rw, role := .operator, pers := .stored, dflt := .num 1000, lo := 100, hi := 16777216 }

/-- 0x2680:04 `axd.start` (Table of chapter 13): 0 command only, 1 also AXD_TRIGk. -/
def axdStart : Obj :=
  { idx := 0x2680, sub := 0x04, cnt := 4, stride := 0x1, ty := .enum8, acc := .rw, role := .operator, pers := .stored, dflt := .num 0, lo := 0, hi := 1 }

/-- 0x2680:05 `axd.len` (Table of chapter 13): Mode 2 length, 1–256. -/
def axdLen : Obj :=
  { idx := 0x2680, sub := 0x05, cnt := 4, stride := 0x1, ty := .u16, acc := .rw, role := .operator, pers := .stored, dflt := .num 256, lo := 1, hi := 256 }

/-- 0x2680:06 `axd.cmd` (Table of chapter 13): 1 ARM, 2 START, 3 STOP, 4 STEP, 5 FLUSH -/
def axdCmd : Obj :=
  { idx := 0x2680, sub := 0x06, cnt := 4, stride := 0x1, ty := .enum8, acc := .wo, role := .operator, dflt := .num 0, lo := 1, hi := 5 }

/-- 0x2680:07 `axd.push` (Table of chapter 13): 2–512 bytes, little-endian U16 values (R356) -/
def axdPush : Obj :=
  { idx := 0x2680, sub := 0x07, cnt := 4, stride := 0x1, ty := .domain, acc := .wo, role := .operator, dflt := .bytes [] }

/-- 0x2680:08 `axd.table` (Table of chapter 13): Exactly 512 bytes; written in IDLE only -/
def axdTable : Obj :=
  { idx := 0x2680, sub := 0x08, cnt := 4, stride := 0x1, ty := .domain, acc := .rw, role := .operator, dflt := .bytes [] }

/-- 0x2680:09 `axd.state` (Table of chapter 13): 0 IDLE, 1 ARMED, 2 RUN -/
def axdState : Obj :=
  { idx := 0x2680, sub := 0x09, cnt := 4, stride := 0x1, ty := .enum8, acc := .ro, role := .observer, dflt := .num 0 }

/-- 0x2680:0A `axd.fill` (Table of chapter 13): FIFO fill -/
def axdFill : Obj :=
  { idx := 0x2680, sub := 0x0A, cnt := 4, stride := 0x1, ty := .u16, acc := .ro, role := .observer, dflt := .num 0 }

/-- 0x2680:0B `axd.out` (Table of chapter 13): u in force -/
def axdOut : Obj :=
  { idx := 0x2680, sub := 0x0B, cnt := 4, stride := 0x1, ty := .u16, acc := .ro, role := .observer, dflt := .num 0 }

/-- 0x2680:0C `axd.underruns` (Table of chapter 13): Saturates -/
def axdUnderruns : Obj :=
  { idx := 0x2680, sub := 0x0C, cnt := 4, stride := 0x1, ty := .u32, acc := .ro, role := .observer, dflt := .num 0 }

/-- 0x2680:0D `axd.safe_en` (Table of chapter 13): Safe code at SAFE entry. -/
def axdSafeEn : Obj :=
  { idx := 0x2680, sub := 0x0D, cnt := 4, stride := 0x1, ty := .bool, acc := .rw, role := .owner, pers := .stored, dflt := .num 0, lo := 0, hi := 1 }

/-- 0x2680:0E `axd.safe_code` (Table of chapter 13):  -/
def axdSafeCode : Obj :=
  { idx := 0x2680, sub := 0x0E, cnt := 4, stride := 0x1, ty := .u16, acc := .rw, role := .owner, pers := .stored, dflt := .num 0, lo := 0, hi := 65535 }

/-- 0x2680:0F `axd.init` (Table of chapter 13): Value at domain start (R358). -/
def axdInit : Obj :=
  { idx := 0x2680, sub := 0x0F, cnt := 4, stride := 0x1, ty := .u16, acc := .rw, role := .owner, pers := .stored, dflt := .num 0, lo := 0, hi := 65535 }

/-- 0x2680:10 `axd.rb_src` (Table of chapter 13): [7] converter; [6:5] —; [4:0] entry; 0xFF off (R357). -/
def axdRbSrc : Obj :=
  { idx := 0x2680, sub := 0x10, cnt := 4, stride := 0x1, ty := .u8, acc := .rw, role := .owner, pers := .stored, dflt := .num 255, lo := 0, hi := 255, alts := [255], rsv := 0x60 }

/-- 0x2680:11 `axd.rb_tol` (Table of chapter 13): 1–4,096. -/
def axdRbTol : Obj :=
  { idx := 0x2680, sub := 0x11, cnt := 4, stride := 0x1, ty := .u16, acc := .rw, role := .owner, pers := .stored, dflt := .num 64, lo := 1, hi := 4096 }

/-- 0x2680:12 `axd.rb_settle` (Table of chapter 13): 0–100,000,000. -/
def axdRbSettle : Obj :=
  { idx := 0x2680, sub := 0x12, cnt := 4, stride := 0x1, ty := .u32, acc := .rw, role := .owner, pers := .stored, dflt := .num 10000, lo := 0, hi := 100000000 }

/-- 0x2680:13 `axd.rb_persist` (Table of chapter 13): 1–64. -/
def axdRbPersist : Obj :=
  { idx := 0x2680, sub := 0x13, cnt := 4, stride := 0x1, ty := .u8, acc := .rw, role := .owner, pers := .stored, dflt := .num 3, lo := 1, hi := 64 }

/-- 0x2680:14 `axd.rb_dev` (Table of chapter 13): Last compared deviation -/
def axdRbDev : Obj :=
  { idx := 0x2680, sub := 0x14, cnt := 4, stride := 0x1, ty := .i32, acc := .ro, role := .observer, dflt := .num 0 }

/-- 0x2680:15 `axd.flags` (Table of chapter 13): Sticky, cleared by read: [7:3] —; [2] RBCFG; [1] MISMATCH; [0] UNDERRUN -/
def axdFlags : Obj :=
  { idx := 0x2680, sub := 0x15, cnt := 4, stride := 0x1, ty := .u8, acc := .rws, role := .operator, dflt := .num 0, lo := 0, hi := 255, rsv := 0xF8 }

/-- The rows above, part 0. -/
def objectsStation0 : List Obj :=
  [ptRecord, ptMode, ptBind, ptChanB, ptTin, ptSeg, ptCalTag, ptLevel, ptPath, ptPathSettle, ptSettle, ptVPos,
   ptVNeg, ptIPos, ptINeg, ptRng, ptApMode, ptApQty, ptApStart, ptDest, ptApLen, ptApPhase, ptApCount, ptAlarmMaj,
   ptPolySrc, ptPolyXs, ptPolyExp, ptPolyC0, ptAlarmHi, ptAlarmLo, ptAlarmHyst, ptWindow, ptUnit, ptListen,
   ptState, ptStatus, ptAlarmState, ptAlarmVotes, ptUsed, ptLastStart]

/-- The rows above, part 1. -/
def objectsStation1 : List Obj :=
  [ptEng, ptRuns, ptConflicts, ptSkips, ptCmd, scanState, scanCmd, scanSrc, scanList, scanLen, scanTStart,
   scanPeriod, scanCycPeriod, scanCycPhase, scanRuns, scanLate, scanLateTol, scanRunCount, scanLateCount,
   scanSkipped, scanLastStart, scanNext, scanEntry, scanFlags, rbEnable, rbDrivers, rbState, rbCmd, rbAuditMs,
   rbSilent, rbMismatches, rbFrames, rbImage, rbReadback, rbOrphans, rbCount, rbCountLimit, rbCountClear, rbWorn,
   pscPoolLo]

/-- The rows above, part 2. -/
def objectsStation2 : List Obj :=
  [pscPoolHi, pscPending, pscGranted, pscTies, pscAlarms, pscSuspended, ctbSrc, ctbTin, ctbMon, ctbMonLevel,
   ctbMonHyst, ctbEncCpr, ctbPhaseOffset, ctbGate, ctbCoast, ctbLockN, ctbLoopA, ctbLoopB, ctbCmd, ctbState,
   ctbSnap, ctbCycle, ctbPhase, ctbFreq, ctbPeriod, ctbPhaseErr, ctbEdges, ctbRejects, ctbStalls, ctbLastStall,
   ctbStallTime, ctbPassed, ctbFlags, ctbPosition, ctbHighwater, ctbEncErrors, ctbEpoch, ctbEvtEnable, ctbEvtPhase,
   ctbEvtEvery]

/-- The rows above, part 3. -/
def objectsStation3 : List Obj :=
  [ctbEvtOrigin, ctbEvtCount, ctbEvtMissed, todSrcOrder, todPpsTin, todPpsDelay, todStepThresh, todStepEnable,
   todSlewMax, todLoopA, todLoopB, todQualN, todLossN, todSwitchHoldoff, todHoldoverMax, todUtcSrc, todRtcSync,
   todRtcAutotrim, todRtcTrim, todState, todSrc, todTime, todSnap, todOffset, todFreqAdj, todQual, todSteps,
   todLastStep, todRejects, todHoldoverTime, todRtcValid, todFlags, todSet, todCalSet, todSetMode, todSetPending,
   todCmd, todUtcOffset, todLeapAt, todLeapDir]

/-- The rows above, part 4. -/
def objectsStation4 : List Obj :=
  [todLeapCount, tiuInThresh, tiuInHyst, tiuInSlope, tiuInLatchClr, tiuInLatchPeriod, tiuInStuck, tiuInWake,
   tiuInCmd, tiuInLevel, tiuInLatch, tiuInState, tiuInEdges, tiuInLastEdge, tiuInOverrates, tiuInFlags, tiuMMode,
   tiuMSlope, tiuMGate, tiuMStopTin, tiuMStopSlope, tiuMSkip, tiuMPeriods, tiuMWindow, tiuMTimeout, tiuMCmd,
   tiuMState, tiuMStatus, tiuMResult, tiuMSpan, tiuMCount, tiuMTFirst, tiuMCal, tiuMDone, tiuMOverruns, tiuMFlags,
   ermState, ermSoft, ermLevels, ermOverruns]

/-- The rows above, part 5. -/
def objectsStation5 : List Obj :=
  [ermDeferred, ermDropped, ermInSel, ermInOverruns, ermInFlags, ermLutIn, ermLutTruth, ermLutFf, ermLutClk,
   ermLutFilter, ermLutOut, ermLutRises, ermEvioDir, ermEvioOutMode, ermEvioWidth, ermEvioWake, ermEvioLevel,
   ermEvioChanges, ermSysGate, ermSysAbsent, ermSysLevel, ermSysChanges, ermSysStale, ermScanMap, samState,
   samUrgEntry, samCmd, samPass, samConversions, samUrgents, samLimLast, samFlags, samRefEvery, samRefTol,
   samRefPersist, samRefNominal, samRefDriftTol, samRefMeanA, samRefMeanB, samRefDrift]

/-- The rows above, part 6. -/
def objectsStation6 : List Obj :=
  [samRefFails, samRefSkips, samVref, samRefFlags, samMonPull, samECfg, samEAlign, samELimHi, samELimLo,
   samELimHyst, samELimAct, samEValue, samEMin, samEMax, samESnap, samELimState, samEWindows, samEFlags,
   samCalTarget, samCalApplied, samCalCmd, samCalState, samCalResult, samCalGain, samCalOffset, axdMode, axdLevel,
   axdDiv, axdStart, axdLen, axdCmd, axdPush, axdTable, axdState, axdFill, axdOut, axdUnderruns, axdSafeEn,
   axdSafeCode, axdInit]

/-- The rows above, part 7. -/
def objectsStation7 : List Obj :=
  [axdRbSrc, axdRbTol, axdRbSettle, axdRbPersist, axdRbDev, axdFlags]

/-- Every row of this file. -/
def objectsStation : List Obj := objectsStation0 ++ objectsStation1 ++ objectsStation2 ++ objectsStation3 ++ objectsStation4 ++ objectsStation5 ++ objectsStation6 ++ objectsStation7

end Sys2Proof.Machine.O
end

