-- ==== Sys2Proof/Machine/TypesAnalog.lean ====
section
/-! DEFINITION. The supervisory converters and the auxiliary outputs beside their objects (chapter 13). -/
namespace Sys2Proof.Machine

/-- One entry of a converter.  Clocks are CLK_SAM clocks of 20 ns of uptime. -/
structure SamEntry where
  /-- Entry word in force, and the clock at which a newer one was written (R345). -/
  word : Nat := 0
  wroteAt : Option Nat := none
  /-- Accumulator, count, clock of the window's first conversion (R346). -/
  s : Int := 0
  n : Nat := 0
  firstAt : Nat := 0
  /-- Latched views and stamp; none before the first window. -/
  sum : Int := 0
  mean : Int := 0
  stamp : Option Int := none
  deriving DecidableEq, Repr

/-- One converter: the slot to be sampled next begins at clock `clock`. -/
structure SamConv where
  clock : Nat := 0
  /-- Next entry of the walk, entries sampled since the last reference slot, first clock of the pass. -/
  pos : Nat := 0
  sinceRef : Nat := 0
  passAt : Nat := 0
  /-- Urgent slots asked for: first clock and conversion clock, oldest first (R344). -/
  urgent : List (Nat × Nat) := []
  entries : Vector SamEntry 32 := Vector.replicate 32 {}
  /-- Reference block in progress, blocks complete, means not yet compared by block number (R349). -/
  refSum : Int := 0
  refN : Nat := 0
  blocks : Nat := 0
  means : List (Nat × Int) := []
  /-- Blocks in a row with the drift at half and at the whole of its tolerance (R350). -/
  warnRun : Nat := 0
  severeRun : Nat := 0
  deriving DecidableEq, Repr

/-- Both converters and the system calibration (Table 13.4). -/
structure Sam where
  a : SamConv := {}
  b : SamConv := {}
  fails : Nat := 0
  passes : Nat := 0
  calSum : Int := 0
  calN : Nat := 0
  e0 : Int := 0
  e1 : Int := 0
  m0 : Int := 0
  m1 : Int := 0
  deriving DecidableEq, Repr

/-- One auxiliary output. -/
structure Axd where
  /-- Queue memory of 256 entries, read position, mode 2 index. -/
  mem : Tab Nat := []
  rd : Nat := 0
  i : Nat := 0
  /-- Uptime in ns of the grid origin; of the last change of u, and of the one before with the value that it ended. -/
  origin : Nat := 0
  uAt : Nat := 0
  uPrev : Nat := 0
  uPrevAt : Nat := 0
  fails : Nat := 0
  passes : Nat := 0
  deriving DecidableEq, Repr

end Sys2Proof.Machine
end

