-- ==== Sys2Proof/Machine/TypesChan.lean ====
section
/-! DEFINITION. What one channel holds beside its objects: the loop context (chapter 3), region and repetitive state
(chapter 4), ranging and compliance (chapter 5), apertures (chapter 6); and the trace of a lane. -/
namespace Sys2Proof.Machine

/-- A calibrated value: loop units of its range, physical units, range index, over-range mark (R102-R104); `nom` is the
nominal value before calibration. -/
structure CVal where
  cal : Int
  phys : Int
  rng : Nat
  excess : Bool
  nom : Int
  deriving DecidableEq, Repr

/-- What MAU takes of a frame's current (R169). -/
inductive Use where
  | act | nbr | gap
  deriving DecidableEq, Repr

/-- One processed frame of a channel (R35, R170). -/
structure Smp where
  ok : Bool := false
  v : Option CVal := none
  i : Option CVal := none
  nb : Option CVal := none
  use : Use := .act
  igap : Bool := false
  vgap : Bool := false
  added : Bool := false
  /-- Sample frame and its instant (R72). -/
  k : Nat := 0
  t : Int := 0
  /-- Order number of the aperture the frame belongs to, 0 for none. -/
  ap : Nat := 0
  hold : Bool := false
  comp : Bool := false
  uncal : Bool := false
  chkDone : Bool := false
  chkFail : Bool := false
  chkBad : Bool := false
  chkOn : Bool := false
  deriving DecidableEq, Repr

/-- Table 6.1, one quantity. -/
structure QAcc where
  n : Nat := 0
  x0 : Int := 0
  s1 : Int := 0
  s2 : Int := 0
  vmin : Int := 0
  vmax : Int := 0
  rlo : Nat := 0
  rhi : Nat := 0
  tfirst : Int := 0
  tlast : Int := 0
  kfirst : Nat := 0
  klast : Nat := 0
  /-- A limit has been reached: nothing more is added (R202). -/
  full : Bool := false
  deriving DecidableEq, Repr

/-- An accumulator W or C (R183). -/
structure Acc where
  v : QAcc := {}
  i : QAcc := {}
  bind : Nat := 0xFFFF
  flags : Nat := 0
  compares : Nat := 0
  fails : Nat := 0
  failed : Bool := false
  chkOn : Bool := false
  restarts : Nat := 0
  aps : Nat := 0
  deriving DecidableEq, Repr

/-- The scale of a channel's sums: the shifts of R184 and the full scales by range, nV and fA. -/
structure Scale where
  kv : Nat := 0
  ki : Nat := 0
  fsV : List Int := []
  fsI : List Int := []
  deriving DecidableEq, Repr

/-- C when occupied: its sums, outcome, primary quantity (true current), destination, the frame of its first DECIDE and the
scale its sums were made in. -/
structure Pending where
  acc : Acc
  outcome : Nat
  qtyI : Bool
  dest : Nat
  frame : Nat
  scale : Scale
  deriving DecidableEq, Repr

/-- An aperture that is open or in its confirm window (Table 5.3). -/
structure ApCtx where
  id : Nat
  /-- Processed frame of the last sample frame, once known. -/
  last : Option Nat := none
  flags : Nat := 0
  restarts : Nat := 0
  /-- The end frame of the last gap that it has met. -/
  gapMark : Nat := 0
  /-- The instant of the first frame that has added a value to it. -/
  tfirst : Option Int := none
  deriving DecidableEq, Repr

/-- The parameters an aperture sequence runs under: the channel's +0xA objects or the point's fields (R206). -/
structure ApCfg where
  mode : Nat := 0
  len : Nat := 0
  lenCyc : Nat := 0
  phase : Nat := 0
  settle : Nat := 0
  count : Nat := 0
  qty : Nat := 0
  dest : Nat := 0
  bind : Nat := 0xFFFF
  deriving DecidableEq, Repr

/-- The aperture sequence of a channel (R186-R192). -/
structure ApSeq where
  running : Bool := false
  cfg : ApCfg := {}
  t0 : Int := 0
  /-- Settle reference, first frame of the aperture to open or after the gap. -/
  ref : Option Nat := none
  k0 : Option Nat := none
  /-- Mode 0: the first frame of the grid that the next aperture counts from; mode 1: the start value likewise (R191). -/
  org : Option Nat := none
  /-- Mode 1: the absolute tick from which the CTB has still to be looked at; the start value waited for where it is not an
  instant of the phase; the end value of the aperture in progress; whether it has been restarted and its end is still to be
  placed; whether its start edge was placed while coasting. -/
  seek : Nat := 0
  vs : Option Nat := none
  ve : Option Nat := none
  again : Bool := false
  coasted : Bool := false
  done : Nat := 0
  nextId : Nat := 1
  stopAt : Option Int := none
  /-- Open and closing apertures, oldest first. -/
  aps : List ApCtx := []
  /-- Step starts reported by the sequencer (R225): first sample frame of each step, oldest first; the end of steps. -/
  steps : List Nat := []
  stepsEnd : Option Nat := none
  deriving DecidableEq, Repr

/-- What a bound point puts in the place of the channel's own objects (R239): force mode, target source and static level,
limits and range policy where the point gives them. -/
structure Over where
  point : Nat
  mode : Nat
  src : Nat
  level : Int
  limV : Option (Int × Int) := none
  limI : Option (Int × Int) := none
  /-- Bytes i_floor, i_ceil, i_pin, v_floor, v_ceil, v_pin: 0 the channel's own, k + 1 index k. -/
  rng : List Nat := []
  deriving DecidableEq, Repr

/-- One channel. -/
structure Chan where
  hist : List Smp := []
  /-- Persistent state of R108. -/
  integ : Int := 0
  dState : Int := 0
  dPrevIn : Int := 0
  uPrev : Int := 0
  /-- Soft-start (R119-R121). -/
  rEff : Int := 0
  ramp : Bool := false
  lastTarget : Int := 0
  /-- Table 3.5: frame from which the Sensing or Opening row may be met. -/
  readyAt : Nat := 0
  drainFirst : Bool := false
  /-- The held DAC code a reattach resumes from (R118). -/
  reattach : Option Int := none
  /-- The first inner iteration after an engagement has still to trigger soft-start (R119). -/
  trigPend : Bool := false
  /-- What the last completed iteration used (R133); none after lane memory clearing. -/
  had : Bool := false
  hadSet : Nat := 0
  hadCur : Bool := false
  hadRRng : Nat := 0
  hadFRng : Nat := 0
  hadComp : Nat := 0
  hadRep : Int := 0
  region : Option Nat := none
  dwellIter : Nat := 0
  /-- Frames of the last iterations abandoned, newest first (R113, R407). -/
  missLog : List Nat := []
  /-- Cascade (R122-R126): engagement commit frame, inner iterations since tick 0, stale run, held target, the frames the
  outer's next mean covers. -/
  engagedAt : Option Nat := none
  ticked : Bool := false
  innerN : Nat := 0
  staleRun : Nat := 0
  cascTarget : Int := 0
  cascHeld : Option Int := none
  outerFrames : Nat := 0
  outerFirst : Bool := true
  /-- Targets the outer has published: tick frame and target. -/
  cascNew : List (Nat × Int) := []
  /-- Repetitive controller: bins, bins and context words in uncorrectable error, previous learning index, absorbed. -/
  bins : Tab Int := []
  binErr : List Nat := []
  binErr1 : List Nat := []
  ctxErr : List Nat := []
  ctxErr1 : List Nat := []
  /-- Coefficient words (8 × set + field) in uncorrectable and in single-bit error. -/
  coefErr : List Nat := []
  coefErr1 : List Nat := []
  repXp : Option Nat := none
  repAbsorbed : Bool := false
  lastL : Int := 0
  lastBin : Int := 0
  /-- Trace taps 3..20, 22, 23 as last latched, by tap number (R145). -/
  taps : Tab Int := []
  /-- Ranging: active ranges, neighbour, filters, counts. -/
  iAct : Nat := 0
  vAct : Nat := 0
  narm : Bool := false
  ndir : Bool := false
  mf : Int := 0
  ms : Int := 0
  filtReset : Bool := true
  predAt : Option Nat := none
  armCount : Nat := 0
  nS : Nat := 0
  dS : Int := 0
  dwell : Nat := 0
  /-- First frame after the transition interval of the current and of the voltage range. -/
  iTransEnd : Nat := 0
  vTransEnd : Nat := 0
  stitchUntil : Nat := 0
  iGapUntil : Nat := 0
  vGapUntil : Nat := 0
  gapSeen : Bool := false
  policyPend : Bool := false
  policyWait : Bool := false
  reselect : Bool := false
  /-- Limits and range settings in force while a write of them waits for its point (R180, R182), by `rngKey`. -/
  rngHeld : Tab Int := []
  latch : Nat := 0
  absV : Nat := 0
  absI : Nat := 0
  /-- Point that has bound the channel. -/
  override : Option Over := none
  /-- Checker runs (R197): comparisons in a row against the present state, voltage and current. -/
  chkRunV : Nat := 0
  chkRunI : Nat := 0
  /-- Apertures. -/
  ap : ApSeq := {}
  w : Acc := {}
  /-- W as it stood when it was held for another binding, and the outcome tied to it (Table 6.6). -/
  wHeld : Option Acc := none
  wOut : Nat := 0
  c : Option Pending := none
  resSeq : Nat := 0
  lastRec : Bytes := []
  /-- Refreshes in a row that disagree, per cause (R408). -/
  divRuns : List Nat := [0, 0, 0, 0]
  /-- The stored image's enable, for R88 and R406, until the lane's first entry into RUN. -/
  bootEnable : Bool := false
  /-- The last sequencer value delivered; the iteration whose value was lost with PD13; the value the lane has latched since
(R228, R229). -/
  seqLast : Option Int := none
  seqLost : Option Nat := none
  seqLatch : Option Int := none
  /-- Flags set in any iteration since the previous trace frame (Table 4.7, source 3). -/
  traceFlags : Nat := 0
  deriving DecidableEq, Repr

/-- One captured trace row: eight words and the set of those in uncorrectable error (R575). -/
structure TRow where
  vals : List Int
  bad : Nat := 0
  deriving DecidableEq, Repr

/-- The trace of a lane (R145-R150). -/
structure Trace where
  frames : Nat := 0
  rows : List TRow := []
  captured : Nat := 0
  post : Nat := 0
  held : Bool := false
  forced : Bool := false
  prevProbe : Option Int := none
  deriving DecidableEq, Repr

/-- A record in the result pool (R198, R199). -/
structure PoolRec where
  bytes : Bytes
  chan : Nat
  point : Nat
  seq : Nat
  dest : Nat
  /-- Set once placed in journal staging, with its sequence. -/
  jseq : Nat := 0
  /-- Its words in bank 1: 0 clean, 1 a single-bit error, 2 uncorrectable. -/
  ecc : Nat := 0
  deriving DecidableEq, Repr

end Sys2Proof.Machine
end

