-- ==== Sys2Proof/Machine/TypesErm.lean ====
section
/-! DEFINITION. Event routing (chapter 12). -/
namespace Sys2Proof.Machine

/-- One logic cell beside its objects (R329). -/
structure Lut where
  /-- The last values of v, newest first; f; clock signal seen in the last cycle. -/
  hist : List Bool := []
  f : Bool := false
  clkWas : Bool := false
  /-- A write of ff, filter or clk takes effect at the next cycle (R330). -/
  clear : Bool := false
  deriving DecidableEq, Repr

/-- The routing matrix. -/
structure Erm where
  /-- Events that have fallen due and are not yet issued: producer and stamp, in order. -/
  due : List (Nat × Int) := []
  /-- Producers that issued in the last cycle, as a mask. -/
  issued : Nat := 0
  /-- Producers with a deferred event, as a mask (R323). -/
  held : Nat := 0
  /-- A mark that journal staging has not yet taken. -/
  mark : Option Int := none
  /-- Signals of the last cycle, by producer, ONE among them; stamps of the latest change or event. -/
  sig : Nat := 2
  stamps : Tab Int := []
  latStamp : Tab Int := []
  /-- Edge detectors: signal of each consumer input in the last cycle, inputs under a new selector. -/
  was : Nat := 0
  fresh : Nat := 0
  /-- Inputs that saw a rising edge in the last cycle, with the stamp. -/
  edges : List (Nat × Int) := []
  luts : Vector Lut 32 := Vector.replicate 32 {}
  /-- Event pins: level on each pin from outside, first synchroniser stage with its capture stamp, driven level, pulses running,
  signal of each output consumer. -/
  pins : Nat := 0
  sync1 : Nat := 0
  syncAt : Tab Int := []
  drive : Nat := 0
  pulse : Nat := 0
  /-- System event lines: this node's terms, samples not yet released (release instant and line values), delivered values. -/
  terms : Nat := 0xFFFF
  samples : List (Int × Nat) := []
  /-- The last 512 changes of this node's gated terms, oldest first (R447). -/
  termLog : List (Int × Nat) := []
  sys : Nat := 0
  deriving DecidableEq, Repr

end Sys2Proof.Machine
end

