-- ==== Sys2Proof/Machine/TypesLink.lean ====
section
/-! DEFINITION. What a lane holds of its Sward link beside its objects (chapter 2): frames, message channel, descriptor and
the last STATUS. -/
namespace Sys2Proof.Machine

/-- The samples of one slot in an up-frame with the aux byte that describes them (R56, R58, R59). -/
structure UpSlot where
  v : Int := -8388608
  i : Int := -8388608
  nb : Int := -8388608
  irng : Nat := 0
  vrng : Nat := 0
  ndir : Bool := false
  deriving DecidableEq, Repr

/-- One 8-byte message segment (R73, Table 2.9). -/
structure Seg where
  valid : Bool := false
  som : Bool := false
  eom : Bool := false
  tseq : Nat := 0
  aseq : Nat := 0
  avalid : Bool := false
  payload : Bytes := []
  deriving DecidableEq, Repr

/-- An accepted up-frame (Tables 2.1 to 2.4) with its round trip in ps (R71). -/
structure UpFrame where
  fcount : Nat
  sstate : Nat
  dnerr : Bool
  descchg : Bool
  sfault : Bool
  attn : Nat
  slots : List UpSlot
  chkSlot : Nat
  chkQty : Nat
  chkRng : Nat
  chkVal : Int
  seg : Seg
  rtt : Int := 0
  deriving DecidableEq, Repr

/-- A message of the Sward channel (R75). -/
structure LMsg where
  typ : Nat
  tag : Nat
  body : Bytes
  deriving DecidableEq, Repr

/-- One range entry of a descriptor (Table 2.13). -/
structure RangeEntry where
  fullScale : Int
  adcFs : Int
  dacFs : Int
  settle : Nat
  neighbour : Bool
  maxForce : Int
  deriving DecidableEq, Repr

/-- A descriptor that met R78 (Tables 2.12 and 2.13), with the bytes as received. -/
structure Desc where
  raw : Bytes
  cls : Nat
  serial : Bytes
  slots : Nat
  latency : Nat
  checker : Nat
  connect : Nat
  slewV : Int
  slewI : Int
  absV : Int
  absI : Int
  irng : List RangeEntry
  vrng : List RangeEntry
  crc : Nat
  deriving DecidableEq, Repr

/-- The per-slot part of a STATUS body (Table 2.11). -/
structure SlotStatus where
  dac : Int
  cmd : Nat
  flags : Nat
  deriving DecidableEq, Repr

/-- A STATUS body (Table 2.11). -/
structure SStatus where
  state : Nat
  token : Nat
  boot : Nat
  holdUs : Nat
  timeoutUs : Nat
  crc : Nat
  rejected : Nat
  slots : List SlotStatus
  deriving DecidableEq, Repr

/-- What the lane does once the descriptor it is reading has been accepted (Table 2.16, DESCRIBE rows). -/
inductive DescThen where
  | reattach | safe | idle | safed
  deriving DecidableEq, Repr

/-- What one slot was last sent: the DAC code and the command word (Table 2.7), always together (R107). -/
structure SlotOut where
  dac : Int := 0
  mode : Nat := 2
  ocon : Bool := false
  scon : Bool := false
  pull : Bool := false
  irng : Nat := 0
  vrng : Nat := 0
  narm : Bool := false
  ndir : Bool := false
  deriving DecidableEq, Repr

/-- The link state of one lane. -/
structure Link where
  /-- Up-frames accepted and held until the start of controller frame j + 3, by j (R38); up-frames already rejected. -/
  swl : Tab UpFrame := []
  rejectedAt : List Nat := []
  /-- First frame sent since transmission began; whether the lane transmits. -/
  txFrom : Nat := 0
  transmitting : Bool := false
  /-- Up-frames accepted in a row in this alignment with their round trips in ps, newest first (R71); rejected in a row. -/
  upRun : Nat := 0
  badRun : Nat := 0
  rtts : List Int := []
  /-- Training attempt (Table 2.16), down-frames with LCMD = IDLE still to send before TRAIN (R74). -/
  attempt : Nat := 0
  idleLeft : Nat := 0
  aligned : Bool := false
  polInForce : Nat := 0
  /-- Message channel, transmit side (R74, R75): requests waiting, request outstanding with the frame of its first segment,
  segments still to send, the one in flight, whether it goes in the next down-frame, its resends. -/
  txQueue : List (Nat × Bytes) := []
  request : Option LMsg := none
  requestAt : Option Nat := none
  nextTag : Nat := 1
  txSegs : List Bytes := []
  txFirst : Bool := false
  txSeq : Nat := 0
  inFlight : Bool := false
  txPending : Bool := false
  txResends : Nat := 0
  reSetHold : Bool := false
  /-- Receive side: TSEQ last accepted, message being assembled. -/
  rxLast : Option Nat := none
  rxPart : Option Bytes := none
  /-- Frame in which the message being assembled, or the last one, began to arrive (R407). -/
  rxFrom : Nat := 0
  /-- Descriptor being read, and held; last STATUS; CMD_REFUSED last taken in: slot and word (R63). -/
  descBuf : Bytes := []
  descWant : Nat := 0
  descThen : DescThen := .idle
  attach : Bool := false
  desc : Option Desc := none
  status : Option SStatus := none
  refused : Option (Nat × Nat) := none
  /-- Since the last mirror refresh: a STATUS arrived, an up-frame was accepted; the span of the compared STATUS (R407). -/
  statusNew : Bool := false
  upNew : Bool := false
  lastUp : Option UpFrame := none
  lastUpJ : Nat := 0
  statusFrom : Nat := 0
  statusTo : Nat := 0
  /-- Down side: lane command, slot outputs, symbols of the last down-frame, slot outputs of the last down-frames with their
  frame numbers, newest first (R407). -/
  lcmd : Nat := 1
  outs : Vector SlotOut 8 := Vector.replicate 8 {}
  down : List Sym := []
  /-- The down-link is inverted after coding (R55). -/
  downInv : Bool := false
  sentLog : List (Nat × List SlotOut) := []
  /-- Slot outputs sent over the span of the last STATUS, and the slots that abandoned an iteration in it (R407). -/
  span : List (List SlotOut) := []
  spanMiss : Nat := 0
  /-- Block counting (R34, R86, R98): first frame with LCMD = RUN, divisor and first frame of the block in progress,
  iteration frames to come with the divisor of their block. -/
  m0 : Option Nat := none
  /-- First down-frame sent in lane state RUN since its last entry, whatever its LCMD (R90). -/
  runFrom : Option Nat := none
  divNow : Nat := 1
  blockAt : Nat := 0
  iters : List (Nat × Nat) := []
  /-- Uptime of entry into TRAIN, RETRAIN, DRAIN and FAULT. -/
  trainAt : Nat := 0
  retrainAt : Nat := 0
  inRetrain : Bool := false
  /-- The deadline of RETRAIN passed while the lane was realigned and read STATUS (Table 2.16). -/
  retrainLate : Bool := false
  drainAt : Nat := 0
  faultAt : Nat := 0
  switchingOff : Bool := false
  cycleReset : Bool := false
  /-- Slots safed by the controller; IDLE expected, after a release of every slot or of a slice that was not taken to RUN
  (R64, R65, R83). -/
  safed : Nat := 0
  expectIdle : Bool := false
  /-- Slots that match for reattach (R88). -/
  matched : Nat := 0
  autostarted : Bool := false
  deriving DecidableEq, Repr

end Sys2Proof.Machine
end

