-- ==== Sys2Proof/Machine/TypesNet.lean ====
section
/-! DEFINITION. What the network interfaces and the Hedgerow ring hold beside their objects (chapter 17). -/
namespace Sys2Proof.Machine

/-- An entry of an ARP cache (R426): address, MAC address, uptime of its last confirmation. -/
structure Arp where
  ip : Nat
  mac : Nat
  seen : Nat
  deriving DecidableEq, Repr

/-- One interface.  `dhcp`: 0 no exchange, 1 discovering, 2 requesting, 3 bound, 4 renewing, 5 rebinding. -/
structure Iface where
  dhcp : Nat := 0
  server : Nat := 0
  offered : Nat := 0
  mask : Nat := 0
  xid : Nat := 0
  /-- Router of the lease; uptime at which the lease ends; datagrams that wait for an ARP reply: next hop and packet. -/
  gw : Nat := 0
  leaseEnd : Nat := 0
  wait : List (Nat × Bytes) := []
  arp : List Arp := []
  /-- Echo replies sent in the second of uptime that began at `icmpAt`. -/
  icmpAt : Nat := 0
  icmpN : Nat := 0
  /-- The PTP groups are joined (IGMPv2 reports sent). -/
  joined : Bool := false
  deriving DecidableEq, Repr

/-- Redundancy (R428): a frame with an RCT delivered: source, sequence, uptime, LAN. -/
structure Seen where
  src : Nat
  seq : Nat
  at_ : Nat
  lan : Nat
  deriving DecidableEq, Repr

/-- The best master heard (R430): identity, port and the fields the state selection compares. -/
structure Master where
  port : Nat
  id : Nat
  portId : Nat
  prio1 : Nat
  cls : Nat
  acc : Nat
  var : Nat
  prio2 : Nat
  gm : Nat
  steps : Nat
  utc : Option Int
  leap : Nat
  traceable : Bool
  deriving DecidableEq, Repr

/-- The PTP port (R430-R433). -/
structure Ptp where
  /-- Ethernet port in use; best master. -/
  port : Nat := 0
  master : Option Master := none
  /-- Masters heard of: port identity (clockIdentity × 65536 + port number) and uptime of the last Announce. -/
  foreign : List (Nat × Nat) := []
  /-- The Sync awaiting its Follow_Up: sequence, arrival, its correction; the last t1 with its corrections, and t2; the Delay_Req
  sent: sequence, t3. -/
  pend : Option (Nat × Int × Int) := none
  t1 : Int := 0
  t2 : Int := 0
  haveSync : Bool := false
  req : Option (Nat × Int) := none
  haveDelay : Bool := false
  /-- Own sequence numbers: Sync, Announce, Delay_Req. -/
  seqSync : Nat := 0
  seqAnn : Nat := 0
  seqReq : Nat := 0
  deriving DecidableEq, Repr

structure Net where
  ifs : Vector Iface 2 := Vector.replicate 2 {}
  /-- Next RCT sequence by destination MAC address, frames delivered within the duplicate window, supervision sequence. -/
  rct : Tab Nat := []
  seen : List Seen := []
  supSeq : Nat := 0
  ptp : Ptp := {}
  /-- Frames the last command sent: port (0 E0, 1 E1, 2 and 3 CAN) and bytes. -/
  sent : List (Nat × Bytes) := []
  deriving DecidableEq, Repr

/-- The frame that a port is receiving: its next cell, the port it leaves through (none: it ends here), the payload received and the
payload sent on. -/
structure Rx where
  ok : Bool := false
  cell : Nat := 0
  dir : Nat := 0
  mark : Int := 0
  out : Option Nat := none
  payIn : Bytes := []
  payOut : Bytes := []
  deriving DecidableEq, Repr

/-- One Hedgerow port.  Clock stamps are in units of 0.4 ns of uptime. -/
structure HlPort where
  /-- Frames good and bad in a row (R438), frames with REMOTE_FAIL in a row, transmit side taken as down. -/
  good : Nat := 0
  bad : Nat := 0
  remote : Nat := 0
  txDown : Bool := false
  /-- Stamps of the last frame mark sent and received (R443). -/
  sentAt : Nat := 0
  rcvdAt : Nat := 0
  polInForce : Nat := 0
  /-- A link delay has been measured since the port came up; HOP and path delay (ps) of the last ring frame received. -/
  measured : Bool := false
  hopIn : Option Nat := none
  pathIn : Nat := 0
  rx : Rx := {}
  /-- Packets that leave through this port, oldest first (R449): own CTL and LINK, packets in transit, own dictionary packets. -/
  ctl : List Bytes := []
  transit : List Bytes := []
  dict : List Bytes := []
  deriving DecidableEq, Repr

/-- A notification or a result that awaits credit (R450): session mask or stream, the packet body behind the dropped count. -/
structure Await where
  result : Bool
  aux : Nat
  body : Bytes
  deriving DecidableEq, Repr

/-- The Hedgerow node. -/
structure Hl where
  ports : Vector HlPort 2 := Vector.replicate 2 {}
  /-- This node is head; epoch whose formation it took part in; ring state of the last header or, at the head, sent. -/
  head : Bool := false
  formed : Option Nat := none
  ringState : Nat := 0
  /-- A break of this node's own detection has looped its traffic back and the wrap is not complete (R334). -/
  breaking : Bool := false
  /-- Ports whose traffic is looped back, as a mask (R452); hops from the head in direction A at formation. -/
  cut : Nat := 0
  pos : Nat := 0
  /-- Mark of the unwrap asked for (R453). -/
  unwrapAt : Option Int := none
  /-- Sequence numbers sent and last received, by peer × 8 + class (R448). -/
  seqOut : Tab Nat := []
  seqIn : Tab Nat := []
  /-- Share credit; notifications and results that await it; those discarded and not yet reported (R450). -/
  credit : Nat := 0
  awaiting : List Await := []
  dropped : Nat := 0
  droppedRes : Nat := 0
  /-- Head: uptime of the last ALIVE, uid, hops in direction A and link state by node; breaks reported as position and port. -/
  alive : Tab Nat := []
  uids : Tab Nat := []
  hops : Tab Nat := []
  linksOk : Tab Nat := []
  breaks : List (Nat × Nat) := []
  conflict : Bool := false
  /-- Head: the frame being sent: next cell, mark, payload out of each port. -/
  cell : Nat := 0
  mark : Int := 0
  pay : Bytes := []
  payB : Bytes := []
  /-- Head: collect fields that returned: instant, AND, directions as a mask; last line values; last instant whose value was
  distributed; directions whose return after a wrap or an unwrap is awaited, as a mask. -/
  collect : List (Int × Nat × Nat) := []
  lastLines : Nat := 0xFFFF
  given : Int := 0
  recalc : Nat := 0
  /-- Last instant whose line values this node has delivered. -/
  lastFinal : Int := 0
  /-- Head: first instant without a final value, changes recovered (node, instant, terms), nodes still to answer (R447). -/
  missing : Option Int := none
  recovered : List (Nat × Int × Nat) := []
  recovering : List Nat := []
  /-- Marks taken toward the next TOD sample: sum of the offsets in ps, count, mean of the last 125 (Table 10.1). -/
  markSum : Int := 0
  markN : Nat := 0
  markMean : Option Int := none
  /-- Cells the last command sent: port, cell number and the symbols of the cell. -/
  sent : List (Nat × Nat × Bytes) := []
  deriving DecidableEq, Repr

end Sys2Proof.Machine
end

