-- ==== Sys2Proof/Machine/TypesPower.lean ====
section
/-! DEFINITION. What the clock generation unit (chapter 18) and the power management unit (chapter 19) hold beside their
objects. -/
namespace Sys2Proof.Machine

/-- The clock generation unit. -/
structure Clk where
  /-- Reference in use, being proven against or steered to: 0 none, 1 XTAL, 2 REFIN. -/
  ref : Nat := 0
  /-- Trim: coarse windows made, fine windows in a row within 20 ppm, HRC declared lost. -/
  coarse : Nat := 0
  run : Nat := 0
  hrcLost : Bool := false
  /-- Ordinary switches asked for and not complete: PLL input wanted (R465), system multiplexer to the PLL. -/
  pendPll : Option Nat := none
  pendSys : Bool := false
  /-- The system multiplexer passes the PLL. -/
  sysPll : Bool := false
  /-- Uptime of the last forced switch, and of the start of the present time on backup (R474). -/
  switchAt : Nat := 0
  backAt : Option Nat := none
  /-- Drift window (R473): sum of `tod.freq_adj` over its frames, frames, whether it is to be discarded, level last found. -/
  driftSum : Int := 0
  driftN : Nat := 0
  driftBad : Bool := false
  driftLevel : Nat := 0
  deriving DecidableEq, Repr

/-- The power management unit. -/
structure Pmu where
  /-- Domains that carry power, as a mask with PD0 in bit 0; domains being switched on and off. -/
  power : Nat := 1
  onPend : Nat := 0
  offPend : Nat := 0
  /-- Domains that QUIET switched off (R481). -/
  quiet : Nat := 0
  /-- A controller reset held, or a power-on reset; uptime of the last release. -/
  held : Bool := true
  releasedAt : Nat := 0
  /-- The slot that BOOT chose; none without a valid image. -/
  bootSlot : Option Nat := none
  /-- The reset-pin source is to be raised after BOOT (Table 19.5). -/
  stuckPend : Bool := false
  /-- Uptime at which a requested reset acts (Table 19.4), and the uptime of entry into MEADOW or FALLOW (R494). -/
  resetDue : Option Nat := none
  upSince : Nat := 0
  deriving DecidableEq, Repr

end Sys2Proof.Machine
end

