-- ==== Sys2Proof/Machine/TypesSeq.lean ====
section
/-! DEFINITION. The sweep sequencers (chapter 7): a segment as read at entry, and one sequencer beside its objects. -/
namespace Sys2Proof.Machine

/-- A segment (Tables 7.1 and 7.2). -/
structure Sg where
  typ : Nat
  interp : Nat
  trigB : Bool
  trigA : Bool
  loop : Bool
  fin : Bool
  guard : Nat
  len : Nat
  level : Int
  ref : Nat
  next : Nat
  repeats : Nat
  period : Nat
  deriving DecidableEq, Repr

/-- One sequencer. -/
structure Seq where
  /-- Segment in use, its number, its start (frames since S0, 16 fraction bits), its v0. -/
  seg : Option Sg := none
  idx : Nat := 0
  tSeg : Nat := 0
  v0 : Int := 0
  /-- Start frame, next sequencer time to prepare, values prepared and not yet past, the time missed by an ECC error. -/
  s0 : Nat := 0
  nextN : Nat := 0
  vals : Tab Int := []
  missN : Option Nat := none
  /-- Loop stack, bottom first: closing segment and passes left. -/
  stack : List (Nat × Nat) := []
  latch : Bool := false
  first : Nat := 0
  exp : Nat := 0
  /-- The output register at the start; uptime of the start. -/
  pre : Int := 0
  startUp : Nat := 0
  deriving DecidableEq, Repr

/-- The segment table and list memory (SRAM bank 0): 32-bit words by number, 0 where not listed, and the words that read as
uncorrectable or as single-bit errors. -/
structure Bank where
  seg : Tab Nat := []
  list : Tab Nat := []
  segBad : List Nat := []
  segOne : List Nat := []
  listBad : List Nat := []
  listOne : List Nat := []
  /-- Objects whose word in the shared store or a point record (bank 1) reads as uncorrectable, or as a single-bit error. -/
  oneBad : List Nat := []
  oneFix : List Nat := []
  deriving DecidableEq, Repr

end Sys2Proof.Machine
end

