-- ==== Sys2Proof/Machine/TypesService.lean ====
section
/-! DEFINITION. What the station services hold beside their objects: sessions, locks and notifications (chapter 14), the
stored image (chapter 15), the fault collector (chapter 20), the journal, calibration and security (chapter 21). -/
namespace Sys2Proof.Machine

/-- The answer of a dictionary operation: abort code (0 none), item, detail and body (Table 14.5). -/
structure Resp where
  code : Nat := 0
  item : Nat := 255
  detail : Nat := 0
  body : Bytes := []
  deriving DecidableEq, Repr

/-- A refusal of R387 with its detail. -/
structure Abort where
  code : Nat
  detail : Nat := 0
  deriving DecidableEq, Repr

/-- A request whose CSEQ lies ahead (Table 14.8). -/
structure HeldReq where
  cseq : Nat
  op : Nat
  vf : Nat
  /-- Where it came from: interface × 2^48 + `jdp.ses.peer`. -/
  src : Nat
  body : Bytes
  heldAt : Nat
  deriving DecidableEq, Repr

/-- A retained response (R370). -/
structure Retained where
  cseq : Nat
  op : Nat
  request : Bytes
  err : Bool
  body : Bytes
  deriving DecidableEq, Repr

/-- A subscription (Table 14.10): the kind field of SUBSCRIBE, the node, the index and the subindex. -/
structure Sub where
  kind : Nat
  node : Nat
  index : Nat
  sub : Nat
  deriving DecidableEq, Repr

/-- A notification of one session, queued or retained (R383, R385).  `jseq` is the journal sequence of a RESULT, 0 when
not journaled; `resultRec` says that the body is a result notification. -/
structure Notif where
  slot : Nat
  dseq : Nat
  kind : Nat
  body : Bytes
  jseq : Nat
  queuedAt : Nat
  deriving DecidableEq, Repr

/-- What a session slot holds beside `jdp.ses.*`. -/
structure Session where
  keyId : Nat := 0
  key : Bytes := []
  lastAt : Nat := 0
  openedAt : Nat := 0
  queue : List Notif := []
  subs : List Sub := []
  held : List HeldReq := []
  kept : List Retained := []
  block : Option (Nat × Bytes) := none
  nonces : List Bytes := []
  /-- Ethernet interface through which the peer of a UDP session is reached. -/
  iface : Nat := 0
  loss : Bool := false
  /-- `jrn.rd.select` of this session; handles whose lease expired (R381). -/
  rdSelect : Nat := 0
  expired : List Nat := []
  /-- A request forwarded to another node, whose answer is awaited (R373, R389): the node, CSEQ, operation and body. -/
  awaiting : Option (Nat × Nat × Nat × Bytes) := none
  /-- Its node has left the ring; answers of the nodes of a READ_MULTI received so far. -/
  absent : Bool := false
  gathered : List (Nat × Bytes) := []
  deriving DecidableEq, Repr

/-- One staged write (R379): the object's key, its wire type, an offset for a partial DOMAIN write, the bytes. -/
structure Staged where
  index : Nat
  sub : Nat
  typ : Nat
  offset : Option Nat
  data : Bytes
  deriving DecidableEq, Repr

/-- What a lock holds beside `jdp.lock.*`. -/
structure LockSt where
  expiry : Nat := 0
  ranges : List (Nat × Nat) := []
  /-- Handle of the same lock at another node, where the ranges are its own (R389). -/
  remote : Nat := 0
  staged : List Staged := []
  deriving DecidableEq, Repr

/-- A message being assembled on a CAN channel (R388). -/
structure CanAsm where
  next : Nat
  bytes : Bytes
  lastAt : Nat
  deriving DecidableEq, Repr

/-- A result retained for a forwarded request: head slot, request and answer as JDP header and body (R389). -/
structure FwdKept where
  slot : Nat
  request : Bytes
  answer : Bytes
  deriving DecidableEq, Repr

/-- The protocol engine. -/
structure Jdp where
  ses : Vector Session 16 := Vector.replicate 16 {}
  locks : Vector LockSt 32 := Vector.replicate 32 {}
  lastSid : Nat := 0
  lastHandle : Nat := 0
  openNonces : List Bytes := []
  /-- The notifications of all sessions still retained, oldest first (R385). -/
  retained : List Notif := []
  /-- Host SPI port: messages to deliver, messages to read, flags (Table 14.12). -/
  spiOut : List Bytes := []
  spiIn : List Bytes := []
  spiOvr : Bool := false
  spiErr : Bool := false
  /-- Partial CAN messages by port × 8 + channel. -/
  can : Tab CanAsm := []
  fwdKept : List FwdKept := []
  /-- What other nodes are still to be told of a session that ended: node, slot, operation, body. -/
  notices : List (Nat × Nat × Nat × Bytes) := []
  /-- The messages the last command sent, with the binding code and peer. -/
  sent : List (Nat × Nat × Bytes) := []
  /-- Answer of the last dictionary operation. -/
  resp : Resp := {}
  deriving DecidableEq, Repr

/-- The stored configuration partition of MRAM (R399): two image slots and the write in progress. -/
structure Cfg where
  slotA : Bytes := []
  slotB : Bytes := []
  writing : Option Bytes := none
  deriving DecidableEq, Repr

/-- An armed fault injection (R509). -/
structure Inject where
  target : Nat
  unit : Nat
  left : Nat
  deriving DecidableEq, Repr

/-- The fault collector beside its objects (chapter 20). -/
structure Fcr where
  /-- Uptimes (of the power-on count) of the last counted raises per source, newest first (R501, R502). -/
  rings : Tab (List Nat) := []
  firstAt : Option Nat := none
  merged : Nat := 0
  inject : Option Inject := none
  /-- Single-bit errors corrected, by store (R45): 0 to 11 lane memories, 12 and 13 banks. -/
  corrected : Tab Nat := []
  /-- Sources whose last raise issued SAFE (R519). -/
  lastSafe : List Nat := []
  /-- The action held in BOOT and HEATH (R504): 0 none, 1 FALLOW, 2 SAFE. -/
  heldAction : Nat := 0
  /-- Conditions 2 to 6 of Table 20.12 that hold now. -/
  holds : Nat := 0
  /-- The fault history partition: records oldest first (R508). -/
  history : List Bytes := []
  /-- Core A and B: debug halt, core reset deferred to its end, core reset or rejoin in progress (R514). -/
  halted : Nat := 0
  deferred : Nat := 0
  rejoining : Nat := 0
  /-- Heartbeats missed in a row and the uptime of the last completed checkpoint (R512). -/
  missed : Nat := 0
  ckptAt : Nat := 0
  /-- Entry of each lane into FAULT with its enable set (R524), by lane. -/
  restartPend : Nat := 0
  deriving DecidableEq, Repr

/-- A record with its journal sequence, in staging or in the RAM ring; `flt` marks a fault record (R516). -/
structure JRec where
  seq : Nat
  bytes : Bytes
  flt : Bool
  deriving DecidableEq, Repr

/-- A journal page in flash (R528): the header's fields, the programmed slots, the trailer when sealed. -/
structure JPage where
  flag : Nat := 0
  gen : Nat := 0
  pseq : Nat := 0
  seq0 : Nat := 0
  jid : Nat := 0
  prev : Bytes := []
  slots : List Bytes := []
  sealed : Bool := false
  sealTime : Int := 0
  sealV : Bytes := []
  tag : Bytes := []
  /-- TOD of the last programming of the page (R536). -/
  progAt : Int := 0
  deriving DecidableEq, Repr

/-- The journal writer (R526-R538). -/
structure Jrn where
  staging : List JRec := []
  ring : List JRec := []
  /-- The run of sequences overwritten in the ring and not yet reported (R518). -/
  gapRun : Option (Nat × Nat) := none
  /-- The run assigned and never programmed before the last boot, not yet reported (R535). -/
  bootGap : Option (Nat × Nat) := none
  /-- Pages by sector number. -/
  pages : Tab JPage := []
  sectors : Nat := 0
  head : Nat := 0
  retired : List Nat := []
  /-- The next page's sequence and the seal of the previous page. -/
  pageSeq : Nat := 1
  prevSeal : Bytes := []
  jid : Nat := 0
  /-- MRAM: the reserved sequence limit and the stored head (R535). -/
  reserved : Nat := 0
  storedHead : Nat := 0
  sinceStored : Nat := 0
  /-- Seal interval: uptime of the last seal or SEAL record, records programmed since. -/
  lastSealAt : Nat := 0
  sinceSeal : Nat := 0
  /-- Flash writer: program operations failed in a row, uptime of the last completion, availability (R517). -/
  failRun : Nat := 0
  lastDoneAt : Nat := 0
  unavailable : Bool := false
  holding : Bool := false
  formatDraws : Nat := 0
  deriving DecidableEq, Repr

/-- One calibration block in its two copies with their write sequences (R539). -/
structure CalBlk where
  a : Bytes := []
  seqA : Nat := 0
  b : Bytes := []
  seqB : Nat := 0
  deriving DecidableEq, Repr

/-- The channel calibration procedure in progress (Table 21.9). -/
structure CalProc where
  /-- 0 none, 1 ZERO, 2 MID, 3 SPAN, 4 OUT at c_a, 5 OUT at c_b; the role that started it. -/
  running : Nat := 0
  role : Nat := 0
  chan : Nat := 0
  cur : Bool := false
  range : Nat := 0
  left : Nat := 0
  wait : Nat := 0
  sumN : Int := 0
  sumC : Int := 0
  count : Nat := 0
  e0 : Int := 0
  m0 : Int := 0
  e1 : Int := 0
  m1 : Int := 0
  e2 : Int := 0
  m2 : Int := 0
  hasMid : Bool := false
  ucA : Int := 0
  yA : Int := 0
  ucB : Int := 0
  deriving DecidableEq, Repr

/-- Calibration: blocks by channel 0..95, 0x100 SAM, 0x101 AXD, 0x102 TIU. -/
structure Cal where
  blocks : Tab CalBlk := []
  proc : CalProc := {}
  deriving DecidableEq, Repr

/-- Firmware slots in flash, the boot record in MRAM (R493, R548, R549) and the debug lock. -/
structure Fw where
  slotA : Bytes := []
  slotB : Bytes := []
  running : Nat := 0
  preferred : Nat := 0
  confirmed : Nat := 1
  trials : Nat := 0
  verifying : Bool := false
  dbgUntil : Nat := 0
  deriving DecidableEq, Repr

/-- A role key (R545). -/
structure RoleKey where
  role : Role
  key : Bytes
  deriving DecidableEq, Repr

/-- A firmware public key, P-256 affine coordinates. -/
structure PubKey where
  x : Nat := 0
  y : Nat := 0
  deriving DecidableEq, Repr

/-- The keys partition of MRAM (R545): what decides who may change the rest. -/
structure Vault where
  keys : Vector (Option RoleKey) 16
  /-- `sec.key.label` by slot. -/
  labels : Vector Bytes 16 := Vector.replicate 16 []
  kj : Bytes := []
  fw : Vector PubKey 4 := Vector.replicate 4 {}
  revoked : Nat := 0
  minSvn : Nat := 0
  deriving DecidableEq, Repr

end Sys2Proof.Machine
end

