-- ==== Sys2Proof/Machine/TypesStation.lean ====
section
/-! DEFINITION. Points, scans and the relay bus beside their objects (chapter 8). -/
namespace Sys2Proof.Machine

/-- A valid path entry (Table 8.3). -/
structure PathEntry where
  inv : Bool
  relay : Nat
  row : Nat
  make : Nat
  brk : Nat
  deriving DecidableEq, Repr

/-- The copy of a point's configuration an execution runs from (R236, Table 8.1). -/
structure PtCfg where
  mode : Nat
  bind : Nat
  chanB : Nat
  tin : Nat
  seg : Nat
  calTag : Nat
  level : Int
  path : List PathEntry
  pathSettle : Nat
  settle : Nat
  vPos : Int
  vNeg : Int
  iPos : Int
  iNeg : Int
  rng : Nat
  apMode : Nat
  apQty : Nat
  apStart : Nat
  dest : Nat
  apLen : Nat
  apPhase : Nat
  apCount : Nat
  polySrc : Nat
  window : Nat
  listen : Nat
  /-- Conversion coefficients and shift, alarm majority, limits and hysteresis. -/
  c0 : Q32
  c1 : Q32
  c2 : Q32
  c3 : Q32
  xs : Nat
  almMaj : Nat
  almHi : Int
  almLo : Int
  almHyst : Int
  deriving DecidableEq, Repr

/-- What of a path a point waits for: a coil change to be latched, a make or break time, a read-back, or nothing. -/
inductive PathWait where
  | latch | time | readback | idle
  deriving DecidableEq, Repr

/-- A point that is not IDLE. -/
structure PtRun where
  cfg : PtCfg
  /-- Frame of the request, requester (256 for `pt.cmd`), position in the list, ties lost in a row (R253, R254). -/
  reqFrame : Nat
  reqTime : Nat
  requester : Nat
  pos : Nat
  ties : Nat := 0
  chA : Nat := 0xFF
  chB : Nat := 0xFF
  /-- Path entries made; the one being made or broken; what it waits for; made and read back whole. -/
  made : Nat := 0
  step : Nat := 0
  pwait : PathWait := .idle
  making : Bool := true
  pathDone : Bool := false
  settled : Bool := false
  /-- End status once the execution is on its way out; frame of the SETTLE start; the sequencer's start has been tried. -/
  status : Nat := 0
  settleAt : Nat := 0
  started : Bool := false
  awaitEdge : Bool := false
  /-- Results of A and of B not yet paired; apertures of A and of B received. -/
  resA : List Bytes := []
  resB : List Bytes := []
  numA : Nat := 0
  numB : Nat := 0
  favoured : Bool := false
  /-- A bound channel's slice has been reset: the execution ends LOST whatever comes first (R91). -/
  lost : Bool := false
  deriving DecidableEq, Repr

/-- The channels of an execution. -/
def PtRun.chans (r : PtRun) : List Nat := r.chA :: (if r.chB = 0xFF then [] else [r.chB])

/-- One scan beside its objects. -/
structure ScanRun where
  /-- Position of the next entry, points of the group in progress, a delay running; start pending; start instant of the
  run in progress, last start instant that has occurred on the grid. -/
  pos : Nat := 0
  group : List Nat := []
  delaying : Bool := false
  pending : Option Int := none
  gridNext : Option Int := none
  cycNext : Option Nat := none
  deriving DecidableEq, Repr

/-- What a READ on the relay bus is for. -/
inductive ReadFor where
  | path (point relay : Nat) (second : Bool)
  | start
  | fault
  | audit
  deriving DecidableEq, Repr

/-- A frame waiting for a slot of the relay bus: a WRITE that changes one coil, for a point or for an orphan; a READ; ALL_OFF. -/
inductive RbOp where
  | coil (relay : Nat) (on : Bool) (point : Option Nat)
  | read (driver : Nat) (use : ReadFor) (tries : Nat)
  | allOff
  deriving DecidableEq, Repr

/-- A READ sent and not yet answered. -/
structure RbRead where
  driver : Nat
  tag : Nat
  use : ReadFor
  tries : Nat
  deriving DecidableEq, Repr

/-- The relay bus controller. -/
structure Rb where
  queue : List RbOp := []
  /-- READs sent and not yet answered, oldest first; mismatches waiting for their second read: relay and point. -/
  out : List RbRead := []
  reread : List (Nat × Nat) := []
  slot : Nat := 0
  /-- The last command frame sent, and whether it latched. -/
  frame : Nat := 0
  latched : Bool := false
  /-- Coil image wanted, image latched, last SENSE bits, orphans, by driver (16-bit words). -/
  image : Tab Nat := []
  coils : Tab Nat := []
  sense : Tab Nat := []
  orphans : Tab Nat := []
  /-- Running counts, and the counts in MRAM, by relay (R264). -/
  counts : Tab Nat := []
  saved : Tab Nat := []
  /-- Silent drivers as a mask; next driver of the audit rotation. -/
  silent : Nat := 0
  auditAt : Nat := 0
  deriving DecidableEq, Repr

/-- The scheduler. -/
structure Psc where
  runs : Tab PtRun := []
  scans : Tab ScanRun := []
  rb : Rb := {}
  /-- Set at a controller reset: every point not IDLE ends RESET at the first pass (Table 8.10). -/
  resetPend : Bool := false
  deriving DecidableEq, Repr

end Sys2Proof.Machine
end

