-- ==== Sys2Proof/Machine/TypesTime.lean ====
section
/-! DEFINITION. Time: the cycle time base (chapter 9), time of day (chapter 10), the timing inputs and measurement units
(chapter 11). -/
namespace Sys2Proof.Machine

/-- A stretch of the CTB's history: from tick `tick` on acc advances from `acc` by `rate` a tick, at most to `top`; the values
from `lo` on have their instants in it. -/
structure CtbSeg where
  tick : Nat
  acc : Nat
  lo : Nat
  rate : Nat
  top : Option Nat
  st : Nat
  deriving DecidableEq, Repr

/-- The cycle time base.  Ticks are 2 ns; absolute ticks count the uptime. -/
structure Ctb where
  /-- Accumulator in 2^-64 cycle, as at tick `tick` of the present controller frame; least value not yet issued (R274). -/
  acc : Nat := 0
  tick : Nat := 0
  next : Nat := 0
  incF : Nat := 0
  inc : Nat := 0
  /-- Target of the last accepted edge (R271). -/
  lastTgt : Option Nat := none
  /-- ACQUIRE: absolute tick of the last raw edge, raw periods in ticks, newest first. -/
  rawAt : Option Nat := none
  raws : List Nat := []
  /-- Uptime in ns, tick included, of the last entry into STALL not yet followed by LOCKED. -/
  stallAt : Option Nat := none
  /-- Source 2 (R269): last sample (absolute tick, code), armed by a low sample, last crossing of the level, a crossing found and
  not yet taken. -/
  monLast : Option (Nat × Int) := none
  monArmed : Bool := false
  monCross : Option Nat := none
  monFound : Option Nat := none
  /-- Source 4 (R281): levels A and B, position, high-water mark, base, last high-water count and its interval in ticks, counts
  in a row since the last halt. -/
  encA : Bool := false
  encB : Bool := false
  pos : Int := 0
  high : Int := 0
  base : Nat := 0
  hwAt : Nat := 0
  hwGap : Nat := 0
  hwRun : Nat := 0
  /-- Own tick of the last accepted edge, and the tick at which it was delivered (R277, R278). -/
  edgeAt : Option Nat := none
  edgeIn : Option Nat := none
  /-- What acc has done in the last frames, newest first. -/
  segs : List CtbSeg := []
  deriving DecidableEq, Repr

/-- One time source (R292). -/
structure TodSrc where
  run : Nat := 0
  /-- Uptime at which it qualified, and of its last accepted sample. -/
  since : Nat := 0
  lastAt : Nat := 0
  deriving DecidableEq, Repr

structure Tod where
  /-- TIME64 with its fraction in 2^-32 ns; f and c of R294. -/
  t : Int := 0
  tf : Nat := 0
  f : Int := 0
  c : Int := 0
  srcs : Vector TodSrc 4 := Vector.replicate 4 {}
  /-- The next sample of the selected source steps (R295); pending step and pending write. -/
  first : Bool := false
  step : Option Int := none
  write : Option Int := none
  /-- Uptime of the entry into HOLDOVER, and the source lost; uptime of the entry into LOCKED. -/
  holdAt : Nat := 0
  holdSrc : Nat := 0
  lockAt : Nat := 0
  /-- The RTC: seconds count and 1/32,768 s; counts of its oscillator and TIME64 at its last load. -/
  rtcSec : Nat := 0
  rtcSub : Nat := 0
  rtcRaw : Nat := 0
  rtcLoad : Option Int := none
  deriving DecidableEq, Repr

/-- One timing input: its voltage in microvolts, comparator output, synchroniser, the last five CLK_PER samples (newest first), the
ticks of the last raw transitions into high and into low, and the last tick run (R306-R308). -/
structure Tin where
  uv : Int := 0
  cmp : Bool := false
  first : Bool := false
  raw : Bool := false
  taps : List Bool := [false, false, false, false, false]
  rise : Nat := 0
  fall : Nat := 0
  last : Nat := 0
  deriving DecidableEq, Repr

/-- One measurement unit (chapter 11). -/
structure Tdc where
  armTick : Nat := 0
  armTime : Int := 0
  /-- Uptime in ns of the arming, and whether TIU_GATE armed it. -/
  armedAt : Nat := 0
  byGate : Bool := false
  k1 : Int := 0
  k2 : Int := 0
  /-- Edges seen, T of the first used and of the last used edge (ps since the ARM), stamp of the last. -/
  seen : Nat := 0
  t0 : Int := 0
  tl : Int := 0
  stamp : Int := 0
  deriving DecidableEq, Repr

end Sys2Proof.Machine
end

