-- ==== Sys2Proof/Machine/Dev.lean ====
section
/-! DEFINITION. The device: everything the specification gives the controller but the keys partition and the queue of waiting
commands. -/
namespace Sys2Proof.Machine

structure Dev where
  /-- Values in force of every dictionary object (R392); an object not listed has its default. -/
  objs : Tab Val := []
  /-- What the last mirror refresh copied (R396). -/
  mirror : Tab Val := []
  /-- The PD0 uptime count, ns (R382), and the controller frame number. -/
  up : Nat := 0
  frame : Nat := 0
  /-- How many free values have been drawn (the model's own counter). -/
  draws : Nat := 0
  tod : Tod := {}
  /-- TOD at the start of the last frames in units of 2^-32 ns, newest first (R72). -/
  tods : List Int := []
  lanes : Vector Link 12 := Vector.replicate 12 {}
  chans : Vector Chan 96 := Vector.replicate 96 {}
  traces : Vector Trace 12 := Vector.replicate 12 {}
  pool : List PoolRec := []
  /-- Records of channel c that passed the tests of stream s, at 96 s + c (R205). -/
  streams : Tab Nat := []
  ctb : Ctb := {}
  tins : Vector Tin 8 := Vector.replicate 8 {}
  tdcs : Vector Tdc 8 := Vector.replicate 8 {}
  seqs : Vector Seq 96 := Vector.replicate 96 {}
  bank : Bank := {}
  psc : Psc := {}
  /-- Sequencer trigger producers to assert: frame and number (R224). -/
  stDue : List (Nat × Nat) := []
  jdp : Jdp := {}
  cfg : Cfg := {}
  fcr : Fcr := {}
  jrn : Jrn := {}
  cal : Cal := {}
  fw : Fw := {}
  erm : Erm := {}
  sam : Sam := {}
  axd : Vector Axd 4 := Vector.replicate 4 {}
  clkg : Clk := {}
  pmu : Pmu := {}
  net : Net := {}
  hl : Hl := {}
  /-- Present time at the last mirror refresh (R412). -/
  mirrorAt : Int := i64Min
  /-- Pins REPLACE_N and HOST_IRQ_N asserted; FAULT_N follows R507. -/
  replace : Bool := false
  deriving DecidableEq, Repr

/-! Objects. -/

/-- Table 20.4 by source: window, threshold, minor and severe reaction. -/
def srcDefault (s : Nat) : Nat × Nat × Nat × Nat :=
  let h1 := 3600000000000
  let h24 := 86400000000000
  if s < 12 then (h1, 8, 1, 3)
  else if s < 24 then (h1, 16, 2, 3)
  else if s < 36 then (h24, 4, 1, 2)
  else if s < 48 then (h24, 2, 1, 3)
  else if s = 48 then (h24, 4, 1, 1)
  else if s < 51 then (h24, 2, 1, 4)
  else if s < 53 then (h24, 4, 1, 1)
  else if s = 53 then (2592000000000000, 2, 1, 4)
  else if s = 54 then (h24, 8, 1, 1)
  else if s < 59 ∨ s = 61 ∨ s = 63 then (h1, 16, 1, 1)
  else if s = 59 then (h24, 4, 1, 4)
  else if s = 60 ∨ s = 62 ∨ s = 64 ∨ s = 65 ∨ s = 71 then (1000000, 0, 1, 1)
  else if s < 68 then (h24, 4, 1, 1)
  else if s = 68 then (h24, 2, 1, 1)
  else if s = 69 then (h1, 16, 1, 1)
  else if s = 70 then (h24, 2, 1, 5)
  else (1000000, 0, 0, 0)

/-- Block names of Table 20.7. -/
def blockName (b : Nat) : Bytes :=
  ascii ((["LINK", "LOOP", "CHECK", "LANEMEM", "MEMORY", "TIME", "ANALOG", "SCHED", "SYSTEM"] : List String).getD b "")

/-- The default of instance `i`, group field `g`; the row's default except where its Meaning gives one by instance.
(DESIGN CHOICE, log 3; DESIGN CHOICE, log 6; DESIGN CHOICE, log 38) -/
def dfltAt (o : Obj) (i g : Nat) : Val :=
  let s := i * 128 + g
  if o = O.chRegionSet then .num g
  else if o = O.chLane then .num (i / 8)
  else if o = O.chSlot then .num (i % 8)
  else if o = O.fcrSrcWindow then .num (srcDefault s).1
  else if o = O.fcrSrcThresh then .num (srcDefault s).2.1
  else if o = O.fcrSrcReactMinor then .num (srcDefault s).2.2.1
  else if o = O.fcrSrcReactSevere then .num (srcDefault s).2.2.2
  else if o = O.ermScanMap then .bytes ((List.range 256).map fun n => BitVec.ofNat 8 (n % 16))
  else if o = O.compatBlkName then .bytes (blockName i)
  else o.dflt

def numOf : Val → Int
  | .num n => n
  | .q i _ => i
  | .bytes _ => 0
def bytesOf : Val → Bytes
  | .bytes b => b
  | _ => []
def qOf : Val → Q32
  | .q i s => ⟨i, s⟩
  | .num n => ⟨n, 0⟩
  | .bytes _ => ⟨0, 0⟩

/-- The value in force. -/
def Dev.val (d : Dev) (o : Obj) (i : Nat := 0) (g : Nat := 0) : Val := tabGet (dfltAt o i g) d.objs (objKey o i g)
def Dev.int (d : Dev) (o : Obj) (i : Nat := 0) (g : Nat := 0) : Int := numOf (d.val o i g)
def Dev.nat (d : Dev) (o : Obj) (i : Nat := 0) (g : Nat := 0) : Nat := (d.int o i g).toNat
def Dev.on (d : Dev) (o : Obj) (i : Nat := 0) (g : Nat := 0) : Bool := d.int o i g != 0
def Dev.q (d : Dev) (o : Obj) (i : Nat := 0) (g : Nat := 0) : Q32 := qOf (d.val o i g)
def Dev.byt (d : Dev) (o : Obj) (i : Nat := 0) (g : Nat := 0) : Bytes := bytesOf (d.val o i g)

/-- Put a value in force. (DESIGN CHOICE, log 6) -/
def Dev.put (d : Dev) (o : Obj) (v : Val) (i : Nat := 0) (g : Nat := 0) : Dev :=
  { d with objs := tabSet (dfltAt o i g) d.objs (objKey o i g) v }
def Dev.setI (d : Dev) (o : Obj) (v : Int) (i : Nat := 0) (g : Nat := 0) : Dev := d.put o (.num v) i g
def Dev.setN (d : Dev) (o : Obj) (v : Nat) (i : Nat := 0) (g : Nat := 0) : Dev := d.put o (.num v) i g
def Dev.setB (d : Dev) (o : Obj) (v : Bool) (i : Nat := 0) (g : Nat := 0) : Dev := d.put o (.num (b2n v)) i g
def Dev.setBytes (d : Dev) (o : Obj) (v : Bytes) (i : Nat := 0) (g : Nat := 0) : Dev := d.put o (.bytes v) i g

/-- Width in bits of an unsigned counter object. -/
def tyWidth (t : Ty) : Nat := 8 * (tyLen t).getD 8
/-- A counter goes up by `n` and saturates at its type. -/
def Dev.bump (d : Dev) (o : Obj) (i : Nat := 0) (g : Nat := 0) (n : Nat := 1) : Dev :=
  d.setN o (satAdd (tyWidth o.ty) (d.nat o i g) n) i g
/-- Sticky bits are set (R24). -/
def Dev.flag (d : Dev) (o : Obj) (m : Nat) (i : Nat := 0) (g : Nat := 0) : Dev := d.setN o (orWord (d.nat o i g) m) i g

/-! Time. -/

/-- The time-of-day counter, which runs whether or not the time is known. -/
def Dev.clk (d : Dev) : Int := d.tod.t
/-- An instant as objects and records carry it: 0x8000_0000_0000_0000 while time of day is UNKNOWN (R13, R290). -/
def Dev.stamp (d : Dev) (t : Int) : Int := if d.nat O.todState = 0 then i64Min else t

/-- COAST or RELOCK: the units act as Table 18.6 gives (R469). -/
def Dev.coasting (d : Dev) : Bool := d.nat O.clkState == 4 || d.nat O.clkState == 5
/-- Power leaves domain `n`. -/
def Dev.unpower (d : Dev) (n : Nat) : Dev :=
  let p := d.pmu
  { d with pmu := { p with power := clrBit p.power n, onPend := clrBit p.onPend n, offPend := clrBit p.offPend n } }.setN
    O.pmuPdState (clrBit (d.nat O.pmuPdState) n)

/-! Components by number. -/

def Dev.lane (d : Dev) (n : Nat) : Link := d.lanes[n]?.getD {}
def Dev.setLane (d : Dev) (n : Nat) (l : Link) : Dev := { d with lanes := d.lanes.setIfInBounds n l }
def Dev.onLane (d : Dev) (n : Nat) (f : Link → Link) : Dev := d.setLane n (f (d.lane n))
def Dev.chan (d : Dev) (n : Nat) : Chan := d.chans[n]?.getD {}
def Dev.setChan (d : Dev) (n : Nat) (c : Chan) : Dev := { d with chans := d.chans.setIfInBounds n c }
def Dev.onChan (d : Dev) (n : Nat) (f : Chan → Chan) : Dev := d.setChan n (f (d.chan n))
def Dev.trace (d : Dev) (n : Nat) : Trace := d.traces[n]?.getD {}
def Dev.setTrace (d : Dev) (n : Nat) (t : Trace) : Dev := { d with traces := d.traces.setIfInBounds n t }
def Dev.ses (d : Dev) (n : Nat) : Session := d.jdp.ses[n]?.getD {}
def Dev.setSes (d : Dev) (n : Nat) (s : Session) : Dev :=
  { d with jdp := { d.jdp with ses := d.jdp.ses.setIfInBounds n s } }
def Dev.onSes (d : Dev) (n : Nat) (f : Session → Session) : Dev := d.setSes n (f (d.ses n))
def Dev.axdK (d : Dev) (k : Nat) : Axd := d.axd[k]?.getD {}
def Dev.setAxd (d : Dev) (k : Nat) (x : Axd) : Dev := { d with axd := d.axd.setIfInBounds k x }
def Dev.lock (d : Dev) (n : Nat) : LockSt := d.jdp.locks[n]?.getD {}
def Dev.setLock (d : Dev) (n : Nat) (l : LockSt) : Dev :=
  { d with jdp := { d.jdp with locks := d.jdp.locks.setIfInBounds n l } }

/-- `n` bytes of the random source (R547): free values. (DESIGN CHOICE, log 44) -/
def Dev.random (d : Dev) (n : Nat) : Bytes × Dev :=
  ((List.range n).map (fun k => Config.randomByte (d.draws + k)), { d with draws := d.draws + n })

end Sys2Proof.Machine
end

