-- ==== Sys2Proof/Machine/Dict.lean ====
section
/-! DEFINITION. The dictionary's index map: from an index and subindex to a row, an instance and a group field (R25, R26,
R392), and the sets of objects that a reset, a domain or a restore touches. -/
namespace Sys2Proof.Machine

/-- Every row, in the chapters' order. -/
def allObjects : List Obj := O.objectsLane ++ O.objectsStation ++ O.objectsDevice

/-- Instance `k` of `n` at stride `s` above `base`. -/
def strideOf (x base s n : Nat) : Option Nat :=
  if x < base then none
  else if x = base then some 0
  else if s = 0 then none
  else if (x - base) % s = 0 ∧ (x - base) / s < n then some ((x - base) / s) else none

def rowAt (index sub : Nat) (o : Obj) : Option (Nat × Nat) :=
  match strideOf index o.idx o.stride o.cnt with
  | none => none
  | some i => match strideOf sub o.sub o.gstride o.gcnt with
    | none => none
    | some g => some (i, g)

/-- A row found with its instance and group field. -/
structure Loc where
  o : Obj
  i : Nat
  g : Nat
  deriving DecidableEq, Repr

def findIn (index sub : Nat) : List Obj → Option Loc
  | [] => none
  | o :: os => match rowAt index sub o with
    | some (i, g) => some ⟨o, i, g⟩
    | none => findIn index sub os

/-- Sources F072-F255 and their status words are reserved (R498). -/
def reservedLoc (l : Loc) : Bool :=
  if l.o = O.fcrStatus ∨ l.o = O.fcrActive ∨ l.o = O.fcrSevere then false
  else if 0x7010 ≤ l.o.idx ∧ l.o.idx ≤ 0x701D then decide (72 ≤ l.i * 128 + l.g) else false

/-- R26: the object at an index and subindex, if it is defined. -/
def lookup (index sub : Nat) : Option Loc :=
  match findIn index sub allObjects with
  | some l => if reservedLoc l then none else some l
  | none => none

/-- Drop the entries whose index lies in `lo..hi` and whose row satisfies `p`. -/
def dropObjs (lo hi : Nat) (p : Obj → Bool) (t : Tab Val) : Tab Val :=
  t.filter fun e =>
    let idx := e.1 / 256
    if idx < lo ∨ hi < idx then true
    else match lookup idx (e.1 % 256) with
      | some l => !p l.o
      | none => true

def isStored (o : Obj) : Bool := o.pers == .stored
def notStored (o : Obj) : Bool := o.pers != .stored
/-- Channel objects that stay with C in the result writer's bank when the lane goes off (R192). (DEDUCED, log 113) -/
def keptWithC (o : Obj) : Bool := o == O.chApLost

/-- The objects of lane `n` and of its channels that are not STORED read their defaults (R404). -/
def Dev.dropLane (d : Dev) (n : Nat) : Dev :=
  let t := dropObjs (0x2700 + 16 * n) (0x270F + 16 * n) notStored d.objs
  let t := dropObjs (0x3000 + 128 * n) (0x307F + 128 * n) (fun o => notStored o && o.pers != .cal && !keptWithC o) t
  { d with objs := t }

end Sys2Proof.Machine
end

