-- ==== Sys2Proof/Machine/Instants.lean ====
section
/-! DEFINITION. Instants: controller frames, slice boundaries and ticks (R72, R274), and what the cycle time base has done in the
last frames, from which mode-1 apertures take their edges (R187, R274). -/
namespace Sys2Proof.Machine

/-! Frames and slice boundaries. -/

/-- Start of controller frame `k`, in units of 2^-32 ns; the newest held where it is older than the history. -/
def frameStart (d : Dev) (k : Nat) : Int :=
  match d.tods[d.frame - k]? with
  | some t => t
  | none => d.tods.getLast?.getD (d.tod.t * (2 : Int) ^ 32)
/-- Instant of slice boundary `k` of lane `n` (R72). -/
def boundaryTime (d : Dev) (n k : Nat) : Int :=
  roundDiv (frameStart d k * 1000 + d.int O.laneLinkDDown n * (2 : Int) ^ 32) (1000 * (2 : Int) ^ 32)

/-- Ticks count the uptime in 2 ns; tick `t` of the present frame, and tick 0 of frame `k`. -/
def absTick (d : Dev) (t : Nat) : Nat := d.up / 2 + t
def frameTick (d : Dev) (k : Nat) : Int := d.up / 2 - 250 * ((d.frame : Int) - k)
/-- Nanoseconds from the start of frame `k` to the instant of its slice boundary on lane `n`, as TIME64 counts them. -/
def boundaryOffset (d : Dev) (n k : Nat) : Int := boundaryTime d n k - frameStart d k / 2 ^ 32
/-- The last tick at or before slice boundary `k`: the ticks whose instants it does not precede. -/
def boundaryTick (d : Dev) (n k : Nat) : Nat := (frameTick d k + boundaryOffset d n k / 2).toNat
/-- The first tick at or after slice boundary `k` plus `settle` frames (R187). -/
def settleTick (d : Dev) (n k settle : Nat) : Nat := (frameTick d k + (boundaryOffset d n k + 1) / 2 + 250 * settle).toNat

/-! The cycle time base's history. -/

/-- COASTING, and the states in which an aperture in progress goes on: LOCKED, COASTING and REVERSE (Table 9.4). -/
def ctbCoasts (st : Nat) : Bool := st == 3
def ctbKeeps (st : Nat) : Bool := st == 2 || st == 3 || st == 5

/-- Stretches no older than tick `t`, and the one before them. -/
def segsFrom (t : Nat) : List CtbSeg → List CtbSeg
  | [] => []
  | s :: rest => if s.tick ≤ t then [s] else s :: segsFrom t rest

/-- The stretches, oldest first, each with its last tick, which the next one's first tick is; `now` ends the newest. -/
def segSpans : List CtbSeg → Nat → List (CtbSeg × Nat)
  | [], _ => []
  | s :: rest, now => segSpans rest s.tick ++ [(s, now)]

/-- acc at tick `t` of a stretch. -/
def CtbSeg.accAt (s : CtbSeg) (t : Nat) : Nat :=
  let a := s.acc + (t - s.tick) * s.rate
  match s.top with | some p => max s.acc (min a p) | none => a
/-- The first tick of a stretch with acc ≥ `v`, where it has one (R274). -/
def CtbSeg.tickOf (s : CtbSeg) (v : Nat) : Nat := if v ≤ s.acc then s.tick else s.tick + (v - s.acc + s.rate - 1) / s.rate

def cycleOne : Nat := 2 ^ 64
/-- The least value c·2^64 + phase·2^48 at or above `lo`. -/
def nextPhase (lo phase : Nat) : Nat :=
  let off := phase * 2 ^ 48
  if lo ≤ off then off else off + ((lo - off + cycleOne - 1) / cycleOne) * cycleOne

/-- An instant: its value, its tick, and whether the CTB was coasting. -/
structure Instant where
  value : Nat
  tick : Nat
  coast : Bool
  deriving DecidableEq, Repr

/-- The first instant of `phase` from tick `a` to tick `b` in one stretch. -/
def phaseIn (a b phase : Nat) (x : CtbSeg × Nat) : Option Instant :=
  let s := x.1
  if b < s.tick ∨ x.2 < a then none
  else
    let v := nextPhase (if a ≤ s.tick then s.lo else max s.lo (s.accAt (a - 1) + 1)) phase
    if v ≤ s.accAt (min x.2 b) then some ⟨v, s.tickOf v, ctbCoasts s.st⟩ else none

/-- What became of a value. -/
inductive Reach where
  | at (i : Instant)
  | passed (tick : Nat)
  deriving DecidableEq, Repr

/-- A value not reached before tick `a`, in one stretch up to tick `b`: reached, or passed by a jump (R274, R280). -/
def valueIn (a b v : Nat) (x : CtbSeg × Nat) : Option Reach :=
  let s := x.1
  if b < s.tick ∨ x.2 < a then none
  else if v < s.lo then some (.passed s.tick)
  else if v ≤ s.accAt (min x.2 b) then some (.at ⟨v, s.tickOf v, ctbCoasts s.st⟩) else none

/-- The first entry from tick `a` to tick `b` into a state that ends an aperture in progress, and whether from COASTING.
(DEDUCED, log 109) -/
def haltIn (a b : Nat) : Bool → List (CtbSeg × Nat) → Option (Nat × Bool)
  | _, [] => none
  | coast, (s, _) :: rest =>
    if a ≤ s.tick ∧ s.tick ≤ b ∧ !ctbKeeps s.st then some (s.tick, coast) else haltIn a b (ctbCoasts s.st) rest

/-- acc as it stood at tick `t`, where the history reaches back to it. -/
def accAt (segs : List CtbSeg) (t : Nat) : Option Nat := (segs.find? (fun s => decide (s.tick ≤ t))).map (·.accAt t)

end Sys2Proof.Machine
end

