-- ==== Sys2Proof/Machine/Mau.lean ====
section
/-! DEFINITION. Accumulators and the aperture sequence (chapter 6; Table 5.3): what MAU adds, when an aperture opens, closes
and is decided, and the record a result becomes. -/
namespace Sys2Proof.Machine

/-! Result arithmetic (R184, R193, R201, R202). -/

def isqrtGo : Nat → Nat → Nat → Nat
  | 0, _, r => r
  | b + 1, n, r => if (r + 2 ^ b) * (r + 2 ^ b) ≤ n then isqrtGo b n (r + 2 ^ b) else isqrtGo b n r
/-- Integer square root, rounded down; the arguments of R193 lie below 2^192. -/
def isqrt (n : Nat) : Nat := isqrtGo 100 n 0

/-- An I96 and a U128 hold the sums (R202). -/
def sumsFit (n : Nat) (s1 s2 : Int) : Bool :=
  decide (n < 2 ^ 32) && decide (-(2 : Int) ^ 95 ≤ s1) && decide (s1 < (2 : Int) ^ 95) && decide (s2 < (2 : Int) ^ 128)

/-- R184: add `x` with shift `k`; the flag says that the value could not be added, and no later one is (R202). -/
def qAdd (k : Nat) (a : QAcc) (x : Int) (rng : Nat) (t : Int) (kf : Nat) : QAcc × Bool :=
  let a := if a.n = 0 then
      { a with x0 := x, s1 := 0, s2 := 0, vmin := x, vmax := x, rlo := rng, rhi := rng, tfirst := t, kfirst := kf } else a
  let dd := roundShift (x - a.x0) k
  if !a.full && sumsFit (a.n + 1) (a.s1 + dd) (a.s2 + dd * dd) then
    ({ a with n := a.n + 1, s1 := a.s1 + dd, s2 := a.s2 + dd * dd, vmin := min a.vmin x, vmax := max a.vmax x,
              rlo := min a.rlo rng, rhi := max a.rhi rng, tlast := t, klast := kf }, false)
  else ({ a with full := true }, true)

/-- R201 for one quantity; the flag says that the merge would overflow (R202). -/
def qMerge (k : Nat) (c w : QAcc) : QAcc × Bool :=
  if w.n = 0 then (c, false)
  else if c.n = 0 then ({ w with full := false }, false)
  else
    let delta := roundShift (w.x0 - c.x0) k
    let s2 := c.s2 + w.s2 + 2 * delta * w.s1 + w.n * delta * delta
    let s1 := c.s1 + w.s1 + w.n * delta
    if !c.full && sumsFit (c.n + w.n) s1 s2 then
      ({ c with n := c.n + w.n, s1 := s1, s2 := s2, vmin := min c.vmin w.vmin, vmax := max c.vmax w.vmax,
                rlo := min c.rlo w.rlo, rhi := max c.rhi w.rhi, tlast := w.tlast, klast := w.klast }, false)
    else ({ c with full := true }, true)

/-- Quality flags of Table 6.4 by bit. -/
def qfHold := 0
def qfChecker := 1
def qfStitched := 2
def qfGapped := 3
def qfRestarted := 4
def qfCoalesced := 5
def qfOverrange := 6
def qfCoasted := 7
def qfMissing := 8
def qfNosample := 9
def qfUncal := 10
def qfStalled := 11
def qfOverflow := 12
def qfCompliance := 13
def qfTruncated := 14

/-- Outcomes of R194: 1 COMMITTED, 2 RELEASED, 3 ENDED; those of a merge (R201). -/
def mergeOutcome (a b : Nat) : Nat := if a = 3 ∨ b = 3 then 3 else if a = 1 ∧ b = 1 then 1 else 2

/-- R201: the merge of W into C, with the values lost to an overflow. -/
def accMerge (kv ki : Nat) (c w : Acc) : Acc × Nat :=
  let (v, ov) := qMerge kv c.v w.v
  let (i, oi) := qMerge ki c.i w.i
  let lost := (if ov then w.v.n else 0) + (if oi then w.i.n else 0)
  let fl := orWord c.flags w.flags
  let fl := setBit fl qfCoalesced
  ({ c with v := v, i := i, flags := if ov ∨ oi then setBit fl qfOverflow else fl,
            compares := c.compares + w.compares, fails := min 63 (c.fails + w.fails), failed := c.failed || w.failed,
            chkOn := c.chkOn || w.chkOn, restarts := min 255 (c.restarts + w.restarts),
            aps := min 65535 (c.aps + w.aps) }, lost)

/-- Table 6.5. -/
def checkerByte (a : Acc) : Nat :=
  (if a.failed then 2 else if a.compares ≠ 0 then 1 else if a.chkOn then 0 else 3) * 64 + min 63 a.fails

/-- The mean of R193. -/
def meanOf (k : Nat) (q : QAcc) : Int :=
  if q.n = 0 then i64Min else narrow64 (q.x0 + roundDiv (q.s1 * (2 : Int) ^ k) q.n)
/-- The noise of R193 in physical units. -/
def noiseOf (k : Nat) (q : QAcc) : Int :=
  if q.n < 2 then 0
  else roundDiv ((isqrt ((q.n : Int) * q.s2 - q.s1 * q.s1).toNat : Int) * (2 : Int) ^ k) q.n
/-- R193: a physical value in stat units of full scale `fs`. -/
def statUnits (v fs : Int) : Int := roundDiv (v * (2 : Int) ^ 28) fs

/-- The 64-byte record of Table 6.3, in the scale that the sums were made in. (DEDUCED, log 72) -/
def resultRecord (chan seq : Nat) (known : Bool) (p : Pending) : Bytes :=
  let a := p.acc
  let q := if p.qtyI then a.i else a.v
  let kv := p.scale.kv
  let ki := p.scale.ki
  let k := if p.qtyI then ki else kv
  let f := (if p.qtyI then p.scale.fsI else p.scale.fsV).getD q.rhi 1
  let none_ := decide (q.n = 0)
  let r60 :=
    leBytes 2 a.bind ++ leBytes 1 chan ++ leBytes 1 (0x40 + 32 * b2n p.qtyI + p.outcome) ++ leBytes 4 seq
    ++ leInt 8 (if none_ || !known then i64Min else (q.tfirst + q.tlast) / 2)
    ++ leInt 8 (meanOf kv a.v) ++ leInt 8 (meanOf ki a.i)
    ++ leInt 4 (if none_ then 0 else clampI 0 4294967295 (statUnits (noiseOf k q) f))
    ++ leInt 4 (if none_ then i32Min else narrow32 (statUnits q.vmin f))
    ++ leInt 4 (if none_ then i32Min else narrow32 (statUnits q.vmax f))
    ++ leBytes 4 q.n
    ++ leBytes 1 (if a.i.n = 0 then 0xFF else a.i.rlo * 16 + a.i.rhi)
    ++ leBytes 1 (if a.v.n = 0 then 0xFF else a.v.rlo * 16 + a.v.rhi)
    ++ leBytes 2 a.flags ++ leBytes 1 (checkerByte a) ++ leBytes 1 (min 255 a.restarts) ++ leBytes 2 a.aps
    ++ leBytes 4 (if none_ then 0 else min 4294967295 (q.klast + 1 - q.kfirst))
  r60 ++ leBytes 4 (crc32c r60)

/-! The channel's scale and the shifts of R184. -/

def descOf (d : Dev) (n : Nat) : Option Desc := (d.lane (n / 8)).desc
def bitsAbove (fuel : Nat) (x : Nat) : Nat :=
  match fuel with
  | 0 => 0
  | f + 1 => if x = 0 then 0 else 1 + bitsAbove f (x / 2)
/-- R184: max(0, b − 47) for an absolute limit. (DEDUCED, log 73) -/
def sqShift (absLimit : Int) : Nat := bitsAbove 80 (2 * absLimit).toNat - 47
def kvOf (ds : Option Desc) : Nat := match ds with | none => 0 | some x => sqShift x.absV
def kiOf (ds : Option Desc) : Nat := match ds with | none => 0 | some x => sqShift x.absI
/-- The scale that a descriptor gives. -/
def scaleOf (ds : Option Desc) : Scale :=
  match ds with
  | none => {}
  | some x => { kv := kvOf ds, ki := kiOf ds, fsV := x.vrng.map (·.fullScale), fsI := x.irng.map (·.fullScale) }

/-- Force mode in force: the bound point's, or the channel's (R239). -/
def chMode (d : Dev) (n : Nat) : Nat := match (d.chan n).override with | some o => o.mode | none => d.nat O.chForceMode n

/-! Adding frames (R185, R170). -/

/-- Whether the primary quantity is current (R193). -/
def primaryI (qty mode : Nat) : Bool := if qty = 1 then false else if qty = 2 then true else mode != 1

/-- Add one processed frame to W: the sums of R185 and the flags of Table 6.4 that it causes; with the values lost. -/
def addFrame (kv ki : Nat) (primI : Bool) (w : Acc) (s : Smp) : Acc × Nat :=
  let fl := w.flags
  let fl := if s.hold then setBit fl qfHold else fl
  let fl := if s.chkBad then setBit fl qfChecker else fl
  let fl := if s.comp then setBit fl qfCompliance else fl
  let fl := if s.uncal then setBit fl qfUncal else fl
  let fl := if s.use = .nbr then setBit fl qfStitched else fl
  let w := { w with flags := fl, compares := w.compares + b2n s.chkDone, fails := min 63 (w.fails + b2n s.chkFail),
                    failed := w.failed || s.chkBad, chkOn := w.chkOn || s.chkOn }
  if !s.ok then ({ w with flags := setBit w.flags qfMissing }, 0)
  else
    let (w, lv) :=
      if s.vgap then (w, 0)
      else match s.v with
        | none => ({ w with flags := setBit w.flags qfNosample }, 0)
        | some x =>
          let (q, o) := qAdd kv w.v x.phys x.rng s.t s.k
          let fl := if x.excess && !primI && !o then setBit w.flags qfOverrange else w.flags
          ({ w with v := q, flags := if o then setBit fl qfOverflow else fl }, b2n o)
    let cur := match s.use with | .act => s.i | .nbr => s.nb | .gap => none
    if s.use = .gap then (w, lv)
    else match cur with
      | none => ({ w with flags := setBit w.flags qfNosample }, lv)
      | some x =>
        let (q, o) := qAdd ki w.i x.phys x.rng s.t s.k
        let fl := if x.excess && primI && !o then setBit w.flags qfOverrange else w.flags
        ({ w with i := q, flags := if o then setBit fl qfOverflow else fl }, lv + b2n o)

/-- Flags a frame gives its own aperture for DECIDE (R195). -/
def frameVerdict (s : Smp) : Nat := (if s.hold then 1 else 0) + (if s.chkBad then 2 else 0)

/-- The frame at position `p` of the history reaches the end of its hold. -/
def addAt (kv ki mode : Nat) (p : Nat) (c : Chan) : Chan × Nat :=
  match c.hist[p]? with
  | none => (c, 0)
  | some s =>
    if s.ap = 0 ∨ s.added then (c, 0)
    else
      let (w, lost) := addFrame kv ki (primaryI c.ap.cfg.qty mode) c.w s
      let took := w.v.n != c.w.v.n || w.i.n != c.w.i.n
      let aps := c.ap.aps.map fun a => if a.id = s.ap then
          { a with flags := orWord a.flags (frameVerdict s), tfirst := if a.tfirst.isNone && took then some s.t else a.tfirst } else a
      ({ c with w := w, hist := c.hist.set p { s with added := true }, ap := { c.ap with aps := aps } }, lost)

/-- W as it moves to C, another accumulator (R198, R202). -/
def Acc.moved (w : Acc) : Acc := { w with v := { w.v with full := false }, i := { w.i with full := false } }

/-- DECIDE (Table 5.3, R198, Table 6.6) of the oldest aperture with the outcome given; the values lost, and whether two
apertures were coalesced. -/
def decideAp (sc : Scale) (mode frame : Nat) (forced : Option Nat) (c : Chan) : Chan × Nat × Bool :=
  match c.ap.aps with
  | [] => (c, 0, false)
  | a :: rest =>
    let own := match forced with | some o => o | none => if bit a.flags 0 || bit a.flags 1 then 2 else 1
    let w := { c.w with bind := c.ap.cfg.bind, flags := orWord c.w.flags a.flags,
                        restarts := min 255 (c.w.restarts + a.restarts), aps := min 65535 (c.w.aps + 1) }
    let out := if c.wHeld.isSome then mergeOutcome c.wOut own else own
    let w := if c.wHeld.isSome then { w with flags := setBit w.flags qfCoalesced } else w
    let c := { c with ap := { c.ap with aps := rest } }
    match c.c with
    | none =>
      ({ c with c := some ⟨w.moved, out, primaryI c.ap.cfg.qty mode, c.ap.cfg.dest, frame, sc⟩, w := {}, wHeld := none, wOut := 0 },
        0, false)
    | some p =>
      if p.acc.bind = w.bind then
        let (m, lost) := accMerge sc.kv sc.ki p.acc w
        ({ c with c := some { p with acc := m, outcome := mergeOutcome p.outcome out }, w := {}, wHeld := none, wOut := 0 },
          lost, true)
      else
        let w := { w with flags := setBit w.flags qfCoalesced }
        ({ c with w := w, wHeld := some w, wOut := out }, 0, true)

/-! The sequence. -/

/-- Code of `ch.ap.state`. (DEDUCED, log 58) -/
def apState (c : Chan) : Nat :=
  if c.ap.aps.any (·.last.isNone) then 2
  else if !c.ap.aps.isEmpty then 3
  else if c.ap.running then 1 else 0

/-- (DEDUCED, log 58; DEDUCED, log 72; DEDUCED, log 73) -/
def apRefresh (d : Dev) (n : Nat) : Dev :=
  let c := d.chan n
  let d := d.setN O.chApState (apState c) n
  let d := d.setN O.chApPending (b2n c.c.isSome + 2 * b2n c.wHeld.isSome) n
  match c.ap.aps.find? (·.last.isNone) with
  | some a => d.setI O.chApOpenTime (match a.tfirst with | some t => d.stamp t | none => i64Min) n
  | none => d

/-- Start of a sequence under `cfg` at time `t0` (R187); the steps that the sequencer has announced stay (R225). -/
def apStart (cfg : ApCfg) (t0 : Int) (c : Chan) : Chan :=
  { c with ap := { running := true, cfg := cfg, t0 := t0, nextId := c.ap.nextId, aps := c.ap.aps, steps := c.ap.steps,
                   stepsEnd := c.ap.stepsEnd } }

def apOpenId (a : ApSeq) : Nat := match a.aps.find? (·.last.isNone) with | some x => x.id | none => 0
/-- Open an aperture at the present frame. -/
def apOpen (a : ApSeq) : ApSeq :=
  { a with aps := a.aps ++ [{ id := a.nextId, flags := if a.coasted then setBit 0 qfCoasted else 0 }],
           nextId := a.nextId + 1, coasted := false }
/-- The aperture in progress is open with the present frame. -/
def apOpened (a : ApSeq) : ApSeq := if apOpenId a = 0 then apOpen a else a
/-- The aperture in progress ends after processed frame `last`; one that no frame has opened leaves no record.
(DEDUCED, log 109) -/
def apClose (last : Nat) (fl : Nat) (a : ApSeq) : ApSeq :=
  { a with aps := a.aps.map fun x => if x.last.isNone then { x with last := some last, flags := orWord x.flags fl } else x,
           done := a.done + 1 }
/-- The sequence ends once the count of apertures is reached (R188). -/
def apCount (a : ApSeq) : ApSeq := if a.cfg.count ≠ 0 ∧ a.cfg.count ≤ a.done then { a with running := false } else a

/-- The first point `org + m·len` at or after `x` (R191). -/
def gridAfter (org len x : Nat) : Nat := org + ((x - org + len - 1) / len) * len

/-! Mode 0. -/

/-- Length of mode 0 in frames (Table 6.2). -/
def lenFrames (n : Nat) : Nat := if n = 0 then 2 ^ 32 else n

/-- The first frame of mode 0, once the settle reference is known (R187). -/
def apRef0 (s : Smp) (a : ApSeq) : ApSeq :=
  if a.ref.isNone ∧ a.t0 ≤ s.t then
    { a with ref := some s.k, k0 := some (s.k + a.cfg.settle), org := some (s.k + a.cfg.settle) } else a

/-- Mode 0: frame `s`, processed in `q`, is the last of the open aperture; the next one counts from the original first frame
(R188, R191). -/
def apLast0 (q : Nat) (s : Smp) (a : ApSeq) : ApSeq :=
  match a.k0 with
  | none => a
  | some k0 =>
    if apOpenId a ≠ 0 ∧ k0 + lenFrames a.cfg.len ≤ s.k + 1 then
      let next := gridAfter (a.org.getD k0) (lenFrames a.cfg.len) (s.k + 1)
      apCount (apClose q 0 { a with k0 := some next, org := some next })
    else a

/-! Mode 1: edges are instants of the CTB, looked up once their sample frames are processed. -/

/-- Length of a mode-1 aperture in 2^-64 cycle (R274). -/
def apCycles (lenCyc : Nat) : Nat := (roundDiv ((lenCyc : Int) * (2 : Int) ^ 64) 100).toNat

/-- The start edge is `i`. (DEDUCED, log 72) -/
def cycStart (i : Instant) (a : ApSeq) : ApSeq :=
  { a with vs := none, ve := some (i.value + apCycles a.cfg.lenCyc), org := some i.value, seek := i.tick, coasted := i.coast, k0 := none }
/-- The end edge is `i`: it is the next aperture's start edge, or after a restart the next start edge counts from the original
one (R188, R191). -/
def cycEnd (q : Nat) (i : Instant) (a : ApSeq) : ApSeq :=
  let a := apCount (apClose (q - 1) (if i.coast then setBit 0 qfCoasted else 0) a)
  let next := gridAfter (a.org.getD i.value) (max 1 (apCycles a.cfg.lenCyc)) i.value
  if next = i.value then cycStart i a
  else { a with vs := some next, ve := none, seek := i.tick, coasted := false, k0 := none }
/-- The CTB stalls in the aperture in progress at tick `t`; the next start edge may be any instant from there on, with no settle
(R189, Table 9.4). -/
def cycStall (q t : Nat) (coast : Bool) (a : ApSeq) : ApSeq :=
  let fl := setBit (if coast then setBit 0 qfCoasted else 0) qfStalled
  apCount (apClose (q - 1) fl { a with vs := none, ve := none, again := false, seek := t, coasted := false, k0 := none })

/-- The edges up to tick `b` of the frame that is processed in `q`, in their order. (DEDUCED, log 109) -/
def cycEdges (l : List (CtbSeg × Nat)) (q b : Nat) : Nat → ApSeq → ApSeq
  | 0, a => a
  | fuel + 1, a =>
    if !a.running then a
    else
      let halt := haltIn a.seek b false l
      match a.again, a.ve, a.vs with
      | true, _, _ => match halt with | some (t, c) => cycEdges l q b fuel (cycStall q t c a) | none => a
      | _, some v, _ =>
        match l.findSome? (valueIn a.seek b v), halt with
        | some (.at i), some (t, c) => cycEdges l q b fuel (if i.tick ≤ t then cycEnd q i a else cycStall q t c a)
        | some (.at i), none => cycEdges l q b fuel (cycEnd q i a)
        | _, some (t, c) => cycEdges l q b fuel (cycStall q t c a)
        | _, none => a
      | _, none, some v =>
        match l.findSome? (valueIn a.seek b v) with
        | some (.at i) => cycEdges l q b fuel (cycStart i a)
        | some (.passed t) => cycEdges l q b fuel { a with vs := none, seek := t }
        | none => a
      | _, none, none =>
        match l.findSome? (phaseIn a.seek b a.cfg.phase) with
        | some i => cycEdges l q b fuel (cycStart i a)
        | none => { a with seek := max a.seek (b + 1) }

/-- What a channel needs of the CTB for the frame it processes: the history, the last tick at or before its instant and the
tick from which the start edge is sought where it is the settle reference. -/
structure CtbView where
  segs : List CtbSeg
  now : Nat
  tick : Nat
  settled : Nat → Nat

/-- Mode 1 up to the instant of frame `s`: the settle reference, the end of a restarted aperture, the edges. -/
def apEdges1 (q : Nat) (h : CtbView) (s : Smp) (a : ApSeq) : ApSeq :=
  let a := if a.ref.isNone ∧ a.t0 ≤ s.t then { a with ref := some s.k, seek := h.settled a.cfg.settle } else a
  if a.ref.isNone then a
  else
    let a := match a.again, a.k0 with
      | true, some k => if k ≤ s.k then
          { a with again := false, ve := some ((accAt h.segs h.tick).getD 0 + apCycles a.cfg.lenCyc) } else a
      | _, _ => a
    cycEdges (segSpans h.segs h.now) q h.tick 64 a

/-! Mode 2. -/

/-- A step starts at frame `s`; one whose first frame lies before t0 opens nothing (R187). -/
def stepStarts (s : Smp) (a : ApSeq) : Bool := a.steps.contains s.k && decide (a.t0 ≤ s.t)
def stepsEnded (s : Smp) (a : ApSeq) : Bool := match a.stepsEnd with | some e => decide (e ≤ s.k) | none => false
/-- Mode 2 at frame `s`: the end of a step, and the next one; with the steps that were too short (R188). -/
def apSteps2 (q : Nat) (s : Smp) (a : ApSeq) : ApSeq × Nat :=
  let next := stepStarts s a
  let done := (a.steps.contains s.k || stepsEnded s a) && a.ref.isSome
  let short := b2n (done && apOpenId a == 0 && decide (a.ref ≠ some s.k))
  let a := if done then
      let a := { a with ref := none, k0 := none }
      if apOpenId a ≠ 0 then apCount (apClose (q - 1) 0 a) else a
    else a
  let a := if stepsEnded s a && decide (a.t0 ≤ s.t) then { a with running := false } else a
  (if next && a.running then { a with ref := some s.k, k0 := some (s.k + a.cfg.settle) } else a, short)
/-- Steps that the frame has reached are forgotten. -/
def stepsPrune (s : Smp) (a : ApSeq) : ApSeq :=
  if a.steps.isEmpty && a.stepsEnd.isNone then a
  else { a with steps := a.steps.filter (fun x => decide (s.k < x)), stepsEnd := if stepsEnded s a then none else a.stepsEnd }

/-! The frame. -/

/-- A STOP that has come into force: frames at or after it (R190). -/
def apStop (q : Nat) (s : Smp) (a : ApSeq) : ApSeq :=
  match a.stopAt with
  | none => a
  | some t =>
    if s.t < t then a
    else
      let a := if apOpenId a ≠ 0 then apClose (q - 1) (setBit 0 qfTruncated) a else a
      { a with running := false, stopAt := none }

/-- The frame belongs to the aperture in progress. -/
def apTakes (s : Smp) (a : ApSeq) : Bool :=
  a.running && (match a.k0 with | some k => decide (k ≤ s.k) | none => a.cfg.mode == 1 && a.ve.isSome) && !a.again

/-- Table 5.3, rows 2 and 3: frame `s` of the open aperture lies in an unstitched gap that ends before processed frame `g`. A
restart keeps the flags of the edges and the verdicts it cannot have; it leaves the sums of an aperture that is closing.
(DEDUCED, log 72) -/
def apGap (q g policy maxRestarts : Nat) (s : Smp) (c : Chan) : Chan :=
  let a := c.ap
  match a.aps.find? (·.last.isNone) with
  | none => c
  | some cur =>
    if cur.gapMark = g then c
    else if policy = 0 ∧ cur.restarts < maxRestarts then
      let upd := fun (x : ApCtx) => if x.id = cur.id then
        { x with restarts := min 255 (x.restarts + 1), flags := setBit (clrBit (clrBit x.flags 0) 1) qfRestarted, gapMark := g,
                 tfirst := none } else x
      let hist := c.hist.map fun x => if x.ap = cur.id then { x with ap := 0 } else x
      let oldest := match a.aps with | x :: _ => x.id == cur.id | [] => false
      { c with hist := hist, w := if oldest then c.wHeld.getD {} else c.w,
               ap := { a with aps := a.aps.map upd, k0 := some (s.k + (g - q)), again := a.cfg.mode == 1,
                              ve := if a.cfg.mode = 1 then none else a.ve } }
    else
      let upd := fun (x : ApCtx) => if x.id = cur.id then { x with flags := setBit x.flags qfGapped, gapMark := g } else x
      { c with ap := { a with aps := a.aps.map upd } }

/-- R185-R191 for the frame at the head of the history, processed in controller frame `q`: the edges before its instant, a STOP,
then its own aperture; with the steps too short. -/
def apLabel (q policy maxRestarts : Nat) (h : CtbView) (c : Chan) : Chan × Nat :=
  match c.hist with
  | [] => (c, 0)
  | s :: rest =>
    if !c.ap.running then ({ c with ap := stepsPrune s c.ap }, 0)
    else
      let (a, short) := if c.ap.cfg.mode = 0 then (apRef0 s c.ap, 0)
        else if c.ap.cfg.mode = 1 then (apEdges1 q h s c.ap, 0) else apSteps2 q s c.ap
      let a := stepsPrune s (apStop q s a)
      let a := if apTakes s a then apOpened a else a
      let id := if apTakes s a then apOpenId a else 0
      let c := { c with ap := a, hist := { s with ap := id } :: rest }
      let gEnd := max (if s.igap then c.iGapUntil else 0) (if s.vgap then c.vGapUntil else 0)
      let c := if id ≠ 0 ∧ (s.igap ∨ s.vgap) then apGap q gEnd policy maxRestarts s c else c
      (if a.cfg.mode = 0 then { c with ap := apLast0 q s c.ap } else c, short)

/-- Everything MAU does at the end of controller frame `q` for channel `n` (R170, R171): the frame of q − 2 is added, and
an aperture whose confirm window has run is decided. -/
def mauFrame (d : Dev) (n q : Nat) : Dev :=
  let sc := scaleOf (descOf d n)
  let mode := chMode d n
  let k := (match (d.chan n).hist with | s :: _ => s.k | [] => 0)
  let h : CtbView := { segs := d.ctb.segs, now := absTick d d.ctb.tick, tick := boundaryTick d (n / 8) k,
                       settled := settleTick d (n / 8) k }
  let (c, short) := apLabel q (d.nat O.chRngGapPolicy n) (d.nat O.chRngRestartMax n) h (d.chan n)
  let (c, lost) := addAt sc.kv sc.ki mode 2 c
  let due := match c.ap.aps with | a :: _ => (match a.last with | some l => decide (l + 2 ≤ q) | none => false) | [] => false
  let (c, lost2, co) := if due then decideAp sc mode q none c else (c, 0, false)
  let d := d.setChan n c
  let d := if short ≠ 0 then d.bump O.chApShort n 0 short else d
  let d := if lost + lost2 ≠ 0 then d.bump O.chApLost n 0 (lost + lost2) else d
  let d := if due then d.bump O.chApClosed n else d
  let d := if co then (d.bump O.chApCoalesced n).bump O.resPoolCoalesced else d
  apRefresh d n

/-- R192: the frames still held are added, the apertures end ENDED and the sequence ends. -/
def apEnd (d : Dev) (n : Nat) : Dev :=
  let sc := scaleOf (descOf d n)
  let mode := chMode d n
  let c := d.chan n
  let (c, l2) := addAt sc.kv sc.ki mode 2 c
  let (c, l1) := addAt sc.kv sc.ki mode 1 c
  let (c, l0) := addAt sc.kv sc.ki mode 0 c
  let k := c.ap.aps.length
  let step := fun (acc : Chan × Nat × Nat) (_ : Nat) =>
    let (c, lost, cos) := acc
    let (c, l, co) := decideAp sc mode d.frame (some 3) c
    (c, lost + l, cos + b2n co)
  let (c, lost, cos) := (List.range k).foldl step (c, l2 + l1 + l0, 0)
  let d := d.setChan n { c with ap := { c.ap with running := false, stopAt := none, aps := [] } }
  let d := if lost ≠ 0 then d.bump O.chApLost n 0 lost else d
  let d := if k ≠ 0 then d.bump O.chApClosed n 0 k else d
  let d := if cos ≠ 0 then (d.bump O.chApCoalesced n 0 cos).bump O.resPoolCoalesced 0 0 cos else d
  apRefresh d n

/-- R192, second part: the domain is lost by a fault; W goes without a record. -/
def apLose (d : Dev) (n : Nat) : Dev :=
  let c := d.chan n
  let open_ := !c.ap.aps.isEmpty || c.wHeld.isSome
  let d := d.setChan n { c with ap := { nextId := c.ap.nextId, steps := c.ap.steps, stepsEnd := c.ap.stepsEnd }, w := {}, wHeld := none, wOut := 0 }
  let d := if open_ then d.bump O.chApLost n else d
  apRefresh d n

/-- The aperture configuration of the channel's own objects (Table 6.9). -/
def ownApCfg (d : Dev) (n : Nat) : ApCfg :=
  { mode := d.nat O.chApMode n, len := d.nat O.chApLenFrames n, lenCyc := d.nat O.chApLenCyc n,
    phase := d.nat O.chApPhase n, settle := d.nat O.chApSettle n, count := d.nat O.chApCount n,
    qty := d.nat O.chApQty n, dest := d.nat O.chApDest n }

end Sys2Proof.Machine
end

