-- ==== Sys2Proof/Machine/Ops.lean ====
section
/-! DEFINITION. The operations every unit uses: journal staging (R516, R527), notifications (R383), events (R322), safing
and draining (R64, Table 2.16), device state (R519, R520) and raising a fault source (R499-R508). -/
namespace Sys2Proof.Machine

/-! Abort codes (Table 14.11). -/
def aNoObject := 0x0101
def aNoAccess := 0x0102
def aRole := 0x0103
def aType := 0x0104
def aLength := 0x0105
def aRange := 0x0106
def aState := 0x0107
def aTime := 0x0108
def aDepend := 0x0109
def aDivergent := 0x010A
def aLocked := 0x0201
def aLockUnknown := 0x0202
def aLeaseExpired := 0x0203
def aLockLimit := 0x0204
def aStageLimit := 0x0205
def aLockSplit := 0x0206
def aMultiNode := 0x0207
def aBadOp := 0x0301
def aBadBody := 0x0302
def aSeqStale := 0x0303
def aSesUnknown := 0x0304
def aNoSlot := 0x0305
def aNotHead := 0x0306
def aBlockOrder := 0x0307
def aSubLimit := 0x0308
def aNodeAbsent := 0x0401

/-- An effect of a write: an abort, with nothing changed, or the device after it. -/
abbrev Eff := Except Abort Dev
def refuse (code : Nat) (detail : Nat := 0) : Eff := .error ⟨code, detail⟩
/-- The answer of a command that is a write (Table 14.5): the body is empty, or the abort. -/
def Dev.answer (d : Dev) (e : Eff) : Dev :=
  match e with
  | .ok d' => { d' with jdp := { d'.jdp with resp := {} } }
  | .error a => { d with jdp := { d.jdp with resp := { code := a.code, detail := a.detail } } }

/-- Present time (TIME64). -/
def Dev.now (d : Dev) : Int := d.stamp d.clk
/-- This node's number, 0 outside a ring (R361, R389). -/
def Dev.node (d : Dev) : Nat := if d.nat O.hlNode = 0xFF then 0 else d.nat O.hlNode

/-- A producer issues an event at the next CLK_PER cycle, with its stamp (R322, R324). (DESIGN CHOICE, log 66) -/
def Dev.event (d : Dev) (p : Nat) (stamp : Int) : Dev := { d with erm := { d.erm with due := d.erm.due ++ [(p, stamp)] } }

/-! Journal staging. -/

/-- A record of format 10 (Table 21.2). -/
def jrecord (kind ref chan aux : Nat) (time : Int) (body : Bytes) : Bytes :=
  let r := leBytes 2 ref ++ leBytes 1 chan ++ leBytes 1 (0x80 + kind) ++ leBytes 4 aux ++ leInt 8 time ++ padTo 44 body
  r ++ leBytes 4 (crc32c r)

/-- General slots in use: fault records take the 64 reserved slots first (R516). -/
def generalUsed (l : List JRec) : Nat := l.length - min 64 (l.countP (·.flt))
def stagingRoom (l : List JRec) (flt : Bool) : Bool :=
  decide (generalUsed l < 960) || (flt && decide (l.countP (·.flt) < 64))

/-- A record enters the RAM ring; the oldest is overwritten when the ring holds 4,096 (R517). -/
def ringPush (r : JRec) (d : Dev) : Dev :=
  let j := d.jrn
  if j.ring.length < 4096 then
    let d := { d with jrn := { j with ring := j.ring ++ [r] } }
    d.setN O.fcrRingUsed d.jrn.ring.length
  else
    let lost := j.ring.head?.map (·.seq) |>.getD 0
    let run := match j.gapRun with | none => (lost, lost) | some (a, _) => (a, lost)
    let d := { d with jrn := { j with ring := j.ring.drop 1 ++ [r], gapRun := some run } }
    ((d.bump O.fcrRingOverwritten).bump O.jrnLost).flag O.fcrFlags 4

/-- With the flash writer unavailable, staging drains to the ring (R517). -/
def drainToRing (d : Dev) : Dev :=
  if d.jrn.unavailable then
    let d := d.jrn.staging.foldl (fun x r => ringPush r x) d
    { d with jrn := { d.jrn with staging := [] } }
  else d

/-- A record enters staging and takes its sequence (R527, R535); 0 when no slot is free. (DEDUCED, log 83) -/
def Dev.stage (d : Dev) (r : Bytes) (flt : Bool) : Nat × Dev :=
  if stagingRoom d.jrn.staging flt then
    let s := d.nat O.jrnSeqNext
    let j := d.jrn
    let j := { j with staging := j.staging ++ [⟨s, r, flt⟩], reserved := if j.reserved ≤ s then s + 65536 else j.reserved }
    (s, drainToRing ({ d with jrn := j }.setN O.jrnSeqNext (s + 1)))
  else if flt then (0, d.bump O.fcrRecordsLost)
  else (0, d.bump O.jrnLost)

/-- A STATION record (Table 21.4). (DEDUCED, log 83) -/
def Dev.station (d : Dev) (code subject : Nat) (body : Bytes) : Dev :=
  (d.stage (jrecord 4 code 0xFF subject d.now body) false).2

/-! Notifications. -/

/-- Table 14.9. -/
def notifHead (kind node : Nat) (time : Int) : Bytes := leBytes 1 kind ++ leBytes 1 node ++ [0, 0] ++ leInt 8 time

/-- R383: a notification enters the queue of a slot, or is discarded with a count; the flag says whether it entered. -/
def Dev.queueNotif (d : Dev) (slot kind node jseq : Nat) (tail : Bytes) : Dev × Bool :=
  let s := d.ses slot
  if s.queue.length < 1024 then
    let n := dseqNext (d.nat O.jdpSesDseq slot)
    let x : Notif := ⟨slot, n, kind, notifHead kind node d.now ++ tail, jseq, d.up⟩
    let d := d.setSes slot { s with queue := s.queue ++ [x] }
    let d := { d with jdp := { d.jdp with retained := lastN 65536 (d.jdp.retained ++ [x]) } }
    (d.setN O.jdpSesDseq n slot, true)
  else ((d.setSes slot { s with loss := true }).bump O.jdpSesDropped slot, false)

def Dev.sesOpen (d : Dev) (slot : Nat) : Bool := d.nat O.jdpSesState slot != 0

/-- A member of a ring that is not its head: its notifications go to the head (R389). -/
def Dev.ringMember (d : Dev) : Bool :=
  !d.hl.head && (d.nat O.hlState == 3 || d.nat O.hlState == 4) && d.nat O.hlNode != 0xFF

/-- A notification or a result waits for credit; 256 may wait, and one more is discarded with a count (R450). -/
def Dev.await (d : Dev) (x : Await) : Dev :=
  if d.hl.awaiting.length < 256 then { d with hl := { d.hl with awaiting := d.hl.awaiting ++ [x] } }
  else if x.result then { d with hl := { d.hl with droppedRes := d.hl.droppedRes + 1 } }.bump O.hlResDropped
  else { d with hl := { d.hl with dropped := d.hl.dropped + 1 } }.bump O.hlResDropped

/-- Head sessions whose subscriptions of this node `p` accepts, as a mask. -/
def Dev.subMask (d : Dev) (p : Sub → Bool) : Nat := forUpto 16 (fun k m => if (d.ses k).subs.any p then setBit m k else m) 0

/-- A notification to every session with a subscription that `p` accepts. -/
def Dev.notify (d : Dev) (p : Sub → Bool) (kind node jseq : Nat) (tail : Bytes) : Dev :=
  if d.ringMember then
    let m := d.subMask p
    if m = 0 then d else d.await ⟨false, m, notifHead kind node d.now ++ tail⟩
  else forUpto 16 (fun k x => if x.sesOpen k && (x.ses k).subs.any p then (x.queueNotif k kind node jseq tail).1 else x) d

/-- A STATION notification (kind 5). -/
def Dev.notifyStation (d : Dev) (code detail : Nat) : Dev :=
  d.notify (fun s => s.kind == 4 && s.node == d.node) 5 d.node 0 (leBytes 2 code ++ [0, 0] ++ leBytes 4 detail)

/-! Channels and lanes: what safing, losing and draining do (R64, R91, Tables 2.16 and 3.5). -/

/-- The channel returns to Disabled (Table 3.5, last row): iterations stop. (DEDUCED, log 55; DEDUCED, log 60) -/
def Dev.toDisabled (d : Dev) (n : Nat) : Dev :=
  let d := d.onChan n fun c => { c with ramp := false, reattach := none, trigPend := false, narm := false, ndir := false, rngHeld := [] }
  (((d.setN O.chForceLoopState 0 n).setN O.chEnable 0 n).setN O.chSsActive 0 n).setN O.chRngNbr 0 n

/-- A disabled slot's words: DAC code 0, MODE = 10, everything off (R111). (DEDUCED, log 51) -/
def disconnected (o : SlotOut) : SlotOut := { irng := o.irng, vrng := o.vrng }

/-- MODE = 11 for the slot in every down-frame until its release, with DAC code 0 (R64, R111). (DEDUCED, log 51) -/
def Dev.safeChannel (d : Dev) (n : Nat) : Dev :=
  let l := d.lane (n / 8)
  let s := n % 8
  if bit l.safed s then d
  else
    let o := l.outs[s]?.getD {}
    let l := { l with safed := setBit l.safed s, outs := l.outs.setIfInBounds s { disconnected o with mode := 3 } }
    (d.setLane (n / 8) l).toDisabled n

def Dev.setLaneState (d : Dev) (n st : Nat) : Dev :=
  if d.nat O.laneState n = st then d else (d.setN O.laneState st n).event (85 + n) d.clk

/-- Every slot of the lane is safed at the slice: LCMD = SAFE (Table 2.14), every channel disabled (R111).
(DEDUCED, log 51) -/
def Dev.safeLane (d : Dev) (n : Nat) : Dev :=
  let d := d.onLane n fun l => { l with lcmd := 4, safed := 0xFF, outs := l.outs.map disconnected }
  forUpto 8 (fun s x => x.toDisabled (8 * n + s)) d

/-- The lane domain is off: the lane's state is gone, its sequencers return to IDLE (Table 7.5) and its objects read as R404
gives. -/
def Dev.laneOff (d : Dev) (n : Nat) : Dev :=
  let d := forUpto 8 (fun s x => (x.toDisabled (8 * n + s))) d
  let keepC := fun (x : Dev) (k : Nat) =>
    let c := x.chan k
    x.setChan k { ({} : Chan) with c := c.c, resSeq := c.resSeq, lastRec := c.lastRec, override := c.override,
                                     bootEnable := c.bootEnable }
  let d := forUpto 8 (fun s x => keepC x (8 * n + s)) d
  let seqOff := fun (x : Dev) (i : Nat) =>
    if x.nat O.seqState i = 0 then x
    else
      let x := { x with seqs := x.seqs.setIfInBounds i { x.seqs[i]?.getD {} with seg := none, vals := [] } }
      (x.setN O.seqState 0 i).flag O.seqFlags 2 i
  let d := forUpto 8 (fun s x => seqOff x (8 * n + s)) d
  let d := (d.setLaneState n 0).dropLane n
  let d := forUpto 8 (fun s x => apRefresh x (8 * n + s)) d
  let d := { d with lanes := d.lanes.setIfInBounds n { autostarted := (d.lane n).autostarted },
                      traces := d.traces.setIfInBounds n {} }
  d.unpower (n + 1)

/-- The lane's domain goes off without a drain: W of every channel is lost (R192). -/
def Dev.laneCut (d : Dev) (n : Nat) : Dev := (forUpto 8 (fun s x => apLose x (8 * n + s)) d).laneOff n

/-- LCMD = SAFE and DRAIN, or OFF straight from IDLE when the domain is to go off (Table 2.16), with STATUS read while the link is
trained; apertures end as R192 gives when the domain is being switched off. (DEDUCED, log 48) -/
def Dev.drainLane (d : Dev) (n : Nat) (off : Bool) : Dev :=
  let st := d.nat O.laneState n
  let endAps := fun (x : Dev) => forUpto 8 (fun s y => apEnd y (8 * n + s)) x
  if st = 0 then d
  else if st = 1 then (if off then (endAps d).laneOff n else d)
  else if st = 8 then
    if off && !(d.lane n).switchingOff then (endAps d).onLane n fun l => { l with switchingOff := true } else d
  else
    let d := d.safeLane n
    let d := if off then endAps d else d
    let d := d.onLane n fun l => { l with drainAt := d.up, switchingOff := off, txQueue := if l.aligned then l.txQueue ++ [(2, [])] else l.txQueue }
    d.setLaneState n 8

/-! Device state. -/

/-- The snapshot of Table 20.5. -/
def Dev.snapshot (d : Dev) (src cls reaction cause : Nat) : Bytes :=
  let lane := if src < 48 then d.nat O.laneState (src % 12) else 0xFF
  let chs := if 12 ≤ src ∧ src < 36 then d.nat O.chStatus (cause % 65536) else 0
  leBytes 2 src ++ leBytes 1 cls ++ leBytes 1 reaction ++ leBytes 4 cause ++ leInt 8 d.now ++ leBytes 8 d.up
  ++ leBytes 1 (d.nat O.devState) ++ leBytes 1 (d.nat O.clkState) ++ leBytes 2 (min 65535 d.fcr.merged)
  ++ leBytes 4 (d.nat O.pmuPdState) ++ leBytes 1 lane ++ leBytes 1 (d.nat O.todState) ++ leBytes 1 (d.nat O.ctbState)
  ++ leBytes 1 (d.nat O.fcrCoreActive) ++ leBytes 4 ((d.up - d.fcr.ckptAt) / 1000) ++ leBytes 4 chs ++ [0, 0, 0, 0]

/-- A record of the fault history (R508): kinds 1 first-source latch, 2 severe raise, 3 state change, 4 ACK.
(DEDUCED, log 56) -/
def Dev.history (d : Dev) (kind : Nat) (snap : Bytes) : Dev :=
  let s := d.nat O.fcrHistorySeq + 1
  let r := leBytes 8 s ++ padTo 48 snap ++ leBytes 1 kind ++ [0, 0, 0]
  let d := { d with fcr := { d.fcr with history := lastN 2048 (d.fcr.history ++ [r ++ leBytes 4 (crc32c r)]) } }
  d.setN O.fcrHistorySeq s

/-- A transition of the device state (R413, Table 21.4 code 1, Table 14.10 kind 5). -/
def Dev.enterState (d : Dev) (new reason : Nat) : Dev :=
  let old := d.nat O.devState
  if old = new then d
  else
    let d := ((((d.setN O.devPrevState old).setN O.devState new).setI O.devSince d.now).setN O.devReason reason).bump
      O.devTransitions
    let d := d.station 1 0 (leBytes 1 new ++ leBytes 1 old ++ leBytes 2 reason)
    d.notifyStation 1 new

/-- The conditions of Table 20.12 that hold now. -/
def Dev.fallowHolds (d : Dev) : Nat :=
  (if d.nat O.fallowLanes ≠ 0 then 1 else 0) + (if d.nat O.fcrCoreLost ≠ 0 then 2 else 0) + 4 * (d.fcr.holds % 32)

/-- Output `k` takes the value `u` at uptime `at` (R354, R357). -/
def axdSet (d : Dev) (k u at_ : Nat) : Dev :=
  let old := d.nat O.axdOut k
  if old = u then d
  else
    let x := d.axdK k
    (d.setAxd k { x with uPrev := old, uPrevAt := x.uAt, uAt := at_ }).setN O.axdOut u k

/-- Table 13.5, entry into SAFE with `axd.safe_en` = 1, modes 1 to 3. (DEDUCED, log 86) -/
def axdSafe (d : Dev) : Dev :=
  forUpto 4 (fun k x =>
    if x.on O.axdSafeEn k ∧ x.nat O.axdMode k ≠ 0 ∧ bit (x.nat O.pmuPdState) 19 then
      (axdSet x k (x.nat O.axdSafeCode k) x.up).setN O.axdState 0 k
    else x) d

/-- The counts of relay operations go to MRAM (R264). -/
def relayCountSave (d : Dev) : Dev := { d with psc := { d.psc with rb := { d.psc.rb with saved := d.psc.rb.counts } } }

/-- A lane whose slice may be attached: it transmits, and does not drain already. -/
def attachedState (st : Nat) : Bool := decide (2 ≤ st) && st != 8

/-- Entry into SAFE (R8): every slice is commanded safe; the state and its records. -/
def Dev.enterSafe (d : Dev) (reason : Nat) : Dev :=
  let st := d.nat O.devState
  if st = 4 then d
  else
    let d := forUpto 12 (fun n x => if attachedState (x.nat O.laneState n) then x.safeLane n else x) d
    let d := if bit d.pmu.power 14 then relayCountSave d else d
    let d := (axdSafe d).enterState 4 reason
    d.history 3 (d.snapshot 0 0 0 0)

/-- Entry into FALLOW (R519, R522, R523). -/
def Dev.enterFallow (d : Dev) (reason : Nat) : Dev :=
  let d := { d with replace := true }
  let d := d.enterState 3 reason
  let d := (d.setI O.fallowSince d.now).bump O.fallowEntries
  d.history 3 (d.snapshot 0 0 0 0)

/-- Conditions that have arisen set their bits (R520), the lost capabilities follow (R521), and MEADOW is left for FALLOW. -/
def Dev.updateFallow (d : Dev) : Dev :=
  let h := d.fallowHolds
  let old := d.nat O.fallowCauses
  let new := orWord old h
  let d := (d.setN O.fallowCauses new).setN O.fallowLost (h % 64)
  if d.nat O.devState = 2 ∧ h ≠ 0 then d.enterFallow 0x0201
  else if d.nat O.devState = 3 ∧ new ≠ old then d.history 3 (d.snapshot 0 0 0 0)
  else d

/-- Isolation of a lane (R524). -/
def Dev.isolateLane (d : Dev) (n : Nat) : Dev :=
  if bit (d.nat O.fallowIsolated) n then d
  else
    let d := (d.flag O.fallowIsolated (1 <<< n)).flag O.fallowLanes (1 <<< n)
    (d.drainLane n true).updateFallow

/-- A service core is declared lost (R514): its domain goes off without reset. -/
def Dev.loseCore (d : Dev) (core : Nat) : Dev :=
  let d := d.flag O.fcrCoreLost (1 <<< core)
  let d := (d.unpower (21 + core)).setN O.fcrCoreStandby 0
  { d with fcr := { d.fcr with rejoining := clrBit d.fcr.rejoining core } }

/-! Raising a fault source (R499-R508). -/

/-- Bit of a compatibility block that a source sets: block and bit (Table 20.7). -/
def compatBit (s : Nat) : Option (Nat × Nat) :=
  if s < 48 then some (s / 12, s % 12)
  else if s = 48 then some (7, 0)
  else if s < 54 then some (4, s - 49)
  else if s = 54 then some (7, 1)
  else if s < 58 then some (5, s - 55)
  else if s < 62 then some (6, s - 58)
  else if s = 62 then some (5, 3)
  else if s = 63 then some (8, 8)
  else if s < 72 then some (8, s - 64)
  else none

/-- Table 20.2. -/
def causeWord (inj : Bool) (level cause detail : Nat) : Nat := b2n inj * 2 ^ 31 + level * 2 ^ 29 + cause * 2 ^ 16 + detail

/-- A raise is severe (R501), given the ring with this raise in front. -/
def severeBy (n w level : Nat) (ring : List Nat) : Bool :=
  level == 2 || (1 ≤ n && decide (n ≤ ring.length) &&
    (match ring.head?, ring[n - 1]? with | some a, some b => decide (a - b ≤ w) | _, _ => false))

/-- What a raise does to the conditions 2 to 6 of Table 20.12 (bits 0 to 4 of `holds`). (DEDUCED, log 39) -/
def holdsAfter (h src level cause : Nat) : Nat :=
  if src = 60 then putBit h 0 (level == 2)
  else if src = 62 ∧ cause = 5 then putBit h 1 (level == 2)
  else if src = 53 ∧ cause = 3 then setBit h 2
  else if src = 62 ∧ cause = 6 then setBit h 3
  else h

/-- The part of R499 that FCR does in the cycle of the raise. -/
def Dev.countRaise (d : Dev) (src word : Nat) : Dev :=
  let d := d.flag O.fcrStatus (1 <<< (src % 32)) 0 (src / 32)
  let d := (d.bump O.fcrSrcCount (src / 128) (src % 128)).bump O.fcrRaises
  let d := (d.setN O.fcrSrcCause word (src / 128) (src % 128)).setI O.fcrSrcLast d.now (src / 128) (src % 128)
  match compatBit src with
  | some (b, k) => d.flag O.compatBlkStatus (1 <<< k) b
  | none => d

/-- First source, merging and overflow (R505, R506); the flag says that the snapshot was latched. -/
def Dev.firstSource (d : Dev) (src cls reaction word : Nat) : Dev × Bool :=
  match d.fcr.firstAt with
  | none =>
    if d.on O.fcrFirstHeld then (d.flag O.fcrFlags 2, false)
    else
      let d := { d with fcr := { d.fcr with firstAt := some d.up, merged := 0 } }
      let d := (d.setBytes O.fcrFirst (d.snapshot src cls reaction word)).setN O.fcrFirstHeld 1
      (d.event 70 d.clk, true)
  | some t =>
    if d.up - t ≤ 500000 then
      let m := min 65535 (d.fcr.merged + 1)
      let d := { d with fcr := { d.fcr with merged := m } }
      (d.setBytes O.fcrFirst (splice (d.byt O.fcrFirst) 26 (leBytes 2 m)), false)
    else (d.flag O.fcrFlags 2, false)

/-- The action of a reaction beyond RECORD and NOTIFY (Table 20.3); in BOOT and HEATH a device-state action is held. -/
def Dev.react (d : Dev) (src reaction detail : Nat) : Dev :=
  let early := decide (d.nat O.devState = 0) || decide (d.nat O.devState = 1)
  if reaction = 2 ∧ 12 ≤ src ∧ src < 36 then d.safeChannel detail
  else if reaction = 3 ∧ src < 48 then d.isolateLane (src % 12)
  else if reaction = 4 then
    let d := { d with fcr := { d.fcr with holds := setBit d.fcr.holds 4 } }
    if early then { d with fcr := { d.fcr with heldAction := max d.fcr.heldAction 1 } }.updateFallow else d.updateFallow
  else if reaction = 5 then
    if early then { d with fcr := { d.fcr with heldAction := 2 } }
    else if d.nat O.devState = 2 ∨ d.nat O.devState = 3 then d.enterSafe 0x0202 else d
  else d

/-- The FAULT record of Table 21.3. -/
def Dev.faultRecord (d : Dev) (src cls reaction word hist : Nat) : Dev :=
  (d.stage (jrecord 3 src 0xFF word d.now
    (leBytes 1 cls ++ leBytes 1 reaction ++ [0, 0] ++ leBytes 8 d.up ++ leBytes 8 hist)) true).2

/-- A raise of source `src` (R499-R508). -/
def Dev.raise1 (d : Dev) (src level cause detail : Nat) (inj : Bool) : Dev :=
  let word := causeWord inj level cause detail
  let d := d.countRaise src word
  let d := if inj then d.flag O.fcrFlags 1 else d
  let noRing := decide (src = 68) && decide (cause = 3)
  let n := d.nat O.fcrSrcThresh (src / 128) (src % 128)
  let ring := if noRing then tabGet [] d.fcr.rings src else (d.up :: tabGet [] d.fcr.rings src).take (max n 1)
  let d := { d with fcr := { d.fcr with rings := tabSet [] d.fcr.rings src ring,
                                        holds := holdsAfter d.fcr.holds src level cause } }
  let severe := !noRing && severeBy n (d.nat O.fcrSrcWindow (src / 128) (src % 128)) level ring
  let d := if severe then d.flag O.fcrSevere (1 <<< (src % 32)) 0 (src / 32) else d
  let reaction := if severe then d.nat O.fcrSrcReactSevere (src / 128) (src % 128)
    else d.nat O.fcrSrcReactMinor (src / 128) (src % 128)
  let d := { d with fcr := { d.fcr with lastSafe :=
    (d.fcr.lastSafe.filter (· != src)) ++ (if reaction = 5 then [src] else []) } }
  let cls := b2n severe
  let (d, latched) := d.firstSource src cls reaction word
  let d := if latched then d.history 1 (d.byt O.fcrFirst) else d
  let d := if severe then d.history 2 (d.snapshot src cls reaction word) else d
  let d := d.faultRecord src cls reaction word (if latched || severe then d.nat O.fcrHistorySeq else 0)
  let d := if 1 ≤ reaction then
      d.notify (fun s => s.kind == 2 && s.node == d.node) 3 d.node 0 (leBytes 2 src ++ [0, 0] ++ leBytes 4 word) else d
  let d := if src = 68 ∧ severe then d.loseCore detail else d
  (d.react src reaction detail).updateFallow

/-- A raise, and the raise of F069 when its record began to overwrite the RAM ring (R517). -/
def Dev.raise (d : Dev) (src level cause detail : Nat) (inj : Bool := false) : Dev :=
  let before := d.jrn.gapRun.isSome
  let d := d.raise1 src level cause detail inj
  if d.jrn.gapRun.isSome && !before then d.raise1 69 0 3 0 false else d

/-! Writes of stores that an injection spoils (R509, R575). -/

/-- One hardware write to store `n` (Table 20.6): 0 clean, 1 or 2 check bits inverted. (DEDUCED, log 68) -/
def memWrite (d : Dev) (n : Nat) : Dev × Nat :=
  match d.fcr.inject with
  | some x =>
    if (x.target = 1 ∨ x.target = 2) ∧ x.unit = n ∧ 0 < x.left then
      let left := x.left - 1
      ({ d with fcr := { d.fcr with inject := if left = 0 then none else some { x with left := left } } }, x.target)
    else (d, 0)
  | none => (d, 0)

/-- `k` hardware writes to store `n` in a row: how many of the first are spoiled, and how. (DEDUCED, log 68) -/
def memWrites (d : Dev) (n k : Nat) : Dev × Nat × Nat :=
  match d.fcr.inject with
  | some x =>
    if (x.target = 1 ∨ x.target = 2) ∧ x.unit = n ∧ 0 < x.left then
      let m := min k x.left
      ({ d with fcr := { d.fcr with inject := if x.left = m then none else some { x with left := x.left - m } } }, m, x.target)
    else (d, 0, 0)
  | none => (d, 0, 0)

/-- A single-bit error found by a read is corrected and counted (R45). -/
def countFixed (d : Dev) (n k : Nat) : Dev :=
  { d with fcr := { d.fcr with corrected := tabSet 0 d.fcr.corrected n (tabGet 0 d.fcr.corrected n + k) } }

end Sys2Proof.Machine
end

