-- ==== Sys2Proof/Machine/Lce.lean ====
section
/-! DEFINITION. The arithmetic of the loop compute engine: scale constants (R101), calibration (R102-R104), the block mean
(R106), the control law (R108), output coding (R110), the limits and ranges in force (R153, R154, R173, R176), the
repetitive term (R137, R138) and the hardware clamp (R67, R175). -/
namespace Sys2Proof.Machine

/-! Ranges of the slice. -/

def rangesOf (ds : Option Desc) (cur : Bool) : List RangeEntry :=
  match ds with | none => [] | some x => if cur then x.irng else x.vrng
def rangeAt (ds : Option Desc) (cur : Bool) (r : Nat) : RangeEntry := (rangesOf ds cur).getD r ⟨1, 1, 0, 1, false, 0⟩
def topIndex (ds : Option Desc) (cur : Bool) : Nat := (rangesOf ds cur).length - 1
def canForce (ds : Option Desc) (cur : Bool) (r : Nat) : Bool := (rangeAt ds cur r).dacFs != 0
def absLimit (ds : Option Desc) (cur : Bool) : Int := match ds with | none => 0 | some x => if cur then x.absI else x.absV
def latencyOf (ds : Option Desc) : Nat := match ds with | none => 1 | some x => x.latency
def slotPresent (ds : Option Desc) (s : Nat) : Bool := match ds with | none => true | some x => bit x.slots s

/-! R101. -/
def knOf (e : RangeEntry) : Q32 := ratioQ (2 ^ 28) e.adcFs
def krOf (e : RangeEntry) : Q32 := ratioQ (2 ^ 28) e.fullScale
def ksOf (e : RangeEntry) : Q32 := ratioQ e.dacFs (2 ^ 28)
def dacLimOf (e : RangeEntry) : Int := roundDiv (e.dacFs * e.maxForce) e.fullScale
/-- Ratio of two full scales of one quantity (kfr of R133, kb of R137). -/
def fsRatio (a b : RangeEntry) : Q32 := ratioQ a.fullScale b.fullScale

/-! Calibration entries (R540, Table 21.8). -/

structure CalEntry where
  g : Q32 := qOne
  k2 : Q32 := qZero
  o : Int := 0
  go : Q32 := qOne
  oo : Int := 0
  deriving DecidableEq, Repr

def q32At (b : Bytes) (off : Nat) : Q32 := ⟨leFieldI b off 4, leField b (off + 4) 1⟩
def q32Bytes (q : Q32) : Bytes := leInt 4 q.int ++ leBytes 1 q.shift ++ [0, 0, 0]

/-- The copy of a block in force: the valid one with the higher write sequence (R539). -/
def calValid (unit : Bool) (b : Bytes) : Bool :=
  if unit then decide (32 < b.length) && leField b 28 4 == crc32c (b.drop 32 ++ b.take 28)
  else b.length == 640 && leField b 60 4 == crc32c (b.drop 64 ++ b.take 60)
def calInForce (unit : Bool) (c : CalBlk) : Bytes :=
  let va := calValid unit c.a
  let vb := calValid unit c.b
  if va && (!vb || decide (c.seqB ≤ c.seqA)) then c.a else if vb then c.b else []

/-- A nominal entry and the empty channel block (R540). -/
def nominalEntry : Bytes := q32Bytes qOne ++ q32Bytes qZero ++ leInt 4 0 ++ q32Bytes qOne ++ leInt 4 0
def emptyChanBlock : Bytes :=
  let body := (List.range 18).flatMap (fun _ => nominalEntry)
  let head := List.replicate 16 0 ++ leInt 8 i64Min ++ [0, 0] ++ leBytes 2 0x8000 ++ List.replicate 32 0
  head ++ leBytes 4 (crc32c (body ++ head)) ++ body

def calBlk (d : Dev) (k : Nat) : CalBlk := tabGet {} d.cal.blocks k
def chanBlock (d : Dev) (n : Nat) : Bytes :=
  let b := calInForce false (calBlk d n)
  if b = [] then emptyChanBlock else b
/-- Index of the entry of a range: IRNGk at k, VRNGk at 12 + k. -/
def entryIndex (cur : Bool) (r : Nat) : Nat := if cur then r else 12 + r
def entryAt (b : Bytes) (k : Nat) : CalEntry :=
  let o := 64 + 32 * k
  { g := q32At b o, k2 := q32At b (o + 8), o := leFieldI b (o + 16) 4, go := q32At b (o + 20), oo := leFieldI b (o + 28) 4 }
/-- R543: an UNCALIBRATED channel uses nominal entries. -/
def calEntry (d : Dev) (n : Nat) (cur : Bool) (r : Nat) : CalEntry :=
  if d.nat O.chCalState n ≠ 0 then {} else entryAt (chanBlock d n) (entryIndex cur r)

/-! R102-R104. -/

def nominal (kn : Q32) (c : Int) : Int := narrow32 (qMul kn c)
def calIn (e : CalEntry) (cn : Int) : Int :=
  let lin := qMul e.g cn
  let sq := roundShift (cn * cn) 28
  let quad := qMul e.k2 (narrow32 sq)
  narrow32 (lin + quad + e.o)
def physOf (x fs : Int) : Int := narrow64 (roundShift (x * fs) 28)
/-- A physical value in loop units of a range (R105). -/
def loopOf (kr : Q32) (phys : Int) : Int := narrow32 (qMul kr phys)

/-- R103: no value for the code 0x80_0000. -/
def calibrate (d : Dev) (n : Nat) (ds : Option Desc) (cur : Bool) (r : Nat) (code : Int) : Option CVal :=
  if code = -8388608 ∨ (rangesOf ds cur).length ≤ r then none
  else
    let e := rangeAt ds cur r
    let cn := nominal (knOf e) code
    let x := calIn (calEntry d n cur r) cn
    some ⟨x, physOf x e.fullScale, r, decide (code = 8388607 ∨ code = -8388607), cn⟩

/-! R106. -/

/-- The value of a quantity in one processed frame, if it is usable. -/
def smpVal (cur : Bool) (s : Smp) : Option CVal := if s.ok then (if cur then s.i else s.v) else none
/-- Sum, count and range of the usable samples whose range is that of the last usable one; the newest frame is first. -/
def meanAcc (cur : Bool) (l : List Smp) : Int × Nat × Option Nat :=
  l.foldl (fun (acc : Int × Nat × Option Nat) s =>
    match smpVal cur s, acc.2.2 with
    | some x, none => (x.cal, 1, some x.rng)
    | some x, some r => if x.rng = r then (acc.1 + x.cal, acc.2.1 + 1, some r) else acc
    | none, _ => acc) (0, 0, none)
/-- The mean of the newest `k` frames in loop units of range `act`; none without a usable sample. -/
def blockMean (ds : Option Desc) (cur : Bool) (act k : Nat) (hist : List Smp) : Option Int :=
  match meanAcc cur (hist.take k) with
  | (s, m, some r) =>
    let y := roundDiv s m
    some (if r = act then y
      else loopOf (krOf (rangeAt ds cur act)) (physOf y (rangeAt ds cur r).fullScale))
  | (_, _, none) => none

/-! R108. -/

structure Coefs where
  kp : Q32
  ki : Q32
  kd : Q32
  alpha : Q32
  b : Q32
  c : Q32
  kff : Q32
  ffc : Int
  deriving DecidableEq, Repr

def coefs (d : Dev) (n k : Nat) : Coefs :=
  { kp := d.q O.chCoefKp n k, ki := d.q O.chCoefKi n k, kd := d.q O.chCoefKd n k, alpha := d.q O.chCoefAlpha n k,
    b := d.q O.chCoefB n k, c := d.q O.chCoefC n k, kff := d.q O.chCoefKff n k, ffc := d.int O.chCoefFfc n k }

structure LawIn where
  y : Int
  r : Int
  rep : Int
  uLo : Int
  uHi : Int
  deriving DecidableEq, Repr

structure LawSt where
  integ : Int
  dState : Int
  dPrevIn : Int
  uPrev : Int
  deriving DecidableEq, Repr

structure LawOut where
  pIn : Int
  p : Int
  dIn : Int
  ff : Int
  uRaw : Int
  sat : Nat
  u : Int
  e : Int
  di : Int
  deriving DecidableEq, Repr

/-- Steps 1 to 3 without the derivative: proportional input, proportional term, derivative input, feed-forward. -/
def lawTerms (k : Coefs) (r y : Int) : Int × Int × Int × Int :=
  let pIn := narrow32 (qMul k.b r - y)
  (pIn, qMul k.kp pIn, narrow32 (qMul k.c r - y), qMul k.kff r + k.ffc)

/-- The saturation state of an unclamped sum. -/
def satOf (uRaw lo hi : Int) : Nat := if uRaw < lo then 2 else if hi < uRaw then 1 else 0

/-- R108. -/
def law (k : Coefs) (x : LawIn) (s : LawSt) : LawSt × LawOut :=
  let (pIn, p, dIn, ff) := lawTerms k x.r x.y
  let dd := narrow32 (dIn - s.dPrevIn)
  let dState := narrow32 (qMul k.alpha s.dState + qMul k.kd dd)
  let uRaw := p + dState + s.integ + ff + x.rep
  let sat := satOf uRaw x.uLo x.uHi
  let u := clampMM x.uLo x.uHi uRaw
  let e := narrow32 (x.r - x.y)
  let di := qMul k.ki e
  let held := (sat = 1 ∧ 0 < di) ∨ (sat = 2 ∧ di < 0)
  let integ := if held then s.integ else narrow32 (s.integ + di)
  let integ := clampMM x.uLo x.uHi integ
  (⟨integ, dState, dIn, u⟩, ⟨pIn, p, dIn, ff, uRaw, sat, u, e, di⟩)

/-- R110: the calibrated output, the code, and whether it was limited. -/
def dacCode (e : RangeEntry) (c : CalEntry) (u : Int) : Int × Int × Bool :=
  let uc := narrow32 (qMul c.go u + c.oo)
  let code := qMul (ksOf e) uc
  let lim := dacLimOf e
  (uc, clampI (-lim) lim code, decide (code < -lim ∨ lim < code))

/-- R118: the loop value nearest to the centre of the interval of outputs that R110 codes to `h`: the interval's ends are
found by search from the inverse of the coding. -/
def codeOf (e : RangeEntry) (c : CalEntry) (u : Int) : Int := qMul (ksOf e) (narrow32 (qMul c.go u + c.oo))
/-- Least `u` in `lo..hi` with `codeOf u ≥ h`, the coding being monotone; `fuel` halvings. -/
def leastAtLeast (f : Int → Int) (h : Int) : Nat → Int → Int → Int
  | 0, lo, _ => lo
  | n + 1, lo, hi =>
    if hi ≤ lo then lo
    else
      let m := (lo + hi) / 2
      if h ≤ f m then leastAtLeast f h n lo m else leastAtLeast f h n (m + 1) hi
def heldOutput (e : RangeEntry) (c : CalEntry) (h : Int) : Int :=
  let f := fun u => (dacCode e c u).2.1
  let lo := leastAtLeast f h 40 i32Min i32Max
  let hi := if f i32Max ≤ h then i32Max else leastAtLeast f (h + 1) 40 i32Min i32Max - 1
  roundShift (lo + hi) 1

/-! What is in force for a channel: the bound point's values or its own (R239). -/

def chSrc (d : Dev) (n : Nat) : Nat := match (d.chan n).override with | some o => o.src | none => d.nat O.chForceSrc n
def chLevel (d : Dev) (n : Nat) (cur : Bool) : Int :=
  match (d.chan n).override with
  | some o => o.level
  | none => if cur then d.int O.chForceILevel n else d.int O.chForceVLevel n

/-! Limits and range settings in force (R154, R180, R182). -/

/-- Key of an object of `ch.limit` or `ch.rng` among those held. -/
def rngKey (o : Obj) : Nat := o.idx % 16 * 256 + o.sub
/-- The value in force: the one before a write that still waits for its point, else the object's. -/
def rngInt (d : Dev) (n : Nat) (o : Obj) : Int := (tabFind (d.chan n).rngHeld (rngKey o)).getD (d.int o n)
def rngNat (d : Dev) (n : Nat) (o : Obj) : Nat := (rngInt d n o).toNat
/-- A write of a forcing or measuring channel's limit or range setting waits, the value before it staying in force. -/
def holdRng (old : Dev) (o : Obj) (n : Nat) (d : Dev) : Dev :=
  if (o.idx % 16 = 2 ∨ o.idx % 16 = 3) ∧ o.acc = .rw ∧ d.nat O.chForceLoopState n ≠ 0 then
    d.onChan n fun c => { c with rngHeld := if (tabFind c.rngHeld (rngKey o)).isSome then c.rngHeld
                                            else tabPut c.rngHeld (rngKey o) (old.int o n) }
  else d
/-- The waiting writes of `ch.limit` (2) or `ch.rng` (3) come into force. -/
def Chan.releaseRng (c : Chan) (k : Nat) : Chan := { c with rngHeld := c.rngHeld.filter fun e => e.1 / 256 != k }
/-- As if no write waited. -/
def asWritten (d : Dev) (n : Nat) : Dev :=
  if (d.chan n).rngHeld.isEmpty then d else d.onChan n fun c => { c with rngHeld := [] }

/-- The pair of limits written, before R176. -/
def limRaw (d : Dev) (n : Nat) (cur : Bool) : Int × Int :=
  let own := if cur then (rngInt d n O.chLimitIPos, rngInt d n O.chLimitINeg) else (rngInt d n O.chLimitVPos, rngInt d n O.chLimitVNeg)
  match (d.chan n).override with
  | some o => (if cur then o.limI else o.limV).getD own
  | none => own
/-- The pair of limits in force: used as the absolute limit where they exceed it (R176). -/
def limits (d : Dev) (n : Nat) (cur : Bool) : Int × Int :=
  let (p, m) := limRaw d n cur
  match descOf d n with
  | none => (p, m)
  | some x => let a := if cur then x.absI else x.absV; (clampI (-a) a p, clampI (-a) a m)
def limSaturated (d : Dev) (n : Nat) (cur : Bool) : Bool := (descOf d n).isSome && limits d n cur != limRaw d n cur
/-- LIMIT_SAT of a channel whose limits are used saturated (R176). (DESIGN CHOICE, log 115) -/
def limitSat (d : Dev) (n : Nat) : Dev :=
  if limSaturated d n true || limSaturated d n false then d.flag O.chLimitFlags 4 n else d
def limMag (d : Dev) (n : Nat) (cur : Bool) : Int :=
  let (p, m) := limits d n cur
  max (max p (-p)) (max m (-m))

/-- One byte of range policy: the bound point's index, or the channel's object. -/
def policyByte (d : Dev) (n k : Nat) (o : Obj) : Nat :=
  match (d.chan n).override with
  | some v => let b := v.rng.getD k 0; if b = 0 then rngNat d n o else b - 1
  | none => rngNat d n o
/-- The effective floor and ceiling (R153). -/
def allowedSet (d : Dev) (n : Nat) (cur : Bool) : Nat × Nat :=
  let top := topIndex (descOf d n) cur
  let f := if cur then policyByte d n 0 O.chRngIFloor else policyByte d n 3 O.chRngVFloor
  let c := if cur then policyByte d n 1 O.chRngICeil else policyByte d n 4 O.chRngVCeil
  let p := if cur then policyByte d n 2 O.chRngIPin else policyByte d n 5 O.chRngVPin
  if p = 0xFF then (min f top, min c top) else (min p top, min p top)

/-- Indices of the allowed set, ascending. -/
def allowedList (d : Dev) (n : Nat) (cur : Bool) : List Nat :=
  let (f, c) := allowedSet d n cur
  (List.range (c + 1)).filter (fun k => decide (f ≤ k))

/-- R154 for a range that must be able to force: none when no range of the allowed set can. -/
def forceRange (d : Dev) (n : Nat) (cur : Bool) : Option Nat :=
  let ds := descOf d n
  let lim := limMag d n cur
  let able := (allowedList d n cur).filter (fun k => canForce ds cur k)
  let ok := able.filter fun k =>
    decide (lim ≤ (rangeAt ds cur k).maxForce) && (cur || decide (lim ≤ (rangeAt ds cur k).fullScale))
  match ok with
  | k :: _ => some k
  | [] => able.getLast?
/-- R154 for a range chosen from the limits only: smallest with enough full scale, else the effective ceiling. -/
def limitRange (d : Dev) (n : Nat) (cur : Bool) : Nat :=
  let ds := descOf d n
  let lim := limMag d n cur
  match (allowedList d n cur).find? (fun k => decide (lim ≤ (rangeAt ds cur k).fullScale)) with
  | some k => k
  | none => (allowedSet d n cur).2
/-- The ranges a channel starts with: current and voltage (R154); none where its forcing range cannot force. -/
def startRanges (d : Dev) (n : Nat) : Option (Nat × Nat) :=
  let mode := chMode d n
  if mode = 0 then (forceRange d n false).map (fun v => (limitRange d n true, v))
  else if mode = 1 then (forceRange d n true).map (fun i => (i, limitRange d n false))
  else some (limitRange d n true, limitRange d n false)

/-- R173: output bounds in loop units of the forcing range. -/
def outputBounds (d : Dev) (n : Nat) (cur : Bool) (r : Nat) : Int × Int :=
  let e := rangeAt (descOf d n) cur r
  let (p, m) := limits d n cur
  (loopOf (krOf e) (max m (-e.maxForce)), loopOf (krOf e) (min p e.maxForce))

/-! Repetitive controller (R136-R138). -/

def repN (code : Nat) : Nat := 256 * 2 ^ code
def repSh (code : Nat) : Nat := 8 - code
def binOf (c : Chan) (j : Nat) : Int := tabGet 0 c.bins j

/-- R137: the interpolated bin at the phase plus lead, in loop units of the bin range. -/
def repRead (code phi lead : Nat) (c : Chan) : Int × Nat × Nat :=
  let sh := repSh code
  let n := repN code
  let pr := (phi + lead) % 65536
  let i := pr >>> sh
  let fr := pr % 2 ^ sh
  let i1 := (i + 1) % n
  (narrow32 (binOf c i + roundShift ((binOf c i1 - binOf c i) * fr) sh), i, i1)

structure RepCoefs where
  kl : Q32
  lam : Q32
  q0 : Q32
  q1 : Q32
  limit : Int
  deriving DecidableEq, Repr

/-- R138 for one bin: the new value and the learning increment. -/
def repUpdate (k : RepCoefs) (n j : Nat) (e : Int) (c : Chan) : Int × Int :=
  let jm := (j + n - 1) % n
  let jp := (j + 1) % n
  let f := qMul k.q0 (binOf c j) + qMul k.q1 (binOf c jm + binOf c jp)
  let f := qMul k.lam (narrow32 f)
  let l := qMul k.kl e
  (clampI (-k.limit) k.limit (narrow32 (f + l)), l)

/-! Hardware clamp (R67, R175). -/

/-- CRNG of a quantity: the smallest range, ignoring policy, that covers the limits, else the top range. -/
def clampRange (d : Dev) (n : Nat) (cur : Bool) : Nat :=
  let ds := descOf d n
  let l := (List.range (rangesOf ds cur).length).find?
    (fun k => decide (limMag d n cur ≤ (rangeAt ds cur k).fullScale))
  l.getD (topIndex ds cur)
/-- CPOS and CNEG for a slot and quantity; the margin is rounded to a whole nV or fA first. (DESIGN CHOICE, log 98) -/
def clampCodes (d : Dev) (n : Nat) (cur enabled : Bool) : Nat × Int × Int :=
  let ds := descOf d n
  let r := clampRange d n cur
  let e := rangeAt ds cur r
  let a := absLimit ds cur
  let m := roundDiv (d.int O.laneClampMargin (n / 8) * e.fullScale) 10000
  let code := fun (w : Int) => clampI (-8388607) 8388607 (roundDiv (w * e.adcFs) e.fullScale)
  let (p, q) := if enabled then limits d n cur else (0, 0)
  (r, code (clampI (-a) a (p + m)), code (clampI (-a) a (q - m)))

end Sys2Proof.Machine
end

