-- ==== Sys2Proof/Machine/Link.lean ====
section
/-! DEFINITION. The Sward link (chapter 2): up-frames and their acceptance, down-frames, the message channel, the descriptor
and the lane state machine of Table 2.16. -/
namespace Sys2Proof.Machine

/-! Lane states of Table 2.16 and slice states of Table 2.14. -/
def lsOff := 0
def lsIdle := 1
def lsTrain := 2
def lsDescribe := 3
def lsRun := 4
def lsRetrain := 5
def lsReattach := 6
def lsLost := 7
def lsDrain := 8
def lsFault := 9
def ssReset := 0
def ssTrain := 1
def ssIdle := 2
def ssRun := 3
def ssHold := 4
def ssSafe := 5
def ssFault := 6
def lcTrain := 0
def lcIdle := 1
def lcRun := 2
def lcHold := 3
def lcSafe := 4

/-! Up-frames (Tables 2.1 to 2.4, 2.9). -/

def parseSeg (b : Bytes) : Seg :=
  let c := leNat (b.take 1)
  { valid := bit c 7, som := bit c 6, eom := bit c 5, tseq := bits c 4 3, aseq := bits c 2 1, avalid := bit c 0,
    payload := b.drop 1 }

def beSigned (n : Nat) (b : Bytes) (off : Nat) : Int := toSigned (8 * n) (beField b off n)

def parseSlot (b : Bytes) (s : Nat) : UpSlot :=
  let aux := beField b (80 + s) 1
  { v := beSigned 3 b (4 + 9 * s), i := beSigned 3 b (7 + 9 * s), nb := beSigned 3 b (10 + 9 * s),
    irng := bits aux 7 4, vrng := bits aux 3 1, ndir := bit aux 0 }

/-- Fields of offsets 1 to 96, `b` beginning at offset 1. -/
def parseUp (b : Bytes) : UpFrame :=
  let h := beField b 0 4
  let k := beField b 76 4
  { fcount := bits h 31 16, sstate := bits h 15 12, dnerr := bit h 11, descchg := bit h 10, sfault := bit h 9,
    attn := bits h 7 0, slots := (List.range 8).map (parseSlot b), chkSlot := bits k 31 29, chkQty := bits k 28 28,
    chkRng := bits k 27 24, chkVal := toSigned 24 (bits k 23 0), seg := parseSeg (slice b 88 8) }

/-- The CRC of R56, over offsets 1 to 96, is carried most significant byte first (R53). -/
def upCrcOk (b : Bytes) : Bool := b.length == 100 && crc32c (b.take 96) == beField b 96 4

/-! Requests and segments. -/

/-- A request joins the queue of the lane (R75: one is outstanding at a time). -/
def Link.send (l : Link) (typ : Nat) (body : Bytes) : Link := { l with txQueue := l.txQueue ++ [(typ, body)] }

/-- Seven payload bytes per segment, padded with zeros (R75). -/
def segments : Nat → Bytes → List Bytes
  | 0, _ => []
  | n + 1, b => if b = [] then [] else padTo 7 (b.take 7) :: segments n (b.drop 7)
def lmsgBytes (m : LMsg) : Bytes := leBytes 1 m.typ ++ leBytes 1 m.tag ++ beBytes 2 m.body.length ++ m.body

/-- With no request outstanding, the next waiting one is taken; tags count from 1 to 255 and begin again at 1.
(DESIGN CHOICE, log 95) -/
def Link.takeRequest (l : Link) : Link :=
  match l.request, l.txQueue with
  | none, (t, b) :: q =>
    let m : LMsg := ⟨t, l.nextTag, b⟩
    let segs := segments 200 (lmsgBytes m)
    { l with txQueue := q, request := some m, requestAt := none, nextTag := if l.nextTag = 255 then 1 else l.nextTag + 1,
             txSegs := segs, txFirst := true, inFlight := !segs.isEmpty, txPending := !segs.isEmpty, txResends := 0 }
  | _, _ => l

/-- Sequence state "none accepted": assembly, in-flight segments, the request outstanding and those queued are discarded;
a SET_HOLD among them is issued again after alignment (R74). -/
def Link.resetChannel (l : Link) : Link :=
  let hadHold := l.reSetHold || (match l.request with | some m => m.typ == 3 | none => false) || l.txQueue.any (·.1 == 3)
  { l with txQueue := [], request := none, requestAt := none, txSegs := [], txFirst := false, txSeq := 0, inFlight := false,
           txPending := false, txResends := 0, rxLast := none, rxPart := none, reSetHold := hadHold }

/-- The request outstanding is given up without a reset of the sequence state: the next request goes out under the TSEQ that
stands unacknowledged, or the next one. (DEDUCED, log 54) -/
def Link.dropRequest (l : Link) : Link :=
  { l with request := none, requestAt := none, txSegs := [], txFirst := false, inFlight := false, txPending := false, txResends := 0 }

/-- An acknowledgement of the segment in flight (R74). -/
def Link.rxAck (l : Link) (g : Seg) : Link :=
  if g.avalid && l.inFlight && !l.txPending && g.aseq == l.txSeq then
    let rest := l.txSegs.drop 1
    { l with txSegs := rest, txFirst := false, inFlight := !rest.isEmpty, txPending := !rest.isEmpty, txResends := 0,
             txSeq := (l.txSeq + 1) % 4 }
  else l

/-- A segment received (R74): the lane after it, and a message that it completes. -/
def Link.rxSeg (l : Link) (g : Seg) : Link × Option LMsg :=
  let l := l.rxAck g
  if !g.valid then (l, none)
  else
    let fits := match l.rxLast with | none => g.tseq == 0 | some k => g.tseq == (k + 1) % 4
    if !fits then (l, none)
    else
      let part := if g.som then some g.payload else l.rxPart.map (· ++ g.payload)
      let l := { l with rxLast := some g.tseq, rxPart := part }
      match part with
      | none => (l, none)
      | some b =>
        if g.eom then
          ({ l with rxPart := none }, some ⟨leField b 0 1, leField b 1 1, (b.drop 4).take (beField b 2 2)⟩)
        else (l, none)

/-! Down-frames (Tables 2.5 to 2.8). -/

/-- Table 2.7. (DEDUCED, log 51) -/
def commandWord (o : SlotOut) : Nat :=
  o.irng * 4096 + o.vrng * 512 + b2n o.ndir * 256 + b2n o.narm * 128 + o.mode * 32 + b2n o.ocon * 16 + b2n o.scon * 8
  + b2n o.pull * 4
def outOfWord (w : Nat) (dac : Int) : SlotOut :=
  { dac := dac, mode := bits w 6 5, ocon := bit w 4, scon := bit w 3, pull := bit w 2, irng := bits w 15 12,
    vrng := bits w 11 9, narm := bit w 7, ndir := bit w 8 }

/-- Range indices of a command word stay within the slice's descriptor (R63). -/
def fitOut (ds : Option Desc) (o : SlotOut) : SlotOut :=
  match ds with
  | none => o
  | some _ => { o with irng := min o.irng (topIndex ds true), vrng := min o.vrng (topIndex ds false) }

/-- What slot `s` is sent: an ABSENT slot is sent MODE = 10 with everything off (R94). -/
def slotOut (l : Link) (s : Nat) : SlotOut :=
  let o := l.outs[s]?.getD {}
  if slotPresent l.desc s then o else disconnected o

/-- Table 2.8 for frame `m`. -/
def clampUpdate (d : Dev) (lane m : Nat) : Bytes :=
  let s := m % 8
  let cur := (m / 8) % 2 == 1
  let n := 8 * lane + s
  let (r, p, q) := clampCodes (asWritten d n) n cur (d.nat O.chForceLoopState n != 0)
  beBytes 8 (s * 2 ^ 61 + b2n cur * 2 ^ 60 + (r % 16) * 2 ^ 56 + ofSigned 24 p * 2 ^ 32 + ofSigned 24 q * 2 ^ 8)

/-- The message segment of a down-frame: control byte and payload (Table 2.9). -/
def segmentBytes (l : Link) (quiet : Bool) : Bytes :=
  if quiet then List.replicate 8 0
  else
    let ack := match l.rxLast with | some k => k * 2 + 1 | none => 0
    match l.txPending, l.txSegs with
    | true, p :: rest => leBytes 1 (128 + b2n l.txFirst * 64 + b2n rest.isEmpty * 32 + l.txSeq * 8 + ack) ++ p
    | _, _ => leBytes 1 ack ++ List.replicate 7 0

/-- From entry into TRAIN or RETRAIN until alignment the channel is quiet (R74). (DEDUCED, log 49) -/
def quietChannel (d : Dev) (n : Nat) : Bool :=
  let st := d.nat O.laneState n
  st == 2 || ((st == 5 || st == 8 || st == 9) && !(d.lane n).aligned)

/-- Compose and send the down-frame of frame `m` (R61); outside RUN the slot fields repeat the last values sent (R85).  Blocks
count from the first frame with LCMD = RUN (R98). (DEDUCED, log 47; DEDUCED, log 49) -/
def sendDown (d : Dev) (n m : Nat) : Dev :=
  let l := d.lane n
  if !l.transmitting then d.setLane n { l with down := [] }
  else
    let quiet := quietChannel d n
    let l := if quiet then l else l.takeRequest
    let training := quiet && d.nat O.laneState n < 8
    let lc := if training then (if 0 < l.idleLeft then lcIdle else lcTrain)
      else if d.coasting && d.nat O.laneState n == lsRun then lcHold else l.lcmd
    let l := { l with idleLeft := l.idleLeft - 1 }
    let last := l.sentLog.head?.map (·.2)
    let outs := (if d.nat O.laneState n = lsRun then (List.range 8).map (slotOut l)
      else last.getD ((List.range 8).map (slotOut l))).map (fitOut l.desc)
    let body := beBytes 2 m ++ beBytes 2 (lc * 4096) ++ outs.flatMap (fun o => beBytes 3 (ofSigned 24 o.dac))
      ++ outs.flatMap (fun o => beBytes 2 (commandWord o)) ++ clampUpdate d n m ++ segmentBytes l quiet
    let first := l.txPending && l.txFirst && !quiet
    let run := d.nat O.laneState n == lsRun
    let l := { l with down := frameSyms (body ++ beBytes 4 (crc32c body)), downInv := bit l.polInForce 0, sentLog := ((m, outs) :: l.sentLog).take 64,
                      requestAt := if first && l.requestAt.isNone then some m else l.requestAt,
                      txPending := if quiet then l.txPending else false,
                      statusFrom := if first && (match l.request with | some q => q.typ == 2 | none => false) then m
                        else l.statusFrom,
                      runFrom := if run && l.runFrom.isNone then some m else l.runFrom,
                      m0 := if run && lc == lcRun && l.m0.isNone then some m else l.m0 }
    let l := if l.m0 = some m then { l with blockAt := m, divNow := d.nat O.laneDiv n, iters := [] } else l
    let d := d.setLane n l
    forUpto 8 (fun s x => (x.setN O.chTermCmd (commandWord (outs.getD s {})) (8 * n + s)).setI O.chForceDac
      (outs.getD s {}).dac (8 * n + s)) d

/-! Training and delays. -/

/-- R71: round trip, down-link and up-link delay in ps. -/
def splitDelay (rtts : List Int) (asym : Int) : Int × Int × Int :=
  let rt := roundDiv (sumI rtts) rtts.length
  if rt - asym < 0 then (rt, 0, rt)
  else if rt + asym < 0 then (rt, rt, 0)
  else
    let dn := roundDiv (rt - asym) 2
    (rt, dn, rt - dn)

def measureDelay (d : Dev) (n : Nat) : Dev × Bool :=
  let (rt, dn, up) := splitDelay (d.lane n).rtts (d.int O.laneLinkAsym n)
  (((d.setI O.laneLinkRtt rt n).setI O.laneLinkDDown dn n).setI O.laneLinkDUp up n, decide (dn ≤ 320000 ∧ up ≤ 320000))

/-- Alignment starts afresh (R74); LCMD stays TRAIN until Table 2.16 gives another. (DEDUCED, log 47) -/
def Link.restartAlign (l : Link) (pol : Nat) : Link :=
  { l.resetChannel with
    upRun := 0, badRun := 0, rtts := [], idleLeft := 16, aligned := false, polInForce := pol, lcmd := lcTrain }

/-- Entry into TRAIN (Table 2.16). -/
def startTrain (d : Dev) (n attempt : Nat) : Dev :=
  let l := d.lane n
  let l := { l.restartAlign (d.nat O.laneLinkPol n) with
    attempt := attempt, transmitting := true, trainAt := d.up,
    txFrom := if l.transmitting then l.txFrom else d.frame + 1, swl := if l.transmitting then l.swl else [] }
  (d.setLane n l).setLaneState n lsTrain

/-- Disengagement (R126): the inner keeps its cascade target; before the first tick that is the last target it iterated on,
which `engage` copied. (DESIGN CHOICE, log 99) -/
def disengage (d : Dev) (inner : Nat) (fault : Bool) : Dev :=
  let d := d.onChan inner fun c => { c with cascHeld := some c.cascTarget, engagedAt := none, ticked := false, innerN := 0,
                                            cascNew := [] }
  let d := d.setN O.chCascEngage 0 inner
  if fault then d.raise (12 + inner / 8) 0 3 inner else d

/-- Cascade pairs whose outer channel is lost, or whose lane is in FAULT or OFF, disengage at once (R126). -/
def cascadeSweep (d : Dev) : Dev :=
  forUpto 96 (fun k x =>
    if x.on O.chCascEngage k then
      let st := x.nat O.laneState (x.nat O.chCascPartner k / 8)
      if st = lsLost ∨ st = lsFault ∨ st = lsOff then disengage x k true else x
    else x) d

/-- FAULT with a raise of the lane's Sward source (Table 2.16); nothing more is asked of the slice, and the sequence state
stays, since R74 does not reset it here. (DEDUCED, log 49) -/
def toFault (d : Dev) (n cause : Nat) : Dev :=
  let d := (d.setLaneState n lsFault).onLane n fun l =>
    { l with txQueue := [], request := none, requestAt := none, reSetHold := l.resetChannel.reSetHold, faultAt := d.up,
             inRetrain := false }
  cascadeSweep (d.raise n 0 cause 0)

/-- Points in progress on a channel of lane `n` are to end LOST, whatever comes first of a result and a pass (R91). -/
def losePoints (d : Dev) (n : Nat) : Dev :=
  let upd := fun (r : PtRun) => if r.chans.any (fun k => k / 8 == n) then { r with lost := true } else r
  { d with psc := { d.psc with runs := d.psc.runs.map fun e => (e.1, upd e.2) } }

/-- A concluded slice reset (R91); no channel of the lane is enabled again by itself (R92). (DEDUCED, log 47) -/
def toLost (d : Dev) (n : Nat) : Dev :=
  let d := forUpto 8 (fun s x =>
    ((apEnd x (8 * n + s)).toDisabled (8 * n + s)).onChan (8 * n + s) fun c => { c with bootEnable := false }) (losePoints d n)
  let d := d.onLane n fun l =>
    { l with lcmd := lcIdle, m0 := none, runFrom := none, inRetrain := false, safed := 0, expectIdle := false, autostarted := true }
  cascadeSweep ((d.setLaneState n lsLost).raise n 0 4 0)

/-- RUN to RETRAIN (Table 2.16). (DEDUCED, log 54) -/
def toRetrain (d : Dev) (n : Nat) : Dev :=
  let d := (d.setLaneState n lsRetrain).bump O.laneLinkRetrains n
  d.onLane n fun l => { l.restartAlign (d.nat O.laneLinkPol n) with retrainAt := d.up, inRetrain := true, retrainLate := false, m0 := none, runFrom := none }

/-- SET_HOLD with `lane.hold.timeout` in µs (R82). -/
def sendSetHold (d : Dev) (n : Nat) : Dev := d.onLane n fun l => l.send 3 (beBytes 4 (d.nat O.laneHoldTimeout n / 1000))

/-- Entry into RUN: block count, checker states, filters and the gap of the last retrain. -/
def enterRun (d : Dev) (n : Nat) : Dev :=
  let l := d.lane n
  let d := if l.inRetrain then d.setN O.laneLinkLastGap (d.up - l.retrainAt) n else d
  let d := d.setLane n { l with m0 := none, runFrom := none, inRetrain := false, attach := false, iters := [] }
  let d := forUpto 8 (fun s x =>
    (x.onChan (8 * n + s) fun c => { c with filtReset := true, chkRunV := 0, chkRunI := 0 }).setN O.chChkState 0 (8 * n + s)) d
  d.setLaneState n lsRun

/-- RUN with every slot disconnected and every channel disabled; LCMD = SAFE in SAFE (R83), which leaves an IDLE slice in
IDLE. -/
def runIdle (d : Dev) (n : Nat) : Dev :=
  let d := forUpto 8 (fun s x => x.toDisabled (8 * n + s)) d
  let d := d.onLane n fun l => { l with outs := l.outs.map disconnected, safed := 0, lcmd := lcRun }
  let d := enterRun d n
  if d.nat O.devState = 4 then (d.safeLane n).onLane n fun l => { l with expectIdle := true } else d

/-- RUN with the slots safed. -/
def runSafed (d : Dev) (n : Nat) : Dev := enterRun (d.safeLane n) n

/-! Reattach (R87-R89, R118). -/

/-- Device state and setting permit a reattach; they are tested again at each step toward it (R83, R87). -/
def mayReattach (d : Dev) (n : Nat) : Bool :=
  decide (d.nat O.devState = 2 ∨ d.nat O.devState = 3) && d.on O.laneHoldReattach n
def reattachConds (d : Dev) (n : Nat) (s : SStatus) : Bool × Bool :=
  (mayReattach d n && s.state == ssHold, decide (s.holdUs + 1000 ≤ s.timeoutUs))

/-- R88: whether a slot's held command agrees with its channel. The configured connection of a restored channel is that of
Forcing, or of Measuring. (DEDUCED, log 96) -/
def slotMatches (d : Dev) (n s : Nat) (t : SlotStatus) : Bool :=
  let k := 8 * n + s
  let o := outOfWord t.cmd t.dac
  let c := d.chan k
  let st := d.nat O.chForceLoopState k
  let ena := st != 0 || c.bootEnable
  let last := (d.lane n).outs[s]?.getD {}
  let conf := if st = 0 then (decide (d.nat O.chForceMode k < 2), true) else (last.ocon, last.scon)
  let okRange := fun (cur : Bool) (r : Nat) =>
    let (f, g) := allowedSet (asWritten d k) k cur
    decide (f ≤ r ∧ r ≤ g)
  ena && !bit t.flags 6 && o.mode == chMode d k && okRange true o.irng && okRange false o.vrng && o.ocon == conf.1 && o.scon == conf.2

/-- Send REATTACH with the token of the last STATUS. -/
def sendReattach (d : Dev) (n : Nat) : Dev :=
  match (d.lane n).status with
  | none => d
  | some s =>
    let m := (List.range 8).foldl (fun acc k =>
      if slotPresent (d.lane n).desc k && slotMatches d n k (s.slots.getD k ⟨0, 0, 0⟩) then setBit acc k else acc) 0
    let d := d.onLane n fun l => { l.send 4 (leBytes 1 s.token) with matched := m }
    d.setLaneState n lsReattach

/-- A matched slot takes the held code and command and resumes; one that did not match is safed (R88). -/
def resumeSlot (n : Nat) (t : SStatus) (matched : Nat) (s : Nat) (d : Dev) : Dev :=
  let k := 8 * n + s
  let x := t.slots.getD s ⟨0, 0, 0⟩
  let o := outOfWord x.cmd x.dac
  if !slotPresent (d.lane n).desc s then (d.toDisabled k)
  else if bit matched s then
    let d := d.onLane n fun l => { l with outs := l.outs.setIfInBounds s o, safed := clrBit l.safed s }
    let st := d.nat O.chForceLoopState k
    let d := if st = 0 then (d.setN O.chForceLoopState (if chMode d k = 2 then 5 else 2) k).setN O.chEnable 1 k else d
    let d := d.onChan k fun c => { c with iAct := o.irng, vAct := o.vrng, narm := o.narm, ndir := o.ndir,
                                          reattach := if chMode d k = 2 then none else some o.dac, bootEnable := false }
    (d.setN O.chRngIActive o.irng k).setN O.chRngVActive o.vrng k
  else d.safeChannel k

/-- REATTACH refused or unanswered, or no longer permitted (R87, R89). -/
def reattachFailed (d : Dev) (n result : Nat) : Dev := runSafed (d.setN O.laneHoldLastResult result n) n

/-- ACK done to REATTACH (Table 2.16, R89). -/
def reattached (d : Dev) (n : Nat) : Dev :=
  match (d.lane n).status with
  | none => d
  | some t =>
    if !mayReattach d n then reattachFailed d n 4
    else
    let m := (d.lane n).matched
    let usable := (List.range 8).filter (fun s => slotPresent (d.lane n).desc s)
    let all := usable.all (fun s => bit m s)
    let d := d.onLane n fun l => { l with safed := 0, lcmd := lcRun }
    let d := forUpto 8 (fun s x => resumeSlot n t m s x) d
    let d := d.setN O.laneHoldLastResult (if all then 1 else 2) n
    enterRun d n

/-! Descriptor (R77, R78). -/

def parseRange (b : Bytes) (off : Nat) : RangeEntry :=
  { fullScale := toSigned 64 (beField b off 8), adcFs := beField b (off + 8) 4, dacFs := beField b (off + 12) 4,
    settle := beField b (off + 16) 2, neighbour := bit (beField b (off + 18) 2) 0,
    maxForce := toSigned 64 (beField b (off + 24) 8) }

/-- Table 2.13 for one entry, with the limit of its quantity; reserved bits are ignored (R20). -/
def rangeOk (b : Bytes) (lim : Int) (off : Nat) : Bool :=
  let e := parseRange b off
  decide (0 < e.fullScale) && decide (1 ≤ e.adcFs ∧ e.adcFs ≤ 8388607) && decide (e.dacFs ≤ 8388607)
    && decide (1 ≤ e.settle) && decide (0 ≤ e.maxForce ∧ e.maxForce ≤ lim)

def rising : List Int → Bool
  | a :: b :: t => decide (a < b) && rising (b :: t)
  | _ => true

/-- The serial of Table 2.12: printable characters, then only NULs. -/
def serialOk (s : Bytes) : Bool :=
  let body := s.takeWhile (· != 0)
  !body.isEmpty && body.all (fun c => decide (0x20 ≤ c.toNat ∧ c.toNat ≤ 0x7F - 1)) && allZero (s.drop body.length)

def trimNul (b : Bytes) : Bytes := b.takeWhile (· != 0)

/-- Length of a descriptor by its header: 68 + 32 (NI + NV). -/
def descLength (b : Bytes) : Nat := 68 + 32 * (beField b 26 1 + beField b 27 1)

/-- Every constraint of Tables 2.12 and 2.13 and the CRC. -/
def parseDesc (b : Bytes) : Option Desc :=
  let ni := beField b 26 1
  let nv := beField b 27 1
  let absV := toSigned 64 (beField b 48 8)
  let absI := toSigned 64 (beField b 56 8)
  let io := (List.range ni).map (fun k => 64 + 32 * k)
  let vo := (List.range nv).map (fun k => 64 + 32 * (ni + k))
  let cls := beField b 5 1
  let ok :=
    b.take 4 == ascii "DXAD" && beField b 4 1 == 1 && (cls == 0x50 || cls == 0x48 || cls == 0x53)
    && beField b 6 2 == descLength b && b.length == descLength b && serialOk (slice b 8 16) && beField b 24 1 != 0
    && decide (1 ≤ beField b 25 1 ∧ beField b 25 1 ≤ 8) && decide (1 ≤ ni ∧ ni ≤ 12) && decide (1 ≤ nv ∧ nv ≤ 6)
    && decide (1 ≤ beField b 28 2) && decide (1 ≤ beField b 30 2) && decide (0 < toSigned 64 (beField b 32 8))
    && decide (0 < toSigned 64 (beField b 40 8)) && decide (0 < absV) && decide (0 < absI)
    && io.all (rangeOk b absI) && vo.all (rangeOk b absV)
    && rising (io.map fun o => (parseRange b o).fullScale) && rising (vo.map fun o => (parseRange b o).fullScale)
    && crc32c (b.take (b.length - 4)) == beField b (b.length - 4) 4
  if ok then
    some { raw := b, cls := cls, serial := trimNul (slice b 8 16), slots := beField b 24 1, latency := beField b 25 1,
           checker := beField b 28 2, connect := beField b 30 2, slewV := toSigned 64 (beField b 32 8),
           slewI := toSigned 64 (beField b 40 8), absV := absV, absI := absI, irng := io.map (parseRange b),
           vrng := vo.map (parseRange b), crc := beField b (b.length - 4) 4 }
  else none

/-- R543: calibration state of a channel from the serial in its block. -/
def calStateFor (d : Dev) (k : Nat) (serial : Bytes) : Nat :=
  let s := trimNul ((chanBlock d k).take 16)
  if s = [] then 2 else if s = serial then 0 else 1

/-- The descriptor comes into force: objects, calibration states and accumulator shifts. -/
def adoptDesc (d : Dev) (n : Nat) (x : Desc) : Dev :=
  let d := d.onLane n fun l => { l with desc := some x, descBuf := [] }
  let d := ((((d.setBytes O.laneDescRaw x.raw n).setN O.laneDescClass x.cls n).setBytes O.laneDescSerial x.serial n).setN
    O.laneDescLatency x.latency n).setN O.laneDescSlots x.slots n
  let d := ((d.setN O.laneDescCrc x.crc n).setN O.laneDescNIrng x.irng.length n).setN O.laneDescNVrng x.vrng.length n
  forUpto 8 (fun s y =>
    let k := 8 * n + s
    limitSat ((y.setN O.chCalState (calStateFor y k x.serial) k).setN O.chApSqShift (max (sqShift x.absV) (sqShift x.absI)) k) k) d

/-- Ask for the next chunk (R78): the 64-byte header first, then up to 256 bytes. (DESIGN CHOICE, log 97) -/
def askDesc (d : Dev) (n : Nat) : Dev :=
  let l := d.lane n
  let have_ := l.descBuf.length
  let want := if have_ = 0 then 64 else min 256 (descLength l.descBuf - have_)
  d.setLane n { l.send 1 (beBytes 2 have_ ++ beBytes 2 want) with descWant := want }

def startDesc (d : Dev) (n : Nat) (t : DescThen) : Dev :=
  askDesc (d.onLane n fun l => { l with descBuf := [], descThen := t }) n

/-- The stored channel enables act at the lane's first entry into RUN from IDLE or TRAIN (R406): the channels to enable. -/
def autostartDue (d : Dev) (n : Nat) : Bool :=
  d.on O.devAutostart && decide (d.nat O.devState = 2) && !(d.lane n).autostarted && !(d.lane n).attach

/-- The end of DESCRIBE (Table 2.16); a slice found in HOLD or RUN was sent SET_HOLD before its descriptor was read (R82). -/
def describeDone (d : Dev) (n : Nat) : Dev :=
  match (d.lane n).descThen with
  | .reattach => if mayReattach d n then sendReattach d n else reattachFailed d n 4
  | .safe => runSafed d n
  | .safed => runSafed (sendSetHold d n) n
  | .idle => runIdle (sendSetHold d n) n

/-- DESC_DATA for the request outstanding. -/
def onDescData (d : Dev) (n : Nat) (off : Nat) (data : Bytes) : Dev :=
  let l := d.lane n
  if d.nat O.laneState n ≠ lsDescribe then d
  else if off ≠ l.descBuf.length ∨ data.length ≠ l.descWant then toFault d n 3
  else
    let buf := l.descBuf ++ data
    let d := d.setLane n { l with descBuf := buf }
    if buf.length < descLength buf then
      if beField buf 26 1 > 12 ∨ beField buf 27 1 > 6 then toFault d n 3 else askDesc d n
    else
      match parseDesc buf with
      | none => toFault d n 3
      | some x => describeDone (adoptDesc d n x) n

/-! STATUS (R76, R79, R83, R88-R91). -/

def parseStatus (b : Bytes) : SStatus :=
  { state := beField b 0 1, token := beField b 1 1, boot := beField b 2 2, holdUs := beField b 4 4,
    timeoutUs := beField b 8 4, crc := beField b 12 4, rejected := beField b 16 4,
    slots := (List.range 8).map fun s =>
      ⟨beSigned 3 b (24 + 6 * s), beField b (27 + 6 * s) 2, beField b (29 + 6 * s) 1⟩ }

/-- An absolute-limit trip (R177): the slot is safed, flagged, counted, and the loop source raised. -/
def absTrip (d : Dev) (n : Nat) : Dev :=
  let d := d.safeChannel n
  ((d.flag O.chLimitFlags 8 n).bump O.chLimitAbsTrips n).raise (12 + n / 8) 0 5 n
/-- Slots that a slice reports tripped by itself, in whatever state the lane is (R177). -/
def sliceTrips (d : Dev) (n : Nat) (s : SStatus) : Dev :=
  forUpto 8 (fun k x =>
    let l := x.lane n
    if bit (s.slots.getD k ⟨0, 0, 0⟩).flags 6 && !bit l.safed k && (l.desc.isNone || slotPresent l.desc k)
    then absTrip x (8 * n + k) else x) d

/-- End of a drain: the lane stops transmitting (Table 2.16). -/
def drainDone (d : Dev) (n : Nat) : Dev :=
  let l := d.lane n
  if l.switchingOff then
    let again := l.cycleReset
    let d := cascadeSweep (d.laneOff n)
    if again then d.onLane n fun l => { l with cycleReset := true } else d
  else
    let d := d.setLane n { ({} : Link) with desc := l.desc, outs := l.outs, autostarted := l.autostarted }
    d.setLaneState n lsIdle

def statusObjects (d : Dev) (n : Nat) (s : SStatus) : Dev :=
  let d := d.onLane n fun l =>
    let last := if l.statusFrom < l.rxFrom then l.rxFrom else d.frame
    let inSpan := fun (f : Nat) => decide (l.statusFrom ≤ f ∧ f ≤ last)
    { l with status := some s, statusNew := true, statusTo := last, span := (l.sentLog.filter fun e => inSpan e.1).map (·.2),
             spanMiss := forUpto 8 (fun k m => if (d.chan (8 * n + k)).missLog.any inSpan then setBit m k else m) 0 }
  let d := (d.setN O.laneBootCount s.boot n).setN O.laneLinkErrDown s.rejected n
  forUpto 8 (fun k x =>
    let t := s.slots.getD k ⟨0, 0, 0⟩
    (x.setN O.chTermSlice t.cmd (8 * n + k)).setI O.chTermDacSlice t.dac (8 * n + k)) d

/-- STATUS in DESCRIBE. -/
def statusDescribe (d : Dev) (n : Nat) (s : SStatus) : Dev :=
  if s.state = ssHold then
    let (conds, time) := reattachConds d n s
    let d := sendSetHold d n
    if conds && time then startDesc d n .reattach
    else
      let d := d.setN O.laneHoldLastResult (if conds then 3 else 4) n
      startDesc (d.onLane n fun l => { l with lcmd := lcSafe }) n .safe
  else if s.state = ssIdle ∨ s.state = ssTrain then startDesc d n .idle
  else if s.state = ssSafe ∨ s.state = ssFault then
    startDesc (if s.state = ssSafe then d.setN O.laneHoldLastResult 5 n else d) n .safed
  else if s.state = ssRun then startDesc ((sendSetHold d n).onLane n fun l => { l with lcmd := lcSafe }) n .safe
  else d

/-- STATUS after realignment in RETRAIN; `oldBoot` is the boot count held before it. -/
def statusRetrain (d : Dev) (n : Nat) (s : SStatus) (oldBoot : Nat) : Dev :=
  let same := s.boot == oldBoot && (match (d.lane n).desc with | some x => x.crc == s.crc | none => true)
  if !same then toLost d n
  else if s.state = ssRun then runSafed d n
  else if s.state = ssHold then
    let (conds, time) := reattachConds d n s
    if conds && time then sendReattach d n
    else runSafed (d.setN O.laneHoldLastResult (if conds then 3 else 4) n) n
  else if s.state = ssSafe ∨ s.state = ssFault then
    runSafed (if s.state = ssSafe then d.setN O.laneHoldLastResult 5 n else d) n
  else toLost d n

/-- STATUS in RUN. -/
def statusRun (d : Dev) (n : Nat) (s : SStatus) (oldBoot : Nat) : Dev :=
  let same := s.boot == oldBoot && (match (d.lane n).desc with | some x => x.crc == s.crc | none => true)
  if !same then toLost d n
  else if s.state = ssHold then toRetrain d n
  else d

/-- Whether every usable slot's safe ramp is complete (Table 2.11, flag [2]). -/
def rampsDone (ds : Option Desc) (s : SStatus) : Bool :=
  (List.range 8).all fun k => !slotPresent ds k || bit (s.slots.getD k ⟨0, 0, 0⟩).flags 2

/-- A STATUS taken in. (DEDUCED, log 48) -/
def onStatus (d : Dev) (n : Nat) (s : SStatus) : Dev :=
  let oldBoot := d.nat O.laneBootCount n
  let d := sliceTrips (statusObjects d n s) n s
  let st := d.nat O.laneState n
  if st = lsDescribe then statusDescribe d n s
  else if st = lsRetrain then (if (d.lane n).aligned then statusRetrain d n s oldBoot else d)
  else if st = lsRun then statusRun d n s oldBoot
  else if st = lsDrain then (if s.state = ssSafe ∧ rampsDone (d.lane n).desc s then drainDone d n else d.onLane n fun l => l.send 2 [])
  else d

/-! ACK, EVENT and failures. -/

/-- ACK done to a SAFE_RELEASE that named the slots `mask` (R65): they are released and disconnected.  In SAFE the lane goes on
commanding SAFE and its slots stay safed (R8, R83). -/
def released (d : Dev) (n mask : Nat) : Dev :=
  let l := d.lane n
  let whole := mask == 0xFF
  if d.nat O.devState = 4 then d.setLane n { l with expectIdle := l.expectIdle || whole }
  else
    let outs := (List.range 8).foldl (fun (v : Vector SlotOut 8) s =>
      if bit mask s then v.setIfInBounds s (disconnected (v[s]?.getD {})) else v) l.outs
    d.setLane n { l with safed := l.safed - (l.safed &&& mask), outs := outs,
                         lcmd := if whole then lcRun else l.lcmd, expectIdle := l.expectIdle || whole }

/-- An ACK with `result` to the request `q`. -/
def onAck (d : Dev) (n : Nat) (q : LMsg) (result : Nat) : Dev :=
  let st := d.nat O.laneState n
  if q.typ = 4 ∧ st = lsReattach then
    if result = 0 then reattached d n
    else reattachFailed d n (if result = 1 then 3 else 4)
  else if q.typ = 5 ∧ result = 0 then released d n (leNat q.body)
  else if q.typ = 1 ∧ result = 2 ∧ st = lsDescribe then toFault d n 3
  else d

/-- CMD_REFUSED is taken in; any other event code is discarded (R63). -/
def onEvent (d : Dev) (n code slot detail : Nat) : Dev :=
  if code = 1 then d.onLane n fun l => { l with refused := some (slot, detail % 65536) } else d

/-- A complete message of the slice: a reply counts only with the tag and the type that answer the request outstanding. -/
def onMessage (d : Dev) (n : Nat) (m : LMsg) : Dev :=
  let l := d.lane n
  if m.typ = 0x84 then onEvent d n (beField m.body 0 1) (beField m.body 1 1) (beField m.body 2 4)
  else
    match l.request with
    | none => d
    | some q =>
      let fits := (m.typ = 0x81 ∧ q.typ = 1) ∨ (m.typ = 0x82 ∧ q.typ = 2 ∧ m.body.length = 72)
        ∨ (m.typ = 0x83 ∧ (beField m.body 0 1 = q.typ))
      if m.tag ≠ q.tag ∨ ¬ fits then d
      else
        let d := d.setLane n { l with request := none, requestAt := none, txSegs := [], inFlight := false, txPending := false }
        if m.typ = 0x81 then onDescData d n (beField m.body 0 2) (m.body.drop 2)
        else if m.typ = 0x82 then onStatus d n (parseStatus m.body)
        else onAck d n q (beField m.body 1 1)

/-- A message channel failure (R74, R75, Table 2.16). (DEDUCED, log 54) -/
def channelFailed (d : Dev) (n : Nat) : Dev :=
  let d := d.raise n 0 5 0
  let st := d.nat O.laneState n
  if st = lsDescribe then startTrain d n 1
  else if st = lsRun then toRetrain d n
  else if st = lsRetrain then
    (if (d.lane n).retrainLate then toFault d n 6 else d.onLane n fun l => l.restartAlign (d.nat O.laneLinkPol n))
  else if st = lsReattach then reattachFailed (d.onLane n Link.dropRequest) n 4
  else d.onLane n Link.dropRequest

/-! The frame. -/

/-- Alignment reached: delays measured, sequence state reset, STATUS asked for (Table 2.16). -/
def onAligned (d : Dev) (n : Nat) : Dev :=
  let (d, ok) := measureDelay d n
  if !ok then toFault d n 1
  else
    let again := (d.lane n).resetChannel.reSetHold
    let d := d.onLane n fun l => { l.resetChannel.send 2 [] with aligned := true, reSetHold := false }
    let d := if again then sendSetHold d n else d
    if d.nat O.laneState n = lsTrain then d.setLaneState n lsDescribe else d

/-- The slice state shown by an accepted up-frame `j` of a lane in RUN, REATTACH or RETRAIN (R90, Table 2.16). -/
def onSstate (d : Dev) (n j : Nat) (u : UpFrame) : Dev :=
  let l := d.lane n
  let st := d.nat O.laneState n
  let old := d.nat O.laneSliceState n
  let d := d.setN O.laneSliceState u.sstate n
  let d := if u.sstate = ssHold ∧ old ≠ ssHold then d.bump O.laneHoldEntries n else d
  let fresh := match l.runFrom with | some m => decide (m < j) | none => false
  let gone := decide (u.sstate = ssReset ∨ u.sstate = ssTrain ∨ u.sstate = ssIdle)
  if decide (st = lsRun) && fresh then
    let d := if u.sstate = ssRun then d.onLane n fun l => { l with expectIdle := false } else d
    if u.sstate = ssHold then toRetrain d n
    else if u.sstate = ssReset ∨ u.sstate = ssTrain ∨ (u.sstate = ssIdle ∧ !l.expectIdle) then toLost d n
    else if u.descchg ∧ l.request.isNone ∧ l.txQueue.isEmpty then d.onLane n fun l => l.send 2 []
    else d
  else if (st = lsReattach ∨ (st = lsRetrain ∧ l.aligned)) ∧ gone then toLost d n
  else d

/-- The link's part of controller frame `m` for lane `n`: the up-frame held from three frames earlier (R38, R40, R83, R90). -/
def linkFrame (d : Dev) (n m : Nat) : Dev × Option UpFrame :=
  let l := d.lane n
  let st := d.nat O.laneState n
  if st = lsOff ∨ st = lsIdle then (d, none)
  else
    let j := m - 3
    let u := if 3 ≤ m then tabFind l.swl j else none
    let counted := l.rejectedAt.contains j
    let l := { l with swl := l.swl.filter (fun e => decide (j < e.1)),
                      rejectedAt := l.rejectedAt.filter (fun k => decide (j < k)) }
    match u with
    | none =>
      let d := d.setLane n { l with upRun := 0, badRun := l.badRun + 1, rtts := [] }
      let d := if !counted && l.transmitting && decide (l.txFrom + 3 ≤ m) then d.bump O.laneLinkErrUp n else d
      if st = lsRun ∧ 8 ≤ (d.lane n).badRun then (toRetrain d n, none) else (d, none)
    | some u =>
      let l := { l with upRun := l.upRun + 1, badRun := 0, rtts := (u.rtt :: l.rtts).take 16, upNew := true, lastUp := some u,
                        lastUpJ := j }
      let d := d.setLane n l
      let d :=
        if (st = lsTrain ∨ (st = lsRetrain ∧ !l.aligned)) ∧ 16 ≤ l.upRun then onAligned d n
        else if quietChannel d n then d
        else
          let (l', msg) := (d.lane n).rxSeg u.seg
          let began := u.seg.som && l'.rxLast != (d.lane n).rxLast
          let d := d.setLane n (if began then { l' with rxFrom := m } else l')
          match msg with
          | some x => onMessage d n x
          | none => d
      (onSstate d n j u, some u)

end Sys2Proof.Machine
end

