-- ==== Sys2Proof/Machine/Rng.lean ====
section
/-! DEFINITION. The ranging and compliance unit (chapter 5) in one processed frame: samples, transition intervals, arm count and
shadow accumulator, triggers of Table 5.2, predictor of Table 5.1, compliance latches, absolute limits; and the checker
comparison of R196 and R197. -/
namespace Sys2Proof.Machine

/-- A level of 0.1 % units of full scale, in loop units (R161). -/
def permille (p : Nat) : Int := roundDiv (p * (2 : Int) ^ 28) 1000
def loopFs : Int := (2 : Int) ^ 28

/-- History kept of a channel: enough for the mean of a block, or of an outer channel (R106, R124). -/
def histCap (d : Dev) (n : Nat) : Nat :=
  let l := d.lane (n / 8)
  if d.nat O.chCascRole n = 1 then 512000 else l.iters.foldl (fun a e => max a e.2) (max 256 l.divNow) + 16

/-- Aux byte of a frame: active current range, voltage range, neighbour direction. -/
structure Aux where
  irng : Nat
  vrng : Nat
  ndir : Bool
  deriving DecidableEq, Repr

/-- The calibrated frame of slot `s` (R102, R103, R59), with what MAU will take of it (R169). (DEDUCED, log 106) -/
def sampleOf (d : Dev) (n q : Nat) (u : Option UpFrame) : Smp :=
  let c := d.chan n
  let ds := descOf d n
  let k := q - 3 - latencyOf ds
  let hold := match u with
    | some f => f.sstate == ssHold || f.sstate == ssSafe || d.nat O.laneState (n / 8) != lsRun
    | none => d.nat O.laneState (n / 8) != lsRun
  let base : Smp := { k := k, t := boundaryTime d (n / 8) k, hold := hold, comp := d.nat O.chLimitCompState n != 0,
                      uncal := d.nat O.chCalState n != 0, chkOn := d.on O.chChkEnable n,
                      igap := decide (q < c.iGapUntil), vgap := decide (q < c.vGapUntil),
                      chkBad := d.nat O.chChkState n != 0,
                      use := if q < c.iGapUntil then .gap else if q < c.stitchUntil then .nbr else .act }
  match u with
  | none => { base with use := if base.use = .act then .act else .gap }
  | some f =>
    let x := f.slots.getD (n % 8) {}
    let nb := if chMode d n = 1 then none
      else if x.ndir then calibrate d n ds true (x.irng + 1) x.nb
      else if x.irng = 0 then none else calibrate d n ds true (x.irng - 1) x.nb
    { base with ok := true, v := calibrate d n ds false x.vrng x.v, i := calibrate d n ds true x.irng x.i, nb := nb }

/-! The neighbour. -/

def nbrRange (c : Chan) : Option Nat := if c.ndir then some (c.iAct + 1) else if c.iAct = 0 then none else some (c.iAct - 1)

/-- R158, R178: whether range `r` may be the neighbour of the active range. -/
def nbrAvailable (d : Dev) (n act r : Nat) : Bool :=
  let ds := descOf d n
  let (f, g) := allowedSet d n true
  decide (r < (rangesOf ds true).length) && (rangeAt ds true r).neighbour && decide (f ≤ r)
    && (decide (r ≤ g) || (act == g && r == g + 1) || (decide (g < act) && (r == act + 1 || (r + 1 == act && decide (g ≤ r)))))
def dirAvailable (d : Dev) (n act : Nat) (up : Bool) : Bool :=
  if up then nbrAvailable d n act (act + 1) else decide (0 < act) && nbrAvailable d n act (act - 1)
/-- The setting that follows from a preferred direction: direction and arming. -/
def armChoice (d : Dev) (n : Nat) (c : Chan) (pref : Bool) : Bool × Bool :=
  if dirAvailable d n c.iAct pref then (pref, true)
  else if dirAvailable d n c.iAct (!pref) then (!pref, true) else (c.ndir, false)

def nbrSettle (d : Dev) (n : Nat) (c : Chan) : Nat :=
  match nbrRange c with | some r => (rangeAt (descOf d n) true r).settle | none => 65536
/-- R159. -/
def nbrSettled (d : Dev) (n : Nat) (c : Chan) : Bool :=
  c.narm && decide (max (rngNat d n O.chRngArmTime) (nbrSettle d n c) ≤ c.armCount)
/-- R167. -/
def plausible (d : Dev) (n : Nat) (c : Chan) : Bool :=
  let ds := descOf d n
  let tol := if rngNat d n O.chRngStitchTol = 0 then (match ds with | some x => x.checker | none => 0)
    else rngNat d n O.chRngStitchTol
  let r := match nbrRange c with | some r => max r c.iAct | none => c.iAct
  decide (1 ≤ c.nS) && decide ((max c.dS (-c.dS)) * 1000000 ≤ (tol : Int) * (rangeAt ds true r).fullScale * c.nS)

/-- Arm count and shadow accumulator are cleared together (R159, R167). (DEDUCED, log 60) -/
def armReset (c : Chan) : Chan := { c with armCount := 0, nS := 0, dS := 0 }

def absI (x : Int) : Int := max x (-x)

/-- One entry of the shadow accumulator (R167). -/
def shadowAdd (d : Dev) (n : Nat) (s : Smp) (c : Chan) : Chan :=
  match s.i, s.nb with
  | some a, some b =>
    if nbrSettle d n c ≤ c.armCount ∧ ¬ a.excess ∧ ¬ b.excess ∧ absI a.cal ≤ loopFs ∧ absI b.cal ≤ loopFs then
      let ns := c.nS + 1
      let dsum := narrow64 (c.dS + (b.phys - a.phys))
      if ns = 65536 then { c with nS := 32768, dS := roundShift dsum 1 } else { c with nS := ns, dS := dsum }
    else c
  | _, _ => c

/-- R159, R167 for an accepted frame. -/
def armFrame (d : Dev) (n : Nat) (s : Smp) (a : Aux) (c : Chan) : Chan :=
  if c.narm && s.nb.isSome && a.ndir == c.ndir && a.irng == c.iAct then
    shadowAdd d n s { c with armCount := min 65535 (c.armCount + 1) }
  else armReset c

/-- R156. (DEDUCED, log 103) -/
def filterFrame (s : Smp) (c : Chan) : Chan :=
  match s.i with
  | none => c
  | some x =>
    if x.rng ≠ c.iAct then c
    else
      let mag := if x.excess then 295279002 else narrow32 (absI x.cal)
      if c.filtReset then { c with mf := mag, ms := mag, filtReset := false }
      else { c with mf := narrow32 (c.mf + roundShift (mag - c.mf) 2), ms := narrow32 (c.ms + roundShift (mag - c.ms) 5) }

/-- Table 5.1. -/
def preferred (d : Dev) (n : Nat) (c : Chan) : Bool :=
  let band := permille (rngNat d n O.chRngPredBand)
  if permille (rngNat d n O.chRngPredHi) ≤ c.mf then true
  else if c.mf < permille (rngNat d n O.chRngPredLo) then false
  else if c.ms + band < c.mf then true
  else if c.mf < c.ms - band then false
  else c.ndir

/-- R158: at most one change of NDIR or NARM in any `ch.rng.pred_hold` frames. -/
def predict (d : Dev) (n q : Nat) (c : Chan) : Chan :=
  let free := match c.predAt with | some p => decide (p + rngNat d n O.chRngPredHold ≤ q) | none => true
  if !free then c
  else
    let (dir, arm) := armChoice d n c (preferred d n c)
    if (dir = c.ndir ∧ arm = c.narm) ∨ (¬ arm ∧ ¬ c.narm) then c else { c with ndir := dir, narm := arm, predAt := some q }

/-! Range changes (R163, R164, R169). -/

/-- Back-reach of R169: at most two frames, and no further than the first that does not qualify. (DEDUCED, log 105) -/
def backReach (lvl : Int) : Nat → List Smp → List Smp
  | 0, l => l
  | _, [] => []
  | k + 1, s :: t =>
    let q := match s.i, s.nb with | some a, some b => s.ok && decide (lvl < absI a.cal) && !b.excess | _, _ => false
    if q then { s with use := .nbr } :: backReach lvl k t else s :: t

def markHead (f : Smp → Smp) : List Smp → List Smp
  | [] => []
  | s :: t => f s :: t

/-- The active current range moves to `dest` in frame `q`. -/
def changeRange (d : Dev) (n q dest : Nat) (fast override : Bool) : Dev :=
  let c := d.chan n
  let ds := descOf d n
  let ta := q + 5 + latencyOf ds
  let st := decide (nbrRange c = some dest) && nbrSettled d n c && plausible d n c
  let up := decide (dest < c.iAct)
  let hist := if st then
      markHead (fun s => if s.use = .gap then s else { s with use := if s.ok then .nbr else .gap }) (match c.hist with
        | [] => []
        | s :: t => s :: backReach (permille (rngNat d n O.chRngStitchPct)) 2 t)
    else markHead (fun s => { s with use := .gap, igap := true }) c.hist
  let c := { c with hist := hist, iAct := dest, ndir := up, narm := dirAvailable d n dest up, iTransEnd := ta, predAt := some q,
                    dwell := 0, filtReset := true, gapSeen := true,
                    stitchUntil := if st then ta else c.stitchUntil,
                    iGapUntil := if st then c.iGapUntil else max c.iGapUntil (ta + (rangeAt ds true dest).settle) }
  let d := (d.setChan n c).bump O.chRngChanges n
  let d := if st then (d.bump O.chRngStitched n).flag O.chRngFlags 2 n else (d.bump O.chRngUnstitched n).flag O.chRngFlags 4 n
  let d := if fast then d.flag O.chRngFlags 1 n else d
  if override then
    (((d.flag O.chRngFlags 16 n).bump O.chRngOverrides n).setN O.chRngOverride 1 n).event (128 + n) d.clk
  else d

/-- Row 2 of Table 5.2 (R163, R179), never to a range below the effective floor (R178). -/
def upRange (d : Dev) (n q : Nat) (s : Smp) (thr : Int) : Dev :=
  let c := d.chan n
  let (floor, ceil) := allowedSet d n true
  if ceil ≤ c.iAct then
    if c.iAct < topIndex (descOf d n) true then changeRange d n q (c.iAct + 1) false true else d
  else
    let fast := c.narm && c.ndir && (match s.nb with | some b => b.excess || decide (thr ≤ absI b.cal) | none => false)
    if fast then changeRange d n q (max (limitRange d n true) (c.iAct + 1)) true false
    else changeRange d n q (max floor (c.iAct + 1)) false false

/-- Row 4 of Table 5.2 (R162) with the dwell complete. -/
def downRange (d : Dev) (n q : Nat) (s : Smp) : Dev :=
  let c := d.chan n
  let others := c.narm && !c.ndir && nbrSettled d n c && decide ((allowedSet d n true).1 < c.iAct)
    && (match s.nb with | some b => !b.excess && decide (absI b.cal < permille (rngNat d n O.chRngDownGuard)) | none => false)
  if others && plausible d n c then changeRange d n q (c.iAct - 1) false false
  else
    let d := d.setChan n { c with dwell := 0 }
    if others then d.flag O.chRngFlags 8 n else d

/-- Rows 2 to 4 of Table 5.2 outside a transition interval (R161, R180); the predictor where no range changes.
(DEDUCED, log 104) -/
def triggers (d : Dev) (n q : Nat) (s : Smp) : Dev :=
  let c := d.chan n
  let c := if c.policyWait ∧ c.vTransEnd ≤ q then { c with policyWait := false, policyPend := true } else c
  let d := d.setChan n c
  let thr := permille (rngNat d n O.chRngUpPct)
  let excess := match s.i with | some x => x.excess || decide (thr ≤ absI x.cal) | none => false
  if excess then
    let d := upRange (d.setChan n { c with dwell := 0 }) n q s thr
    if (d.chan n).iAct = c.iAct then d.onChan n (predict d n q) else d
  else
    let (f, g) := allowedSet d n true
    let c' := { c with policyPend := false }
    if c.policyPend ∧ c.iAct < f then changeRange (d.setChan n c') n q f false false
    else if c.policyPend ∧ g < c.iAct then changeRange (d.setChan n c') n q g false false
    else
      let c := c'
      let c := match s.i with
        | none => c
        | some x => if absI x.cal < permille (rngNat d n O.chRngDownPct) then { c with dwell := c.dwell + 1 } else { c with dwell := 0 }
      let d := d.setChan n c
      let d := if s.i.isSome ∧ rngNat d n O.chRngDownDwell ≤ c.dwell then downRange d n q s else d
      if (d.chan n).iAct = c.iAct then d.onChan n (predict d n q) else d

/-! Absolute limits and compliance. -/

def absExceeds (ds : Option Desc) (cur : Bool) (x : CVal) : Bool :=
  decide (absLimit ds cur < absI x.phys) || (x.excess && x.rng == topIndex ds cur)
def absRun (ds : Option Desc) (cur : Bool) (x : Option CVal) (n : Nat) : Nat :=
  match x with
  | none => n
  | some v => if absExceeds ds cur v then n + 1 else 0

/-- R174: 1 POS, 2 NEG, the later frame's standing. -/
def compLatch (d : Dev) (n : Nat) (s : Smp) (old : Nat) : Nat :=
  let cur := chMode d n == 0
  match (if cur then s.i else s.v) with
  | none => old
  | some x =>
    let (p, m) := limits d n cur
    let fs := (rangeAt (descOf d n) cur x.rng).fullScale
    if x.excess then
      if 0 < x.cal ∧ absI p ≤ fs then 1 else if x.cal < 0 ∧ absI m ≤ fs then 2 else old
    else if p ≤ x.phys then 1 else if x.phys ≤ m then 2 else old

/-- Publish the ranging objects and the measurement fields of the command word (R107). -/
def rngPublish (d : Dev) (n : Nat) : Dev :=
  let c := d.chan n
  let nbr := b2n c.narm * 128 + b2n c.ndir * 64 + b2n (nbrSettled d n c) * 32 + ((nbrRange c).getD 0) % 16
  let mode := chMode d n
  let d := (((d.setN O.chRngIActive c.iAct n).setN O.chRngVActive c.vAct n).setN O.chRngNbr nbr n).setN O.chRngArmCount c.armCount n
  let l := d.lane (n / 8)
  if bit l.safed (n % 8) then d
  else
    let o := l.outs[n % 8]?.getD {}
    let o := { o with narm := c.narm, ndir := c.ndir, irng := if mode = 1 then o.irng else c.iAct,
                      vrng := if mode = 0 then o.vrng else c.vAct }
    d.setLane (n / 8) { l with outs := l.outs.setIfInBounds (n % 8) o }

/-- The absolute limits in one frame of a present slot, whatever its loop state (R177). -/
def absFrame (d : Dev) (n : Nat) (s : Smp) : Dev :=
  if !s.ok || bit (d.lane (n / 8)).safed (n % 8) then d
  else
    let ds := descOf d n
    let c := d.chan n
    let nv := absRun ds false s.v c.absV
    let ni := absRun ds true s.i c.absI
    let lim := rngNat d n O.chLimitAbsCount
    if lim ≤ nv ∨ lim ≤ ni then absTrip (d.setChan n { c with absV := 0, absI := 0 }) n
    else if nv = c.absV ∧ ni = c.absI then d else d.setChan n { c with absV := nv, absI := ni }

/-- Writes of range settings come into force at the first processed frame outside a transition interval (R180, R182); a
neighbour that a new floor leaves below it is disarmed at once (R158, R178). -/
def policyRelease (d : Dev) (n q : Nat) : Dev :=
  let c := d.chan n
  if q < c.iTransEnd ∨ q < c.vTransEnd then d
  else
    let d := if c.rngHeld.isEmpty then d else d.onChan n fun c => c.releaseRng 3
    match nbrRange c with
    | some r =>
      if c.narm ∧ c.policyWait ∧ r < (allowedSet d n true).1 then d.onChan n fun c => { c with narm := false, predAt := some q } else d
    | none => d

/-- The work of cycles 5 to 7 for an enabled channel of a lane in RUN, frame `q` (R161-R166, R174). (DEDUCED, log 68) -/
def rngFrame (d : Dev) (n q : Nat) (s : Smp) (a : Aux) : Dev :=
  let d := policyRelease d n q
  if !s.ok then d
  else
    let c := d.chan n
    let c := { c with latch := if chMode d n < 2 then compLatch d n s c.latch else c.latch }
    if chMode d n = 1 then rngPublish (d.setChan n { c with narm := false, policyWait := false }) n
    else
      let c := armFrame d n s a (filterFrame s c)
      let d := d.setChan n c
      let d := if q < c.iTransEnd then d else triggers d n q s
      let (f, g) := allowedSet d n true
      let r := (d.chan n).iAct
      let d := if d.on O.chRngOverride n && decide (f ≤ r ∧ r ≤ g) then d.setN O.chRngOverride 0 n else d
      rngPublish d n

/-- R154 after a committed write of limits or policy, never in a transition interval (R182); a change of the voltage range, or
of the current forcing range, leaves a gap for its own quantity (R169). -/
def reselectRanges (d : Dev) (n q : Nat) : Dev :=
  let c := d.chan n
  if (!c.reselect && c.rngHeld.isEmpty) || decide (q < c.iTransEnd) || decide (q < c.vTransEnd) then d
  else
    let c := c.releaseRng 2
    let d := limitSat (d.setChan n c) n
    let ds := descOf d n
    let ta := q + 5 + latencyOf ds
    let mode := chMode d n
    let v := if mode = 0 then forceRange d n false else some (limitRange d n false)
    let i := if mode = 1 then forceRange d n true else none
    let v := if c.reselect then v else none
    let i := if c.reselect then i else none
    let c := { c with reselect := false }
    let c := match v with
      | some r => if r = c.vAct then c else
          { c with vAct := r, vTransEnd := ta, vGapUntil := max c.vGapUntil (ta + (rangeAt ds false r).settle),
                   hist := markHead (fun s => { s with vgap := true }) c.hist }
      | none => c
    let d := match i with
      | some r =>
        if r = c.iAct then d.setChan n c
        else
          (d.setChan n { c with iAct := r, iTransEnd := ta, iGapUntil := max c.iGapUntil (ta + (rangeAt ds true r).settle),
                                hist := markHead (fun s => { s with igap := true, use := .gap }) c.hist }).bump O.chRngChanges n
      | none => d.setChan n c
    if v.isSome || i.isSome then rngPublish d n else d

/-! The checker (R196, R197). -/

/-- The main sample whose range is that of the checker's value. -/
def checkerMain (x : UpSlot) (cur : Bool) (r : Nat) : Option Int :=
  if !cur then (if x.vrng = r then some x.v else none)
  else if x.irng = r then some x.i
  else if (if x.ndir then x.irng + 1 else x.irng - 1) = r ∧ (x.ndir ∨ 0 < x.irng) then some x.nb else none

def codeBad (c : Int) : Bool := c == -8388608 || c == 8388607 || c == -8388607

/-- R196: the deviation in ppm, or none where the comparison is not made. -/
def checkerDev (d : Dev) (n : Nat) (u : UpFrame) : Option Int :=
  let ds := descOf d n
  let cur := u.chkQty == 1
  match checkerMain (u.slots.getD (n % 8) {}) cur u.chkRng with
  | none => none
  | some main =>
    if codeBad main || codeBad u.chkVal || !d.on O.chChkEnable n || decide ((rangesOf ds cur).length ≤ u.chkRng) then none
    else
      let kn := knOf (rangeAt ds cur u.chkRng)
      some (roundDiv ((nominal kn u.chkVal - nominal kn main) * 1000000) loopFs)

/-- R197: one comparison of a quantity; the run counts comparisons that disagree with the present state.
(DEDUCED, log 57) -/
def checkerRun (d : Dev) (n : Nat) (cur fail : Bool) : Dev :=
  let k := b2n cur
  let c := d.chan n
  let bad := bit (d.nat O.chChkState n) k
  let run := if fail = bad then 0 else (if cur then c.chkRunI else c.chkRunV) + 1
  let flip := decide (d.nat O.chChkPersist n ≤ run)
  let run := if flip then 0 else run
  let d := d.setChan n (if cur then { c with chkRunI := run } else { c with chkRunV := run })
  if !flip then d
  else
    let d := d.setN O.chChkState (putBit (d.nat O.chChkState n) k fail) n
    if fail then (d.flag O.chChkFlags (1 <<< k) n).raise (24 + n / 8) 0 (1 + k) n else d

/-- The comparison that up-frame `u` carries for channel `n`: the device, and the marks for the frame's sample.
(DEDUCED, log 57) -/
def checkerFrame (d : Dev) (n : Nat) (u : Option UpFrame) (s : Smp) : Dev × Smp :=
  match u with
  | none => (d, s)
  | some f =>
    if f.chkSlot ≠ n % 8 then (d, s)
    else
      match checkerDev d n f with
      | none => (d.bump O.chChkNoncomp n, s)
      | some dev =>
        let thr := if d.nat O.chChkThresh n = 0 then (match descOf d n with | some x => x.checker | none => 0)
          else d.nat O.chChkThresh n
        let fail := decide ((thr : Int) < absI dev)
        let d := (d.bump O.chChkCompares n).setI O.chChkLastDev (narrow32 dev) n
        let d := if fail then d.bump O.chChkFails n else d
        let d := checkerRun d n (f.chkQty == 1) fail
        (d, { s with chkDone := true, chkFail := fail, chkBad := d.nat O.chChkState n != 0 })

end Sys2Proof.Machine
end

