-- ==== Sys2Proof/Machine/Seq.lean ====
section
/-! DEFINITION. The sweep sequencers (chapter 7): waveforms, flow, guards, triggers and steps, starting and stopping, table
writes. -/
namespace Sys2Proof.Machine

/-! Segments (R212, R213). -/

def parseSegment (w0 w1 w2 w3 : Nat) : Sg :=
  { typ := bits w0 31 29, interp := bits w0 28 27, trigB := bit w0 26, trigA := bit w0 25, loop := bit w0 24, fin := bit w0 23,
    guard := bits w0 22 20, len := bits w0 19 0, level := toSigned 32 w1, ref := bits w1 18 0, next := bits w2 29 16,
    repeats := bits w2 15 0, period := w3 }
def emptySegment (w0 w1 w2 w3 : Nat) : Bool := w0 == 0 && w1 == 0 && w2 == 0 && w3 == 0

/-- R213: whether the controller accepts the segment. -/
def segmentOk (w0 w1 w2 w3 : Nat) : Bool :=
  let s := parseSegment w0 w1 w2 w3
  emptySegment w0 w1 w2 w3 ||
  (decide (s.typ < 6) && (if s.typ = 4 then decide (s.interp < 3) else s.interp == 0) && decide (1 ≤ s.len)
    && decide (0x10000 ≤ s.period) && (s.loop || s.repeats == 0) && decide (w2 < 2 ^ 30)
    && (if 3 ≤ s.typ then decide (w1 < 2 ^ 19) else true)
    && (if s.typ = 4 then decide (s.ref + s.len ≤ 524288) else if 3 ≤ s.typ then decide (s.ref + 4 ≤ 524288) else true))

def segWord (d : Dev) (k : Nat) : Nat := tabGet 0 d.bank.seg k
def listWord (d : Dev) (k : Nat) : Nat := tabGet 0 d.bank.list k

/-! Waveforms (R215-R218). -/

/-- sin of a quarter-wave angle `x` (scaled by 2^80), by its power series; `k` terms from term `j`, `t` the term before. -/
def sinSeries (x : Int) : Nat → Nat → Int → Int
  | 0, _, _ => 0
  | n + 1, j, t =>
    let t' := -(t * x / 2 ^ 80 * x / 2 ^ 80) / ((2 * j) * (2 * j + 1))
    t' + sinSeries x n (j + 1) t'
/-- π scaled by 2^80, rounded. -/
def piScaled : Int := 3797952473636338580787994
/-- sin of 2π·a ÷ 2^32 for 0 ≤ a ≤ 2^30, scaled by 2^80. -/
def sinQuarter (a : Nat) : Int :=
  let x := 2 * piScaled * a / 2 ^ 32
  x + sinSeries x 16 1 x
/-- sin(2π × ph ÷ 2^32) × 2^30, rounded down. -/
def sinFloor (ph : Nat) : Int :=
  let q := ph / 2 ^ 30 % 4
  let a := ph % 2 ^ 30
  let y := if q % 2 = 0 then sinQuarter a else sinQuarter (2 ^ 30 - a)
  (if q < 2 then y else -y) / 2 ^ 50
/-- R218: the sine is known only to 2 units; the error within that bound is a free value. (DEDUCED, log 70) -/
def sinq (ph : Nat) : Int := sinFloor ph + clampI (-1) 2 (Config.sineError ph)

/-- A list or level value times 10^exp, saturating. -/
def scaleSeq (exp : Nat) (x : Int) : Int := narrow64 (x * (10 : Int) ^ exp)

def segDur (s : Sg) : Nat := s.len * s.period

/-- Sample `j` of a LIST segment (R217). -/
def listSample (rd : Nat → Int) (s : Sg) (exp : Nat) (j : Int) : Int :=
  scaleSeq exp (rd (s.ref + (min (max j 0) (s.len - 1)).toNat))

def listValue (rd : Nat → Int) (s : Sg) (exp k u : Nat) : Int :=
  let x := fun (o : Int) => listSample rd s exp (k + o)
  if s.interp = 0 then x 0
  else if s.interp = 1 then x 0 + roundShift ((x 1 - x 0) * u) 16
  else
    let a := 3 * (x 0 - x 1) + x 2 - x (-1)
    let b := 2 * x (-1) - 5 * x 0 + 4 * x 1 - x 2
    let c := x 1 - x (-1)
    let t := roundShift (a * u) 16 + b
    let t := roundShift (t * u) 16 + c
    x 0 + roundShift (t * u) 17

/-- R218. (DEDUCED, log 70) -/
def chirpValue (rd : Nat → Int) (s : Sg) (exp tau : Nat) : Int :=
  let off := rd s.ref
  let amp := rd (s.ref + 1)
  let f0 := rd (s.ref + 2) % (2 : Int) ^ 32
  let f1 := rd (s.ref + 3) % (2 : Int) ^ 32
  let ph := ((f0 * tau + roundDiv ((f1 - f0) * tau * tau) (2 * segDur s)) / 2 ^ 16) % (2 : Int) ^ 32
  scaleSeq exp off + roundShift (scaleSeq exp amp * sinq ph.toNat) 30

/-- R216: the value at `tau`, `rd` reading list entries as I32. -/
def segValue (rd : Nat → Int) (s : Sg) (exp : Nat) (v0 : Int) (tau : Nat) : Int :=
  let k := tau / s.period
  let u := ((tau - k * s.period) * 2 ^ 16) / s.period
  let lvl := scaleSeq exp s.level
  narrow64 <|
    if s.typ = 0 then lvl
    else if s.typ = 1 then v0 + roundDiv ((lvl - v0) * tau) (segDur s)
    else if s.typ = 2 then v0 + roundDiv ((lvl - v0) * (min k (s.len - 1) + 1 : Nat)) s.len
    else if s.typ = 3 then
      let delay := (rd (s.ref + 2) % (2 : Int) ^ 32).toNat
      let width := (rd (s.ref + 3) % (2 : Int) ^ 32).toNat
      if delay * s.period ≤ tau ∧ tau < (delay + width) * s.period then scaleSeq exp (rd (s.ref + 1)) else scaleSeq exp (rd s.ref)
    else if s.typ = 4 then listValue rd s exp k u
    else chirpValue rd s exp tau

/-- List entries that the value at `tau` reads. -/
def segReads (s : Sg) (tau : Nat) : List Nat :=
  if s.typ = 3 ∨ s.typ = 5 then (List.range 4).map (s.ref + ·)
  else if s.typ = 4 then
    let k : Int := (tau / s.period : Nat)
    let at_ := fun (o : Int) => s.ref + (min (max (k + o) 0) (s.len - 1)).toNat
    if s.interp = 0 then [at_ 0] else if s.interp = 1 then [at_ 0, at_ 1] else [at_ (-1), at_ 0, at_ 1, at_ 2]
  else []

/-- The end value (R216): a PULSE whose delay plus width is at least LEN holds the top level at its end.
(DEDUCED, log 70) -/
def segEndValue (rd : Nat → Int) (s : Sg) (exp : Nat) (v0 : Int) : Int :=
  let delay := (rd (s.ref + 2) % (2 : Int) ^ 32).toNat
  let width := (rd (s.ref + 3) % (2 : Int) ^ 32).toNat
  if s.typ = 3 ∧ width ≠ 0 ∧ delay < s.len ∧ s.len ≤ delay + width then scaleSeq exp (rd (s.ref + 1))
  else segValue rd s exp v0 (segDur s)

def Dev.seqr (d : Dev) (i : Nat) : Seq := d.seqs[i]?.getD {}
def Dev.setSeqr (d : Dev) (i : Nat) (x : Seq) : Dev := { d with seqs := d.seqs.setIfInBounds i x }

/-- List memory words are read: single-bit errors are corrected and counted (R45). -/
def listFixed (d : Dev) (ks : List Nat) : Dev :=
  let ones := ks.countP (fun k => d.bank.listOne.contains k)
  if ones = 0 then d else countFixed d 12 ones

/-- A value with its reads checked: none where a word read holds an uncorrectable error (R228). -/
def seqRead (d : Dev) (x : Seq) (s : Sg) (tau : Nat) : Dev × Option Int :=
  let ks := segReads s tau
  (listFixed d ks, if ks.any (fun k => d.bank.listBad.contains k) then none
    else some (segValue (fun k => toSigned 32 (listWord d k)) s x.exp x.v0 tau))

/-- The end value with its reads checked. -/
def seqReadEnd (d : Dev) (x : Seq) (s : Sg) : Dev × Option Int :=
  let ks := segReads s (segDur s)
  (listFixed d ks, if ks.any (fun k => d.bank.listBad.contains k) then none
    else some (segEndValue (fun k => toSigned 32 (listWord d k)) s x.exp x.v0))

/-! Events, steps and faults. -/

def ceilFrame (t : Nat) : Nat := (t + 65535) / 65536

/-- The channel's trigger producers asserted at frame `f` (R224); one event per producer and frame. -/
def seqAssert (d : Dev) (i f : Nat) (a b : Bool) : Dev :=
  let add := fun (x : Dev) (on : Bool) (o : Obj) =>
    let p := x.nat o i
    if on && decide (p < 16) && !x.stDue.contains (f, p) then { x with stDue := x.stDue ++ [(f, p)] } else x
  add (add d a O.seqTrigA) b O.seqTrigB

/-- A step start reported to MAU three frames ahead, whether or not an aperture sequence runs yet (R225). (DEDUCED, log 70) -/
def seqStep (d : Dev) (i k : Nat) : Dev :=
  (d.onChan i fun c => { c with ap := { c.ap with steps := c.ap.steps ++ [k] } }).bump O.chSeqSteps i
/-- The steps end at sample frame `k`. -/
def seqStepsEnd (d : Dev) (i k : Nat) : Dev := d.onChan i fun c => { c with ap := { c.ap with stepsEnd := some k } }
/-- STOP of a running sequencer: the steps announced do not come, and the step in progress ends with it (R225).
(DEDUCED, log 70) -/
def seqStop (d : Dev) (i : Nat) : Dev :=
  d.onChan i fun c =>
    { c with ap := { c.ap with steps := [], stepsEnd := none,
                               stopAt := if c.ap.running ∧ c.ap.cfg.mode = 2 ∧ c.ap.stopAt.isNone then some d.clk else c.ap.stopAt } }

def stackBytes (l : List (Nat × Nat)) : Bytes := padTo 16 (l.flatMap fun e => leBytes 2 e.1 ++ leBytes 2 e.2)
def seqSetStack (d : Dev) (i : Nat) (l : List (Nat × Nat)) : Dev :=
  ((d.setSeqr i { d.seqr i with stack := l }).setN O.seqDepth l.length i).setBytes O.seqStack (stackBytes l) i

def seqSetState (d : Dev) (i st : Nat) : Dev := (d.setN O.seqState st i).setN O.chSeqState st i

/-- FAULT with a cause: the output register keeps the last value delivered, where one has been (R226, R228).
(DESIGN CHOICE, log 108) -/
def seqFail (d : Dev) (i cause : Nat) : Dev :=
  let d := (seqSetState d i 4).setN O.seqFault cause i
  let d := match (d.chan i).seqLast with | some v => d.setI O.seqValue v i | none => d
  (d.flag O.seqFlags 1 i).raise 48 0 cause i

/-- An uncorrectable read at time `n`: bank 0 is raised and the iteration of that time gets no value (R228, R229). -/
def seqEcc (d : Dev) (i n store : Nat) : Dev :=
  let d := d.setSeqr i { d.seqr i with missN := some n }
  seqFail (d.raise 49 0 1 store true) i 4

/-- The end of the sequence: DONE holding the end value (R219, R225). -/
def seqDone (d : Dev) (i : Nat) (endv : Int) (tEnd : Nat) : Dev :=
  let x := d.seqr i
  seqStepsEnd (seqSetState (d.setI O.seqValue endv i) i 3) i (x.s0 + ceilFrame tEnd)

/-- Entry into segment `k` at `t` with `v0` (R214, R224, R230). (DESIGN CHOICE, log 108) -/
def seqEnter (d : Dev) (i k t : Nat) (v0 : Int) (n : Nat) : Dev :=
  let ws := (List.range 4).map (fun j => 4 * k + j)
  if ws.any (fun w => d.bank.segBad.contains w) then seqEcc d i n 0
  else
    let w := fun j => segWord d (4 * k + j)
    let ones := ws.countP (fun w => d.bank.segOne.contains w)
    let d := if ones = 0 then d else countFixed d 12 ones
    if emptySegment (w 0) (w 1) (w 2) (w 3) then seqFail d i 1
    else
      let s := parseSegment (w 0) (w 1) (w 2) (w 3)
      let x := { d.seqr i with seg := some s, idx := k, tSeg := t, v0 := v0, latch := false }
      let f := x.s0 + ceilFrame t
      let d := (d.setSeqr i x).bump O.seqEntries i
      seqStep (seqAssert d i f s.trigA s.trigB) i f

/-! Flow (R219). -/

inductive Flow where
  | go (k : Nat)
  | stop
  | nest
  | range
  deriving DecidableEq, Repr

/-- Position of the topmost entry holding `c`. -/
def stackFind (c : Nat) (l : List (Nat × Nat)) : Option Nat :=
  (List.range l.length).reverse.find? (fun p => (l.getD p (0, 0)).1 == c)

def exitFlow (s : Sg) (c : Nat) : Flow := if s.fin then .stop else if c = 16383 then .range else .go (c + 1)

/-- The loop rule: the new stack and where the flow goes. -/
def loopFlow (s : Sg) (c : Nat) (l : List (Nat × Nat)) : List (Nat × Nat) × Flow :=
  match stackFind c l with
  | some p =>
    let left := (l.getD p (0, 0)).2 - 1
    if 0 < left then (l.take p ++ [(c, left)], .go s.next) else (l.take p, exitFlow s c)
  | none =>
    if s.repeats = 0 then (l, exitFlow s c)
    else if l.length = 4 then (l, .nest)
    else (l ++ [(c, s.repeats)], .go s.next)

def nextFlow (s : Sg) (c : Nat) (l : List (Nat × Nat)) : List (Nat × Nat) × Flow :=
  if s.loop then loopFlow s c l else (l, if s.fin then .stop else .go s.next)

/-! Guards (R220-R223). -/

/-- Mean of the active values of the channel over 2^a processed frames that end with frame `last` (R221). -/
def guardMean (d : Dev) (i last a : Nat) (cur : Bool) (m : Nat) : Option Int :=
  let l := (((d.chan i).hist.drop (m - 1 - last)).take (2 ^ a)).filterMap fun s =>
    if s.ok then (if cur then s.i else s.v).map (·.phys) else none
  if l = [] then none else some (roundDiv (sumI l) l.length)

/-- Whether a guard of the check kinds is due at sample boundary `k`. -/
def guardDue (d : Dev) (i g k : Nat) (atEnd : Bool) : Bool :=
  let chk := d.nat O.seqGuardCheck i (g - 1)
  let here := chk == 2 && d.nat O.seqGuardAt i (g - 1) == k
  if atEnd then chk == 0 || chk == 1 || here else (chk == 1 && decide (1 ≤ k)) || here

/-- Evaluation of guard `g` for time `n` in frame `m`: the device after it and whether the guard is taken. -/
def guardEval (d : Dev) (i g n m : Nat) : Dev × Bool :=
  let x := d.seqr i
  let kind := d.nat O.seqGuardKind i (g - 1)
  let clear := fun (y : Dev) => y.setSeqr i { y.seqr i with latch := false }
  if kind = 0 then (clear d, x.latch)
  else
    match guardMean d i (x.s0 + n - 4) (d.nat O.seqGuardAvg i (g - 1)) (decide (3 ≤ kind)) m with
    | none => (clear (d.bump O.seqGuardNodata i), false)
    | some v =>
      let lvl := d.int O.seqGuardLevel i (g - 1)
      (clear d, if kind % 2 = 1 then decide (lvl < v) else decide (v < lvl))

/-- The branch of R223; its event goes out whatever the fall-back segment turns out to be. -/
def guardTake (d : Dev) (i g n : Nat) (s : Sg) : Dev :=
  let x := d.seqr i
  let (d, r) := seqRead d x s (n * 65536 - x.tSeg)
  match r with
  | none => seqEcc d i n 1
  | some v =>
    let emit := d.nat O.seqGuardEmit i (g - 1)
    let d := seqAssert ((seqSetStack d i []).flag O.seqFlags 4 i) i (x.s0 + n) (emit == 1) (emit == 2)
    seqEnter (d.bump O.seqGuardsTaken i) i (d.nat O.seqGuardFallback i (g - 1)) (n * 65536) v n

/-! Preparation (R210, R225). -/

/-- Steps inside the segment whose first frame is sequencer time `n` (R225). -/
def innerSteps (d : Dev) (x : Seq) (s : Sg) (n : Nat) : Nat :=
  let at_ := fun (off : Nat) => decide (0 < off ∧ off < segDur s) && ceilFrame (x.tSeg + off) == n
  if s.typ = 2 then
    let k := (n * 65536 - x.tSeg) / s.period
    b2n (decide (1 ≤ k ∧ k < s.len) && at_ (k * s.period))
  else if s.typ = 3 then
    let delay := listWord d (s.ref + 2)
    let width := listWord d (s.ref + 3)
    if width = 0 then 0 else b2n (at_ (delay * s.period)) + b2n (at_ ((delay + width) * s.period))
  else 0

/-- The value of time `n` comes out (R211). -/
def seqEmit (d : Dev) (i n : Nat) (s : Sg) : Dev :=
  let x := d.seqr i
  let (d, r) := seqRead d x s (n * 65536 - x.tSeg)
  match r with
  | none => seqEcc d i n 1
  | some v =>
    let k := innerSteps d x s n
    let d := d.setSeqr i { x with vals := tabPut x.vals n v }
    let d := forUpto k (fun _ y => seqStep y i (x.s0 + n)) d
    (((d.setI O.seqValue v i).setN O.seqTime n i).setN O.seqSeg x.idx i).setN O.chSeqSeg x.idx i

/-- The preparation of time `n` in frame `m`, with at most `fuel` changes of segment: a chain of guards taken at sample
boundary 0 through more than all 16,384 segments comes back to one of them, never ends, and gives no value.
(DEDUCED, log 70; DESIGN CHOICE, log 108) -/
def seqPrep : Nat → Nat → Nat → Nat → Dev → Dev
  | 0, _, _, _, d => d
  | fuel + 1, i, n, m, d =>
    let x := d.seqr i
    if d.nat O.seqState i ≠ 2 then d
    else match x.seg with
      | none => seqPrep fuel i n m (seqEnter d i x.first 0 (d.int O.seqValue i) n)
      | some s =>
        let tau := n * 65536 - x.tSeg
        if segDur s ≤ tau then
          let (d, taken) := if s.guard ≠ 0 && guardDue d i s.guard s.len true then guardEval d i s.guard n m else (d, false)
          if taken then seqPrep fuel i n m (guardTake d i s.guard n s)
          else
            let (d, r) := seqReadEnd d (d.seqr i) s
            match r with
            | none => seqEcc d i n 1
            | some endv =>
              let (l, fl) := nextFlow s x.idx x.stack
              let d := seqSetStack d i l
              match fl with
              | .go k => seqPrep fuel i n m (seqEnter d i k (x.tSeg + segDur s) endv n)
              | .stop => seqDone d i endv (x.tSeg + segDur s)
              | .nest => seqFail d i 2
              | .range => seqFail d i 3
        else
          let k := tau / s.period
          let due := s.guard ≠ 0 && decide (tau - k * s.period < 65536) && guardDue d i s.guard k false
          let (d, taken) := if due then guardEval d i s.guard n m else (d, false)
          if taken then seqPrep fuel i n m (guardTake d i s.guard n s) else seqEmit d i n s

/-- Prepare every time due in frame `m` (R210). (DEDUCED, log 70) -/
def seqCatchUp : Nat → Nat → Nat → Dev → Dev
  | 0, _, _, d => d
  | fuel + 1, i, m, d =>
    let x := d.seqr i
    if d.nat O.seqState i ≠ 2 ∨ m + 3 < x.s0 + x.nextN then d
    else
      let d := d.setSeqr i { x with nextN := x.nextN + 1 }
      seqCatchUp fuel i m (seqPrep 16500 i x.nextN m d)

/-- The sequencers' part of controller frame `m`. -/
def seqFrame (d : Dev) (m : Nat) : Dev :=
  let due := d.stDue.filter (fun e => decide (e.1 ≤ m))
  let d := { d with stDue := d.stDue.filter (fun e => decide (m < e.1)) }
  let d := due.foldl (fun x e => x.event (40 + e.2) d.clk) d
  let pd13 := bit (d.nat O.pmuPdState) 13
  if !pd13 then d
  else forUpto 96 (fun i x =>
    if x.nat O.seqState i = 2 then
      let x := seqCatchUp 16 i m x
      let s := x.seqr i
      x.setSeqr i { s with vals := s.vals.filter (fun e => decide (m + 1 ≤ s.s0 + e.1)) }
    else x) d

/-- The value delivered to channel `i` for iteration `F` (R210, R211, R229). (DEDUCED, log 59) -/
def seqDeliver (F i : Nat) (d : Dev) : Option Int :=
  let x := d.seqr i
  let st := d.nat O.seqState i
  match (d.chan i).seqLatch with
  | some v => if (d.chan i).seqLost = some F then none else some v
  | none =>
    if x.s0 + (x.missN.getD 0) = F + 2 ∧ x.missN.isSome then none
    else if st = 2 ∧ F + 2 < x.s0 then some x.pre
    else match tabFind x.vals (F + 2 - x.s0) with
      | some v => if x.s0 ≤ F + 2 then some v else some (d.int O.seqValue i)
      | none => some (d.int O.seqValue i)

/-! Commands (R226, R227). -/

/-- First controller frame whose start is at or after `t` (R209): a future one, the next, or one of the frames just begun. -/
def frameAtOrAfter (d : Dev) (t : Int) : Nat :=
  let late := (d.tods.takeWhile (fun s => decide (t * (2 : Int) ^ 32 ≤ s))).length
  if 0 < late then d.frame + 1 - late else d.frame + 1

/-- TIME64 of the start of frame `f`. -/
def frameTime (d : Dev) (f : Nat) : Int :=
  if f ≤ d.frame then frameStart d f / 2 ^ 32 else d.clk + 500 * ((f - d.frame : Nat) : Int)

/-- (DEDUCED, log 71) -/
def seqArm (d : Dev) (i : Nat) : Dev :=
  if d.nat O.seqState i = 4 then d
  else
    let v := d.int O.seqInit i
    let d := seqSetStack (d.setSeqr i {}) i []
    let d := ((((d.setI O.seqValue v i).setN O.seqEntries 0 i).setN O.seqGuardsTaken 0 i).setN O.seqGuardNodata 0 i).setN
      O.chSeqSteps 0 i
    seqSetState (d.onChan i fun c => { c with seqLatch := none }) i 1

/-- Start with first segment `k` from frame `f`, the first at or after t_s. -/
def seqBegin (d : Dev) (i k f : Nat) : Dev :=
  let v := d.int O.seqValue i
  let d := d.setSeqr i { first := k, exp := d.nat O.seqExp i, s0 := f + 3, pre := v,
                         startUp := if d.frame ≤ f then d.up + 500 * (f - d.frame) else d.up - 500 * (d.frame - f) }
  seqSetState (d.setI O.seqStartTime (d.stamp (frameTime d (f + 3))) i) i 2

/-- A start condition (Table 7.5). -/
def seqStartCond (d : Dev) (i f : Nat) : Dev :=
  let st := d.nat O.seqState i
  if st = 1 then seqBegin d i (d.nat O.seqFirst i) f
  else if st = 2 then d.flag O.seqFlags 8 i else d

/-- A start by a point, with the point's segment (Table 7.5): from the start of the next frame. -/
def seqPointStart (d : Dev) (i k : Nat) : Dev :=
  let st := d.nat O.seqState i
  if st = 1 then seqBegin d i k (d.frame + 1)
  else if st = 2 then d.flag O.seqFlags 8 i else d

/-- STOP (Table 7.5): the step in progress, and those announced, end with it (R225). (DEDUCED, log 70) -/
def seqHalt (d : Dev) (i : Nat) : Dev :=
  let run := d.nat O.seqState i == 2
  let d := seqSetState (d.setSeqr i { d.seqr i with seg := none, vals := [] }) i 0
  if run then seqStop d i else d

def chBound (d : Dev) (i : Nat) : Bool := d.nat O.chApBound i != 0xFFFF

/-- (DEDUCED, log 71) -/
def seqArmCmd (d : Dev) (i : Nat) : Eff :=
  let st := d.nat O.seqState i
  if chBound d i ∨ st = 1 ∨ st = 2 ∨ d.nat O.laneState (i / 8) = lsOff
      ∨ (d.nat O.seqStartSrc i = 2 ∧ ¬ bit (d.nat O.pmuPdState) 15) then refuse aState
  else .ok (seqArm d i)
def seqStartCmd (d : Dev) (i : Nat) : Eff :=
  if chBound d i ∨ d.nat O.seqState i ≠ 1 then refuse aState else .ok (seqBegin d i (d.nat O.seqFirst i) (d.frame + 1))
def seqStopCmd (d : Dev) (i : Nat) : Eff := .ok (seqHalt d i)

/-- An edge at sequencer line `line` with its stamp (R209, R222). -/
def seqLineEdge (d : Dev) (line : Nat) (stamp : Int) : Dev :=
  forUpto 96 (fun i x =>
    let s := x.seqr i
    let x := match s.seg with
      | some g => if x.nat O.seqState i = 2 ∧ g.guard ≠ 0 ∧ x.nat O.seqGuardLine i (g.guard - 1) = line then
          x.setSeqr i { s with latch := true } else x
      | none => x
    if x.nat O.seqStartSrc i = 1 ∧ x.nat O.seqStartLine i = line then seqStartCond x i (frameAtOrAfter x stamp) else x) d

/-! Tables (R213, R231). -/

def words32 (b : Bytes) : List Nat := (List.range (b.length / 4)).map (fun k => leField b (4 * k) 4)

def segmentsOk : List Nat → Bool
  | a :: b :: c :: e :: t => segmentOk a b c e && segmentsOk t
  | [] => true
  | _ => false

/-- One word written to bank 0; the flag chooses list memory. -/
def bankWord (list : Bool) (k w : Nat) (d : Dev) : Dev :=
  let (d, sp) := memWrite d 12
  let b := d.bank
  let upd := fun (l : List Nat) (bad : Bool) => if bad then k :: l.filter (· != k) else l.filter (· != k)
  if list then
    { d with bank := { b with list := tabSet 0 b.list k w, listBad := upd b.listBad (sp == 2), listOne := upd b.listOne (sp == 1) } }
  else { d with bank := { b with seg := tabSet 0 b.seg k w, segBad := upd b.segBad (sp == 2), segOne := upd b.segOne (sp == 1) } }

def bankWrite (list : Bool) (k : Nat) (ws : List Nat) (d : Dev) : Dev :=
  (ws.foldl (fun (a : Dev × Nat) w => (bankWord list a.2 w a.1, a.2 + 1)) (d, k)).1

/-- A write of `seg.table` from byte `off`. -/
def segTableWrite (d : Dev) (off : Nat) (b : Bytes) : Eff :=
  if off % 16 ≠ 0 ∨ b.length % 16 ≠ 0 ∨ 262144 < off + b.length ∨ ¬ segmentsOk (words32 b) then refuse aRange
  else .ok (bankWrite false (off / 4) (words32 b) d)
/-- A write of `list.data` from byte `off`. -/
def listWrite (d : Dev) (off : Nat) (b : Bytes) : Eff :=
  if off % 4 ≠ 0 ∨ b.length % 4 ≠ 0 ∨ 2097152 < off + b.length then refuse aRange
  else .ok (bankWrite true (off / 4) (words32 b) d)

end Sys2Proof.Machine
end

