-- ==== Sys2Proof/Machine/Loop.lean ====
section
/-! DEFINITION. One iteration of a channel's loop (chapters 3 to 5): targets and soft-start, deadline check, compliance state,
region selection, repetitive term and learning, control law, the channel sequence of Table 3.5, cascades. -/
namespace Sys2Proof.Machine

/-- What the LCE takes of the CTB at the start of a controller frame (R137, Table 4.2): phase and kind, 0 locked, 1 coasting,
2 STALL or unreachable, 3 REVERSE. -/
structure CtbSnap where
  phi : Nat := 0
  kind : Nat := 2
  deriving DecidableEq, Repr

/-! Soft-start (R119-R121). -/

structure Soft where
  rEff : Int
  ramp : Bool
  started : Bool
  deriving DecidableEq, Repr

/-- R120. -/
def slewStep (slew : Int) (div : Nat) : Int := max 1 (roundDiv (slew * div) 2000)

/-- One iteration of soft-start: a trigger leaves r_eff, or takes `from_`; a slew of 0 runs no ramp. -/
def softStart (trig : Bool) (from_ target slew step : Int) (rEff : Int) (ramp : Bool) : Soft :=
  if trig then (if slew = 0 then ⟨target, false, false⟩ else ⟨from_, true, true⟩)
  else if ramp then
    let delta := target - rEff
    if absI delta ≤ step then ⟨target, false, false⟩ else ⟨rEff + (if 0 < delta then step else -step), true, false⟩
  else ⟨target, false, false⟩

/-! Compliance (Table 5.4). -/

/-- `diff` is r_f − y_f, where y_f can be formed. -/
def compNext (st latch : Nat) (diff : Option Int) : Nat :=
  if st ≠ 1 ∧ latch = 1 then 1
  else if st ≠ 2 ∧ latch = 2 then 2
  else match diff with
    | none => st
    | some x => if st = 1 ∧ x ≤ 0 then 0 else if st = 2 ∧ 0 ≤ x then 0 else st

/-! Regions (R129-R135, Table 4.1). -/

structure RegionIn where
  mode : Nat
  comp : Nat
  rng : Nat
  err : Int
  rEff : Int
  deriving DecidableEq, Repr

/-- Mode, compliance and range selectors. -/
def regionCore (d : Dev) (n k : Nat) (x : RegionIn) : Bool :=
  bit (d.nat O.chRegionModeMask n k) x.mode && bit (d.nat O.chRegionCompMask n k) x.comp && bit (d.nat O.chRegionRngMask n k) x.rng
/-- Error and set-point bands, widened while the region is in use. -/
def regionBands (d : Dev) (n k : Nat) (x : RegionIn) (used : Bool) : Bool :=
  let h : Int := if used then d.int O.chRegionEHyst n k else 0
  let g : Int := if used then d.int O.chRegionSpHyst n k else 0
  decide (max 0 (d.int O.chRegionELo n k - h) ≤ x.err) && decide (x.err ≤ min 4294967295 (d.int O.chRegionEHi n k + h))
  && decide (max i64Min (d.int O.chRegionSpLo n k - g) ≤ x.rEff) && decide (x.rEff ≤ min i64Max (d.int O.chRegionSpHi n k + g))

/-- The candidate of R132: a region, or none for the fallback. -/
def candidate (d : Dev) (n : Nat) (x : RegionIn) (used : Option Nat) : Option Nat :=
  (List.range 8).find? fun k =>
    bit (d.nat O.chRegionEnable n) k && regionCore d n k x && regionBands d n k x (used == some k)

structure RegionOut where
  region : Option Nat
  dwell : Nat
  heldBack : Bool
  deriving DecidableEq, Repr

/-- R132; `first` marks the first completed iteration after an enable initialisation or a reattach. -/
def selectRegion (d : Dev) (n : Nat) (x : RegionIn) (used : Option Nat) (dwell : Nat) (first compChanged : Bool) : RegionOut :=
  let cand := candidate d n x used
  let unfit := match used with
    | some k => !regionCore d n k x || !bit (d.nat O.chRegionEnable n) k
    | none => false
  if cand = used ∧ ¬ first then ⟨used, dwell + 1, false⟩
  else if first || compChanged || unfit || decide (d.nat O.chRegionDwell n ≤ dwell) then ⟨cand, 0, false⟩
  else ⟨used, dwell + 1, true⟩

def setOf (d : Dev) (n : Nat) (r : Option Nat) : Nat :=
  match r with | some k => d.nat O.chRegionSet n k | none => d.nat O.chRegionFallback n

/-! Repetitive controller. -/

def repRangeByte (cur : Bool) (r : Nat) : Nat := b2n cur * 128 + r

/-- R144: the table is cleared. -/
def repClear (d : Dev) (n : Nat) : Dev :=
  let (d, k, sp) := memWrites d (n / 8) (repN (d.nat O.chRepBins n))
  let d := d.onChan n fun c => { c with bins := [], binErr := if sp = 2 then List.range k else [],
                                        binErr1 := if sp = 1 then List.range k else [], repXp := none }
  (d.setN O.chRepRange 0xFF n).setN O.chRepCycles 0 n

/-- A bin read in uncorrectable error is rewritten to 0 (R143); its faults (Table 20.1). -/
def repFixBin (d : Dev) (n j : Nat) : Dev :=
  let c := d.chan n
  let d := d.setChan n { c with bins := tabDel c.bins j, binErr := c.binErr.filter (· != j) }
  ((d.flag O.chRepFlags 8 n).raise (12 + n / 8) 0 4 n).raise (36 + n / 8) 0 1 0 true

/-- Reads of the bins listed; single-bit errors are corrected. -/
def repCheckBins (d : Dev) (n : Nat) (js : List Nat) : Dev × Bool :=
  let bad := js.filter (fun j => (d.chan n).binErr.contains j)
  let one := js.filter (fun j => (d.chan n).binErr1.contains j)
  let d := if one = [] then d else countFixed d (n / 8) one.length
  (bad.foldl (fun x j => if (x.chan n).binErr.contains j then repFixBin x n j else x) d, !bad.isEmpty)

def repCoefs (d : Dev) (n : Nat) : RepCoefs :=
  ⟨d.q O.chRepKl n, d.q O.chRepLambda n, d.q O.chRepQ0 n, d.q O.chRepQ1 n, d.int O.chRepLimit n⟩

/-- One bin of R138. -/
def repLearnBin (d : Dev) (n N j : Nat) (e : Int) : Dev :=
  let (d, _) := repCheckBins d n [(j + N - 1) % N, j, (j + 1) % N]
  let (v, l) := repUpdate (repCoefs d n) N j e (d.chan n)
  let (d, sp) := memWrite d (n / 8)
  let c := d.chan n
  let d := d.setChan n { c with bins := tabSet 0 c.bins j v, lastL := narrow32 l, lastBin := v,
                                binErr := if sp = 2 then j :: c.binErr.filter (· != j) else c.binErr.filter (· != j),
                                binErr1 := if sp = 1 then j :: c.binErr1.filter (· != j) else c.binErr1.filter (· != j) }
  if j = 0 then d.bump O.chRepCycles n else d

/-- R138. (DEDUCED, log 68) -/
def repLearn (d : Dev) (n phi : Nat) (e : Int) : Dev :=
  let code := d.nat O.chRepBins n
  let N := repN code
  let x := (phi % 65536) >>> repSh code
  let c := d.chan n
  let (js, skip) := match c.repXp with
    | none => ([x], 0)
    | some xp =>
      let k := (x + N - xp % N) % N
      if k ≤ 8 then ((List.range k).map (fun i => (xp + 1 + i) % N), 0)
      else ((List.range 8).map (fun i => (x + N - 7 + i) % N), k - 8)
  let d := if skip ≠ 0 then (d.bump O.chRepSkips n 0 skip).flag O.chRepFlags 4 n else d
  let d := js.foldl (fun y j => repLearnBin y n N j e) d
  d.onChan n fun c => { c with repXp := some x, taps := tabSet 0 (tabSet 0 c.taps 22 c.lastL) 23 c.lastBin }

/-- The term of one iteration. -/
structure RepOut where
  rep : Int
  state : Nat
  flag : Nat
  forced : Bool
  deriving DecidableEq, Repr

/-- Table 4.2 with R137, in the units of forcing range `fr` of quantity `cur`. -/
def repTerm (d : Dev) (n : Nat) (snap : CtbSnap) (cur : Bool) (fr : Nat) (paused : Bool) : RepOut :=
  let mode := d.nat O.chRepMode n
  if mode = 0 then ⟨0, 0, 0, true⟩
  else if snap.kind = 2 then ⟨0, 5, 2, true⟩
  else
    let (rb, _, _) := repRead (d.nat O.chRepBins n) snap.phi (d.nat O.chRepLead n) (d.chan n)
    let br := d.nat O.chRepRange n
    let rep := if br = 0xFF ∨ br % 128 = fr then rb
      else narrow32 (qMul (fsRatio (rangeAt (descOf d n) cur (br % 128)) (rangeAt (descOf d n) cur fr)) rb)
    if snap.kind = 0 then ⟨rep, if mode = 2 then 2 else if paused then 3 else 1, 0, false⟩ else ⟨rep, 4, 1, false⟩

/-! Missed iterations (R113, R114). -/

/-- The repetitive state of an abandoned iteration and its flag (R142, Table 4.2). -/
def repMissed (d : Dev) (n : Nat) (snap : CtbSnap) : Nat × Nat :=
  let mode := d.nat O.chRepMode n
  if mode = 0 then (0, 0) else if snap.kind = 2 then (5, 2) else if snap.kind ≠ 0 then (4, 1)
  else if mode = 2 then (2, 0) else (3, 0)

/-- `flags` are the cause bits of Table 3.4, `rep` the repetitive state; learning did not run, so the next learning iteration
updates one bin (R138). -/
def missIteration (d : Dev) (n flags rep : Nat) : Dev :=
  let d := d.flag O.chForceFlags (1 + flags) n
  let d := ((d.bump O.chForceMissCount n).bump O.chForceMissRun n).setN O.chRepState rep n
  let d := d.onChan n fun c =>
    let w := ofSigned 32 (tabGet 0 c.taps 20)
    let w := w / 2 ^ 10 * 2 ^ 10 + rep * 2 ^ 7 + w % 2 ^ 7
    { c with traceFlags := setBit (if rep = 5 then setBit c.traceFlags 0 else c.traceFlags) 4,
             missLog := (d.frame :: c.missLog).take 64, repXp := none,
             taps := tabSet 0 c.taps 20 (toSigned 32 (setBit (clrBit w 19) 20)) }
  let d := if bit flags 3 then (d.raise (12 + n / 8) 0 2 n).raise (36 + n / 8) 0 1 2 true else d
  if d.nat O.chForceMissRun n = d.nat O.chForceMissLimit n then d.raise (12 + n / 8) 0 1 n else d

/-- The static, sequencer, cascade or held target (R105, R126); none where the sequencer has not delivered. -/
def targetOf (d : Dev) (n : Nat) (seqv : Option Int) : Option Int :=
  let c := d.chan n
  if d.nat O.chForceLoopState n = 3 then some 0
  else if c.ticked then some c.cascTarget
  else match c.cascHeld with
    | some h => some h
    | none => if chSrc d n = 1 then seqv else some (chLevel d n (chMode d n == 1))

/-- Everything an iteration has decided before the control law; nothing of it is written back yet. -/
structure IterPre where
  target : Int
  soft : Soft
  comp : Nat
  cur : Bool
  rr : Nat
  fr : Nat
  y : Int
  r : Int
  yf : Option Int
  uLo : Int
  uHi : Int
  step : Int
  deriving DecidableEq, Repr

/-- Whether a state word of the channel's context is in error for this iteration; a fresh iteration reads none. -/
def ctxBad (d : Dev) (n : Nat) (fresh : Bool) : Bool := !fresh && !(d.chan n).ctxErr.isEmpty

/-- The coefficient words of `set` are read: single-bit errors are corrected, an uncorrectable one fails the deadline
(Table 3.4, R45). -/
def coefRead (d : Dev) (n set : Nat) : Dev × Bool :=
  let c := d.chan n
  let mine := fun (l : List Nat) => l.filter fun w => w / 8 == set
  let one := (mine c.coefErr1).length
  (if one = 0 then d else countFixed d (n / 8) one, !(mine c.coefErr).isEmpty)

/-- The start of soft-start in this iteration: triggered, and from where. -/
def softTrigger (d : Dev) (n : Nat) (target : Int) (init : Bool) (meas : Option Int) : Bool × Int :=
  let c := d.chan n
  let cur := chMode d n == 1
  let st := d.nat O.chForceLoopState n
  if init ∨ c.reattach.isSome then (true, meas.getD c.rEff)
  else if st = 3 then (c.drainFirst, c.rEff)
  else if c.trigPend then (true, c.rEff)
  else
    let thr := if cur then d.int O.chSsIStep n else d.int O.chSsVStep n
    (!c.ramp && !c.ticked && decide (thr < absI (target - c.lastTarget)), c.rEff)

/-- Targets, soft-start, compliance state, set-point and mean; none where the regulated quantity has no usable sample.
(DEDUCED, log 68) -/
def prepare (d : Dev) (n div : Nat) (target : Int) (init : Bool) : Nat × Option IterPre :=
  let c := d.chan n
  let ds := descOf d n
  let fcur := chMode d n == 1
  let fr := if fcur then c.iAct else c.vAct
  let fe := rangeAt ds fcur fr
  let yf := blockMean ds fcur fr div c.hist
  let meas := yf.map (fun y => physOf y fe.fullScale)
  let slew := if fcur then d.int O.chSsISlew n else d.int O.chSsVSlew n
  let step := slewStep slew div
  let (trig, from_) := softTrigger d n target init meas
  let soft := softStart trig from_ target slew step c.rEff c.ramp
  let comp := compNext (d.nat O.chLimitCompState n) c.latch (yf.map (fun y => loopOf (krOf fe) soft.rEff - y))
  let cur := if comp = 0 then fcur else !fcur
  let rr := if cur then c.iAct else c.vAct
  let lim := limits d n cur
  let sp := if comp = 1 then lim.1 else if comp = 2 then lim.2 else soft.rEff
  let (lo, hi) := outputBounds d n fcur fr
  match blockMean ds cur rr div c.hist with
  | none => (comp, none)
  | some y => (comp, some ⟨target, soft, comp, cur, rr, fr, y, loopOf (krOf (rangeAt ds cur rr)) sp, yf, lo, hi, step⟩)

/-- The integrator that R117, R118 and R133 choose so that the unclamped sum equals `u0`. -/
def integFor (k : Coefs) (x : IterPre) (rep u0 : Int) : LawSt :=
  let (_, p, dIn, ff) := lawTerms k x.r x.y
  ⟨clampMM x.uLo x.uHi (narrow32 (u0 - (p + ff + rep))), 0, dIn, u0⟩

/-- R141. (DEDUCED, log 68) -/
def absorb (x : IterPre) (forced : Bool) (rp rn : Int) (out : Bool) (st : LawSt) : LawSt × Bool :=
  if forced then
    (if rp ≠ 0 ∧ ¬ out then { st with integ := clampMM x.uLo x.uHi (narrow32 (st.integ + rp)) } else st, true)
  else if out then ({ st with integ := clampMM x.uLo x.uHi (narrow32 (st.integ - rn)) }, false)
  else (st, false)

/-- Table 4.6. -/
def statusWord (set : Nat) (region : Option Nat) (comp sat : Nat) (switch ramp : Bool) (rr fr rep : Nat) : Int :=
  toSigned 32 (set * 2 ^ 29 + (region.getD 8) * 2 ^ 25 + comp * 2 ^ 23 + sat * 2 ^ 21 + b2n switch * 2 ^ 19 + b2n ramp * 2 ^ 18
    + rr * 2 ^ 14 + fr * 2 ^ 10 + rep * 2 ^ 7)

/-- Latch the iteration taps 3 to 20 (Table 4.5). -/
def latchTaps (x : IterPre) (rep : Int) (st : LawSt) (o : LawOut) (uc dac word : Int) (t : Tab Int) : Tab Int :=
  tabSetRun 0 t 3 [x.y, x.r, o.e, o.pIn, narrow32 o.p, o.dIn, st.dState, st.integ, narrow32 o.di, narrow32 o.ff, rep,
    narrow32 o.uRaw, o.u, x.uLo, x.uHi, uc, dac, word]

/-- The outputs of a completed iteration go to the slot together (R107). -/
def sendIteration (d : Dev) (n : Nat) (fcur : Bool) (fr : Nat) (dac : Option Int) (ocon : Bool) : Dev :=
  let l := d.lane (n / 8)
  let o := l.outs[n % 8]?.getD {}
  let o := { o with mode := if fcur then 1 else 0, ocon := ocon, scon := true, dac := dac.getD o.dac,
                    irng := if fcur then fr else o.irng, vrng := if fcur then o.vrng else fr }
  d.setLane (n / 8) { l with outs := l.outs.setIfInBounds (n % 8) o }

/-- The objects of a completed iteration (Tables 3.7, 3.10, 4.9, 4.10). -/
def iterObjects (d : Dev) (n : Nat) (x : IterPre) (st : LawSt) (o : LawOut) (dacsat : Bool) : Dev :=
  let d := ((d.setI O.chForceTarget x.target n).setI O.chForceSetpoint x.soft.rEff n).setI O.chForceU o.u n
  let d := ((d.setI O.chForceInteg st.integ n).setN O.chForceSat o.sat n).setN O.chForceMissRun 0 n
  let d := ((d.bump O.chForceIter n).setB O.chSsActive x.soft.ramp n).setI O.chSsStepIter x.step n
  let d := if x.soft.started then d.bump O.chSsRamps n else d
  let d := if o.sat ≠ 0 then (d.flag O.chForceFlags 64 n).onChan n fun c => { c with traceFlags := setBit c.traceFlags 1 } else d
  if dacsat then d.flag O.chForceFlags 16 n else d

/-- Objects of region selection (R133, R135); `switch` is the switch event. -/
def regionObjects (d : Dev) (n set : Nat) (ro : RegionOut) (setChanged switch comply : Bool) : Dev :=
  let d := (d.setN O.chRegionActive (ro.region.getD 8) n).setN O.chCoefActive set n
  let d := if setChanged then d.bump O.chCoefSwitches n else d
  let m := b2n switch + 2 * b2n (switch && comply) + 4 * b2n ro.heldBack
  let d := if m = 0 then d else d.flag O.chRegionFlags m n
  if switch then d.onChan n fun c => { c with traceFlags := setBit (if comply then setBit c.traceFlags 2 else c.traceFlags) 3 }
  else d

/-- Entry into compliance is counted (R174). -/
def compObjects (d : Dev) (n old new : Nat) : Dev :=
  let d := d.setN O.chLimitCompState new n
  if new ≠ old ∧ new ≠ 0 then (d.bump O.chLimitCompEntries n).flag O.chLimitFlags (if new = 1 then 1 else 2) n else d

/-- Region selection of an iteration (R132). -/
def iterRegion (d : Dev) (n : Nat) (fresh : Bool) (x : IterPre) : RegionOut :=
  let c := d.chan n
  let prevComp := if c.had then c.hadComp else x.comp
  selectRegion d n ⟨chMode d n, x.comp, x.rr, absI (narrow32 (x.r - x.y)), x.soft.rEff⟩ (if fresh then none else c.region)
    c.dwellIter fresh (x.comp != prevComp)

/-- The completed iteration: regions, repetitive term, control law, output, learning (R108-R110, R130-R142).
(DEDUCED, log 69) -/
def completeIteration (d : Dev) (n F : Nat) (snap : CtbSnap) (init : Bool) (x : IterPre) : Dev :=
  let c := d.chan n
  let ds := descOf d n
  let fcur := chMode d n == 1
  let fresh := init || c.reattach.isSome
  let oldComp := d.nat O.chLimitCompState n
  let prevComp := if c.had then c.hadComp else x.comp
  let ro := iterRegion d n fresh x
  let set := setOf d n ro.region
  let k := coefs d n set
  let differs := c.had && (set != c.hadSet || x.cur != c.hadCur || x.rr != c.hadRRng || x.fr != c.hadFRng || x.comp != c.hadComp)
  let rp := repTerm d n snap fcur x.fr (x.comp != 0 || x.soft.ramp)
  let st : LawSt := ⟨c.integ, c.dState, c.dPrevIn, c.uPrev⟩
  let (st, out) := absorb x rp.forced (if c.had then c.hadRep else 0) rp.rep c.repAbsorbed st
  let fe := rangeAt ds fcur x.fr
  let ce := calEntry d n fcur x.fr
  let st :=
    if init then integFor k x rp.rep (x.yf.getD 0)
    else match c.reattach with
      | some h => integFor k x rp.rep (heldOutput fe ce h)
      | none =>
        if differs then
          let up := if x.fr != c.hadFRng then narrow32 (qMul (fsRatio (rangeAt ds fcur c.hadFRng) fe) st.uPrev) else st.uPrev
          { integFor k x rp.rep up with uPrev := up }
        else st
  let (st, o) := law k ⟨x.y, x.r, rp.rep, x.uLo, x.uHi⟩ st
  let (uc, dac, dacsat) := dacCode fe ce o.u
  let learn := rp.state == 1 && o.sat == 0 && (d.nat O.chRepRange n == 0xFF || d.nat O.chRepRange n == repRangeByte fcur x.fr)
  let repSt := if rp.state = 1 ∧ ¬ learn then 3 else rp.state
  let st3 := d.nat O.chForceLoopState n == 3
  let opening := st3 && decide (x.soft.rEff = 0)
  let word := statusWord set ro.region x.comp o.sat differs x.soft.ramp x.rr x.fr repSt
  let d := compObjects d n oldComp x.comp
  let d := regionObjects d n set ro (c.had && set != c.hadSet) differs (x.comp != prevComp)
  let d := iterObjects d n x st o dacsat
  let d := ((d.setI O.chRepTerm rp.rep n).setN O.chRepState repSt n)
  let d := if rp.flag ≠ 0 then d.flag O.chRepFlags rp.flag n else d
  let d := d.onChan n fun c =>
    { c with integ := st.integ, dState := st.dState, dPrevIn := st.dPrevIn, uPrev := st.uPrev, rEff := x.soft.rEff,
             ramp := x.soft.ramp, lastTarget := x.target, drainFirst := false, reattach := none, trigPend := false, had := true,
             hadSet := set, hadCur := x.cur, hadRRng := x.rr, hadFRng := x.fr, hadComp := x.comp, hadRep := rp.rep,
             region := ro.region, dwellIter := ro.dwell, repAbsorbed := out, latch := 0,
             traceFlags := if rp.state = 5 then setBit c.traceFlags 0 else c.traceFlags,
             repXp := if learn then c.repXp else none,
             taps := latchTaps x rp.rep st o uc dac word c.taps }
  let d := if learn then
      let d := if d.nat O.chRepRange n = 0xFF then d.setN O.chRepRange (repRangeByte fcur x.fr) n else d
      repLearn d n snap.phi o.e
    else d
  let (d, sp) := memWrite d (n / 8)
  let d := d.onChan n fun c => { c with ctxErr := if sp = 2 then [0] else [], ctxErr1 := if sp = 1 then [0] else [] }
  if opening then
    let d := sendIteration d n fcur x.fr none false
    let cs := match ds with | some y => y.connect | none => 0
    (d.setN O.chForceLoopState 4 n).onChan n fun c => { c with readyAt := F + 2 + cs }
  else
    let d := sendIteration d n fcur x.fr (some dac) true
    if init then d.setN O.chForceLoopState 2 n else d

/-- An iteration of a forcing channel in iteration frame `F` with divisor `div` (R113, R115). The checks of Table 3.4 are made
on the quantity that this iteration regulates; a change of compliance state stays in force where that quantity has no usable
sample, and else waits for a completed iteration with its latch (R174). (DEDUCED, log 68) -/
def iterate (d : Dev) (n F div : Nat) (snap : CtbSnap) (seqv : Option Int) (init : Bool) : Dev :=
  let c := d.chan n
  let comp0 := d.nat O.chLimitCompState n
  let fresh := init || c.reattach.isSome
  let tgt := targetOf d n seqv
  let reads := d.nat O.chRepMode n != 0 && snap.kind != 2
  let (_, i, i1) := repRead (d.nat O.chRepBins n) snap.phi (d.nat O.chRepLead n) c
  let (d, repBad) := if reads then repCheckBins d n [i, i1] else (d, false)
  let d := if c.ctxErr1.isEmpty || fresh then d else countFixed d (n / 8) 1
  let (comp, pre) := prepare (reselectRanges d n F) n div (tgt.getD c.lastTarget) init
  let (d, coefBad) := match pre with
    | some x => coefRead d n (setOf d n (iterRegion (reselectRanges d n F) n fresh x).region)
    | none => (d, false)
  let flags := (if pre.isNone then 2 else 0) + (if tgt.isNone || repBad then 4 else 0)
    + (if ctxBad d n fresh || coefBad then 8 else 0)
  match tgt, pre, flags with
  | some t, some x, 0 =>
    let d := reselectRanges d n F
    completeIteration (if chSrc d n = 1 then d.setI O.chSeqValue t n else d) n F snap init x
  | _, _, _ =>
    let (st, fl) := repMissed d n snap
    let d := if fl = 0 then d else d.flag O.chRepFlags fl n
    missIteration (if pre.isNone then compObjects d n comp0 comp else d) n flags st

/-! Cascades (R122-R126). -/

/-- R122. -/
def cascadeValid (d : Dev) (i : Nat) : Bool :=
  let o := d.nat O.chCascPartner i
  decide (o < 96) && d.nat O.chCascRole i == 2 && d.nat O.chCascRole o == 1 && d.nat O.chCascPartner o == i
  && chMode d o == 2 && decide (chMode d i < 2) && slotPresent (descOf d o) (o % 8) && slotPresent (descOf d i) (i % 8)

/-- R123: 0 when the outer `o` runs in the tick's own frame of the inner `i`. -/
def pairLatency (o i : Nat) : Nat := if o / 8 = i / 8 ∧ o < i then 0 else 1
def cascadeLatency (d : Dev) (i : Nat) : Nat := pairLatency (d.nat O.chCascPartner i) i

/-- Whether the inner channel iterates in frame `m`. -/
def iteratesAt (d : Dev) (i m : Nat) : Bool :=
  d.nat O.laneState (i / 8) == lsRun && (d.lane (i / 8)).iters.any (·.1 == m)
  && (d.nat O.chForceLoopState i == 2 || d.nat O.chForceLoopState i == 3)

/-- The number of the inner iteration that falls in frame `t`, seen from the start of frame `m`. -/
def innerNumber (d : Dev) (i m t : Nat) : Option Nat :=
  let c := d.chan i
  match c.engagedAt with
  | none => none
  | some e =>
    if !iteratesAt d i t ∨ t < e + 3 then none
    else some (c.innerN + (if m < t ∧ iteratesAt d i m ∧ (c.ticked ∨ e + 3 ≤ m) then 1 else 0))

/-- Outer channels whose law runs in frame `m` (R123), with their inner channels. -/
def outersDue (d : Dev) (m : Nat) : List (Nat × Nat) :=
  (List.range 96).filterMap fun i =>
    if (d.chan i).engagedAt.isNone then none
    else
      let M := max 1 (d.nat O.chCascM i)
      match innerNumber d i m (m + cascadeLatency d i) with
      | some k => if k % M = 0 then some (d.nat O.chCascPartner i, i) else none
      | none => none

/-- The outer channel's iteration in frame `F` (R124, R125); the target is published for the tick it is made for. -/
def outerIterate (d : Dev) (o i F : Nat) (seqv : Option Int) : Dev :=
  let c := d.chan o
  let ds := descOf d o
  let cur := d.nat O.chCascQty o == 1
  let rr := if cur then c.iAct else c.vAct
  let frames := if c.outerFirst then max 1 (d.nat O.chCascM i) * max 1 (d.lane (i / 8)).divNow else c.outerFrames
  let d := d.setChan o { c with outerFrames := 0, outerFirst := false }
  let tgt := if chSrc d o = 1 then seqv else some (chLevel d o cur)
  let y := blockMean ds cur rr frames c.hist
  let d := if c.ctxErr1.isEmpty then d else countFixed d (o / 8) 1
  let (d, coefBad) := coefRead d o (d.nat O.chRegionFallback o)
  let flags := (if y.isNone then 2 else 0) + (if tgt.isNone then 4 else 0) + (if ctxBad d o false || coefBad then 8 else 0)
  match y, tgt with
  | some y, some t =>
    if flags ≠ 0 then missIteration d o flags (d.nat O.chRepState o)
    else
      let d := if chSrc d o = 1 then d.setI O.chSeqValue t o else d
      let r := loopOf (krOf (rangeAt ds cur rr)) t
      let lo := d.int O.chCascULo o
      let hi := d.int O.chCascUHi o
      let set := d.nat O.chRegionFallback o
      let k := coefs d o set
      let st : LawSt := ⟨c.integ, c.dState, c.dPrevIn, c.uPrev⟩
      let differs := c.had && (set != c.hadSet || cur != c.hadCur || rr != c.hadRRng)
      let x : IterPre := ⟨t, ⟨t, false, false⟩, 0, cur, rr, rr, y, r, none, lo, hi, 0⟩
      let st := if differs then { integFor k x 0 st.uPrev with uPrev := st.uPrev } else st
      let (st, out) := law k ⟨y, r, 0, lo, hi⟩ st
      let word := statusWord set none 0 out.sat differs false rr rr 0
      let d := regionObjects d o set ⟨none, 0, false⟩ (c.had && set != c.hadSet) differs false
      let d := iterObjects d o x st out false
      let (d, sp) := memWrite d (o / 8)
      let d := d.onChan o fun c =>
        { c with integ := st.integ, dState := st.dState, dPrevIn := st.dPrevIn, uPrev := st.uPrev, had := true, hadSet := set,
                 hadCur := cur, hadRRng := rr, hadFRng := rr, hadComp := 0, hadRep := 0, region := none,
                 ctxErr := if sp = 2 then [0] else [], ctxErr1 := if sp = 1 then [0] else [],
                 taps := latchTaps x 0 st out 0 0 word c.taps }
      let target := narrow64 (qMul (d.q O.chCascGain i) out.u + d.int O.chCascOffset i)
      d.onChan i fun c => { c with cascNew := c.cascNew ++ [(F + cascadeLatency d i, target)] }
  | _, _ => missIteration d o flags (d.nat O.chRepState o)

/-- At an inner iteration of an engaged pair: a tick takes the published target, or is stale (R123, R126). -/
def innerTick (d : Dev) (i F : Nat) : Dev :=
  let c := d.chan i
  match c.engagedAt with
  | none => d
  | some e =>
    if F < e + 3 then d
    else
      let M := max 1 (d.nat O.chCascM i)
      let tick := c.innerN % M = 0
      let mine := c.cascNew.find? (fun e => e.1 == F)
      let c := { c with ticked := true, innerN := c.innerN + 1, trigPend := c.trigPend || !c.ticked,
                        cascNew := c.cascNew.filter (fun e => decide (F < e.1)) }
      if !tick then d.setChan i c
      else
        let d := d.bump O.chCascTicks i
        match mine with
        | some (_, t) => d.setChan i { c with cascTarget := t, staleRun := 0 }
        | none =>
          let run := c.staleRun + 1
          let d := ((d.setChan i { c with staleRun := run }).bump O.chCascStale i).flag O.chForceFlags 32 i
          if 16 ≤ run then disengage d i true else d

/-! The window of a slot (Table 3.1). -/

/-- Opening: connect-settle frames after the down-frame that opened OCON (R115). -/
def openingDone (d : Dev) (n F : Nat) : Dev :=
  if d.nat O.chForceLoopState n = 4 ∧ (d.chan n).readyAt ≤ F then
    let l := d.lane (n / 8)
    let o := l.outs[n % 8]?.getD {}
    (d.setLane (n / 8) { l with outs := l.outs.setIfInBounds (n % 8) { disconnected o with dac := 0 } }).toDisabled n
  else d

/-- Iteration-frame work of slot `n % 8` (R97, R98, Table 3.5). -/
def iterationWork (d : Dev) (n F : Nat) (snap : CtbSnap) (seqv : Option Int) : Dev :=
  match (d.lane (n / 8)).iters.find? (·.1 == F) with
  | none => d
  | some (_, div) =>
    let st := d.nat O.chForceLoopState n
    if st = 1 then (if (d.chan n).readyAt ≤ F then iterate d n F div snap seqv true else d)
    else if st = 2 ∨ st = 3 then
      let d := innerTick d n F
      iterate (d) n F div snap seqv false
    else if st = 5 then reselectRanges d n F
    else d

/-- The sequencer's value is delivered for an iteration of the channel, whatever the channel makes of it (R210). -/
def seqDelivered (d : Dev) (n : Nat) (seqv : Option Int) : Dev :=
  match seqv with
  | some v => if (d.chan n).seqLast = some v then d else d.onChan n fun c => { c with seqLast := some v }
  | none => d

/-- The window of channel `n` in frame `F`: calibration, RNG, checker, iteration; MAU comes after (R96). The samples of an
ABSENT slot are ignored (R94). -/
def slotWindow (d : Dev) (n F : Nat) (u : Option UpFrame) (snap : CtbSnap) (seqv : Option Int) (outer : Option Nat) : Dev :=
  let run := d.nat O.laneState (n / 8) == lsRun
  let steps := run && !d.coasting
  let u := if slotPresent (descOf d n) (n % 8) then u else none
  let (d, s) := checkerFrame d n u (sampleOf d n F u)
  let cap := histCap d n
  let d := d.onChan n fun c =>
    { (if F = c.iTransEnd then armReset c else c) with hist := (s :: c.hist).take cap, outerFrames := c.outerFrames + 1 }
  let x := match u with | some f => f.slots.getD (n % 8) {} | none => {}
  let d := if run then absFrame d n s else d
  let d := if run && d.nat O.chForceLoopState n != 0 then rngFrame d n F s ⟨x.irng, x.vrng, x.ndir⟩ else d
  let d := if run then openingDone d n F else d
  let due := (d.lane (n / 8)).iters.any (·.1 == F) || outer.isSome
  let d := if steps && due then seqDelivered d n seqv else d
  let d := if steps then iterationWork d n F snap seqv else d
  match outer with
  | some i => if steps then outerIterate d n i F seqv else d
  | none => d

end Sys2Proof.Machine
end

