-- ==== Sys2Proof/Machine/Trace.lean ====
section
/-! DEFINITION. The lane trace (R145-R150) and the frame of one lane: link, down-frame, slot windows, MAU, trace, blocks. -/
namespace Sys2Proof.Machine

/-! Trace. -/

/-- The lane-wide trace objects live at the lane's first channel (R150). -/
def traceCh (n : Nat) : Nat := 8 * n

def noValue : Int := -2147483648
/-- Tap `t` of channel `n` at the end of its window (Table 4.5). -/
def tapValue (d : Dev) (n t phi : Nat) : Int :=
  let c := d.chan n
  let head := c.hist.head?
  let cal := fun (x : Option (Option CVal)) => match x with | some (some v) => v.cal | _ => noValue
  if t = 0 then cal (head.map (·.v))
  else if t = 1 then cal (head.map (·.i))
  else if t = 2 then
    match c.hist[2]? with
    | some s =>
      if s.ap = 0 ∨ ¬ s.ok then noValue
      else match s.use with
        | .act => cal (some s.i)
        | .nbr => cal (some s.nb)
        | .gap => noValue
    | none => noValue
  else if t = 21 then phi
  else tabGet 0 c.taps t

/-- The value a probe records (R145); `k` is the probe's channel. -/
def probeValue (d : Dev) (k phi : Nat) : Int :=
  let p := d.nat O.chTraceProbe k
  if bit p 15 then tapValue d (8 * (k / 8) + bits p 10 8) (bits p 4 0) phi else 0

/-- Probe compare between two trace frames (Table 4.7). (DESIGN CHOICE, log 101) -/
def crosses (slope : Nat) (level : Int) (old : Option Int) (new : Int) : Bool :=
  match old with
  | none => false
  | some o =>
    let up := decide (o < level ∧ level ≤ new)
    let dn := decide (level < o ∧ new ≤ level)
    if slope = 0 then up else if slope = 1 then dn else up || dn

/-- One trace frame: the row, the trigger, the state (Table 4.8). -/
def traceCapture (d : Dev) (n phi : Nat) : Dev :=
  let k := traceCh n
  let t := d.trace n
  let vals := (List.range 8).map (fun p => probeValue d (k + p) phi)
  let (d, bad) := (List.range 8).foldl (fun (a : Dev × Nat) p =>
    let (x, sp) := memWrite a.1 n
    (x, if sp = 2 then setBit a.2 p else a.2)) (d, 0)
  let pre := d.nat O.chTracePre k
  let st := d.nat O.chTraceState k
  let st := if st = 1 ∧ pre ≤ t.captured then 2 else st
  let slot := d.nat O.chTraceTrigProbe k
  let probe := vals.getD slot 0
  let src := d.nat O.chTraceTrigSrc k
  let cond := t.forced
    || (src == 1 && t.held)
    || (src == 2 && crosses (d.nat O.chTraceTrigSlope k) (d.int O.chTraceTrigLevel k) t.prevProbe probe)
    || (src == 3 && (d.chan (k + slot)).traceFlags &&& d.nat O.chTraceTrigFlags k != 0)
  let trig := cond && (st == 1 || st == 2)
  let d := if trig then (d.setN O.chTracePreValid (if st = 1 then t.captured else pre) k).setI O.chTraceTrigTime d.now k else d
  let post := if trig then 1 else if st = 3 then t.post + 1 else t.post
  let st := if trig then 3 else st
  let st := if st = 3 ∧ 4096 ≤ post + pre then 4 else if st = 1 ∧ pre ≤ t.captured + 1 then 2 else st
  let d := d.setTrace n { t with rows := (⟨vals, bad⟩ :: t.rows).take 4096, captured := t.captured + 1, post := post, held := false,
                                 forced := false, prevProbe := some probe }
  let d := forUpto 8 (fun s x => x.onChan (k + s) fun c => { c with traceFlags := 0 }) d
  d.setN O.chTraceState st k

/-- The trace's part of a frame (R146). (DESIGN CHOICE, log 100) -/
def traceFrame (d : Dev) (n phi : Nat) : Dev :=
  let st := d.nat O.chTraceState (traceCh n)
  if st = 0 ∨ st = 4 then d
  else
    let t := d.trace n
    let d := d.setTrace n { t with frames := t.frames + 1 }
    if (t.frames + 1) % (max 1 (d.nat O.chTraceDiv (traceCh n))) = 0 then traceCapture d n phi else d

/-- `ch.trace.data` in DONE (R149, R575). -/
def traceData (d : Dev) (n : Nat) : Bytes :=
  let k := traceCh n
  let len := d.nat O.chTracePreValid k + 4096 - d.nat O.chTracePre k
  let rows := ((d.trace n).rows.take len).reverse
  rows.flatMap fun r => (List.range 8).flatMap fun p => leInt 4 (if bit r.bad p then noValue else r.vals.getD p 0)

/-- Words of `ch.trace.data` in uncorrectable error. -/
def traceBad (d : Dev) (n : Nat) : List Nat :=
  let k := traceCh n
  let rows := ((d.trace n).rows.take (d.nat O.chTracePreValid k + 4096 - d.nat O.chTracePre k)).reverse
  ((List.range rows.length).zip rows).flatMap fun e => (List.range 8).filterMap fun p => if bit e.2.bad p then some (8 * e.1 + p) else none

def traceArm (d : Dev) (n : Nat) : Eff :=
  let k := traceCh n
  let st := d.nat O.chTraceState k
  if st = 0 ∨ st = 4 then
    let d := d.setTrace n {}
    let d := forUpto 8 (fun s x => x.onChan (k + s) fun c => { c with traceFlags := 0 }) d
    .ok ((d.setN O.chTracePreValid 0 k).setN O.chTraceState (if d.nat O.chTracePre k = 0 then 2 else 1) k)
  else refuse aState
def traceForce (d : Dev) (n : Nat) : Eff :=
  let st := d.nat O.chTraceState (traceCh n)
  .ok (if st = 1 ∨ st = 2 then d.setTrace n { d.trace n with forced := true } else d)
def traceStop (d : Dev) (n : Nat) : Eff :=
  let st := d.nat O.chTraceState (traceCh n)
  .ok (if st = 0 ∨ st = 4 then d else (d.setTrace n {}).setN O.chTraceState 0 (traceCh n))
/-- An event at the lane's trace trigger input. -/
def traceEvent (d : Dev) (n : Nat) : Dev :=
  let st := d.nat O.chTraceState (traceCh n)
  if st = 1 ∨ st = 2 then d.setTrace n { d.trace n with held := true } else d

/-! Enable and disable (Table 3.5, R115, R116, R405). -/

def enableChannel (d : Dev) (n : Nat) : Eff :=
  let l := d.lane (n / 8)
  let mode := chMode d n
  if d.nat O.laneState (n / 8) ≠ lsRun ∨ d.nat O.chForceLoopState n ≠ 0 ∨ ¬ slotPresent l.desc (n % 8) ∨ bit l.safed (n % 8) then
    refuse aState
  else match startRanges d n with
    | none => refuse aState
    | some (i, v) =>
      let cs := match l.desc with | some x => x.connect | none => 0
      let ta := d.frame + 5 + latencyOf l.desc
      let br := d.nat O.chRepRange n
      let d := if mode < 2 ∧ br ≠ 0xFF ∧ br / 128 ≠ mode then repClear d n else d
      let d := d.onChan n fun c =>
        armReset { c with iAct := i, vAct := v, narm := false, ndir := false, filtReset := true, predAt := none, dwell := 0,
                          iTransEnd := ta, vTransEnd := ta, latch := 0, absV := 0, absI := 0, policyPend := false,
                          policyWait := false, reselect := false, rngHeld := [], ramp := false, drainFirst := false, reattach := none,
                          trigPend := false, readyAt := d.frame + 2 + cs, region := none, dwellIter := 0, lastTarget := 0,
                          cascHeld := none, bootEnable := false }
      let o := l.outs[n % 8]?.getD {}
      let o := { o with dac := 0, mode := mode, scon := true, ocon := false, irng := i, vrng := v, narm := false, ndir := false }
      let d := d.onLane (n / 8) fun l => { l with outs := l.outs.setIfInBounds (n % 8) o }
      let d := (d.setN O.chForceLoopState (if mode = 2 then 5 else 1) n).setN O.chEnable 1 n
      let d := ((d.setI O.chEnabledAt d.now n).setN O.chForceIter 0 n).setN O.chLimitCompState 0 n
      .ok (rngPublish (limitSat (d.setN O.chRngOverride 0 n) n) n)

/-- Enable := 0 (Table 3.5). -/
def disableChannel (d : Dev) (n : Nat) : Dev :=
  let st := d.nat O.chForceLoopState n
  if st = 2 then (d.setN O.chForceLoopState 3 n).onChan n fun c => { c with drainFirst := true }
  else if st = 1 ∨ st = 5 then
    let l := d.lane (n / 8)
    let o := l.outs[n % 8]?.getD {}
    (d.setLane (n / 8) { l with outs := l.outs.setIfInBounds (n % 8) { disconnected o with dac := 0 } }).toDisabled n
  else d

/-- Stored enables at the lane's first entry into RUN (R406). -/
def autostart (d : Dev) (n : Nat) : Dev :=
  forUpto 8 (fun s x =>
    let k := 8 * n + s
    if (x.chan k).bootEnable then
      match enableChannel x k with
      | .ok y => y.onChan k fun c => { c with bootEnable := false }
      | .error _ => (x.onChan k fun c => { c with bootEnable := false }).flag O.devFlags 8
    else x) d

/-- After a link operation that ended DESCRIBE for a slice found in IDLE or TRAIN: the stored enables, once. -/
def autostartAfter (n : Nat) (before after : Dev) : Dev :=
  let l := before.lane n
  let came := decide (before.nat O.laneState n = lsDescribe) && !l.autostarted && !l.attach
    && decide (after.nat O.laneState n = lsRun) && decide ((after.lane n).descThen = .idle)
  if !came then after
  else
    let x := after.onLane n fun l => { l with autostarted := true }
    if autostartDue before n then autostart x n else x

/-! The frame of one lane. -/

/-- At the end of a block its iteration is due two frames later, with the divisor of the block (R34, R98).
(DEDUCED, log 52) -/
def blockStep (d : Dev) (n F : Nat) : Dev :=
  let l := d.lane n
  match l.m0 with
  | none => d
  | some _ =>
    if d.nat O.laneState n ≠ lsRun then d.setLane n { l with iters := [] }
    else if l.blockAt + l.divNow = F then
      d.setLane n { l with iters := l.iters ++ [(F + 2, l.divNow)], blockAt := F, divNow := d.nat O.laneDiv n }
    else d

/-- Lane `n` in controller frame `F`; `seqv` gives the sequencers' values for this frame's iterations (R38, R96).
(DEDUCED, log 52) -/
def laneFrame (snap : CtbSnap) (seqv : Nat → Dev → Option Int) (outers : List (Nat × Nat)) (F n : Nat) (d : Dev) : Dev :=
  if d.nat O.laneState n = lsOff then d
  else
    let (x, u) := linkFrame d n F
    let d := autostartAfter n d (sendDown x n F)
    let d := blockStep d n F
    let d := forUpto 8 (fun s x =>
      let k := 8 * n + s
      let x := slotWindow x k F u snap (seqv k x) ((outers.find? (·.1 == k)).map (·.2))
      mauFrame x k F) d
    let d := traceFrame d n snap.phi
    d.onLane n fun l => { l with iters := l.iters.filter (fun e => decide (F < e.1)) }

end Sys2Proof.Machine
end

