-- ==== Sys2Proof/Machine/Psc.lean ====
section
/-! DEFINITION. Points and scans (chapter 8): requests, dispatch, execution, judgement and scan runs; what a point asks of the
relay bus is queued here and carried out in Relay.lean. -/
namespace Sys2Proof.Machine

/-! The record (Table 8.1). -/

def parsePath (w : Nat) : PathEntry :=
  { inv := bit w 62, relay := bits w 61 48, row := bits w 47 40, make := bits w 39 24, brk := bits w 23 8 }

/-- The configuration in force, as a request copies it (R236). -/
def ptCfgOf (d : Dev) (p : Nat) : PtCfg :=
  { mode := d.nat O.ptMode p, bind := d.nat O.ptBind p, chanB := d.nat O.ptChanB p, tin := d.nat O.ptTin p, seg := d.nat O.ptSeg p,
    calTag := d.nat O.ptCalTag p, level := d.int O.ptLevel p,
    path := (((List.range 4).map (fun k => d.nat O.ptPath p k)).takeWhile (fun w => bit w 63)).map parsePath,
    pathSettle := d.nat O.ptPathSettle p, settle := d.nat O.ptSettle p, vPos := d.int O.ptVPos p, vNeg := d.int O.ptVNeg p,
    iPos := d.int O.ptIPos p, iNeg := d.int O.ptINeg p, rng := d.nat O.ptRng p, apMode := d.nat O.ptApMode p,
    apQty := d.nat O.ptApQty p, apStart := d.nat O.ptApStart p, dest := d.nat O.ptDest p, apLen := d.nat O.ptApLen p,
    apPhase := d.nat O.ptApPhase p, apCount := max 1 (d.nat O.ptApCount p), polySrc := d.nat O.ptPolySrc p,
    window := d.nat O.ptWindow p, listen := d.nat O.ptListen p,
    c0 := d.q O.ptPolyC0 p 0, c1 := d.q O.ptPolyC0 p 1, c2 := d.q O.ptPolyC0 p 2, c3 := d.q O.ptPolyC0 p 3,
    xs := d.nat O.ptPolyXs p, almMaj := d.nat O.ptAlarmMaj p, almHi := d.int O.ptAlarmHi p, almLo := d.int O.ptAlarmLo p,
    almHyst := d.int O.ptAlarmHyst p }

/-- Whether channel B is used (Table 8.2). -/
def PtCfg.usesB (c : PtCfg) : Bool := c.mode == 5 || (decide (1 ≤ c.mode ∧ c.mode ≤ 3) && c.polySrc == 2)
/-- A's sequencer is stopped, armed and started by the execution (R242). -/
def PtCfg.useSeq (c : PtCfg) : Bool := bit c.seg 15
/-- A's target is its sequencer's value (Table 8.2). -/
def PtCfg.seqTarget (c : PtCfg) : Bool := c.useSeq && decide (c.mode ≠ 3 ∧ c.mode ≠ 5)
def PtCfg.pooled (c : PtCfg) : Bool := bit c.bind 7

def allDistinct : List Nat → Bool
  | [] => true
  | x :: t => !t.contains x && allDistinct t

/-- R237. -/
def PtCfg.valid (c : PtCfg) : Bool :=
  decide (1 ≤ c.mode ∧ c.mode ≤ 5) && decide (c.bind % 128 < (if c.pooled then 16 else 96))
  && (!c.usesB || (decide (c.chanB < 96) && (c.pooled || c.chanB != c.bind)))
  && (decide (c.mode ≠ 4) || (bit c.seg 15 && c.polySrc == 3)) && (decide (c.polySrc ≠ 3) || c.mode == 4)
  && (decide (c.mode ≠ 4) || decide (1 ≤ c.listen)) && allDistinct (c.path.map (·.relay))

def Dev.run? (d : Dev) (p : Nat) : Option PtRun := tabFind d.psc.runs p
def Dev.setRun (d : Dev) (p : Nat) (r : PtRun) : Dev := { d with psc := { d.psc with runs := tabPut d.psc.runs p r } }
def Dev.dropRun (d : Dev) (p : Nat) : Dev := { d with psc := { d.psc with runs := tabDel d.psc.runs p } }
def Dev.onRun (d : Dev) (p : Nat) (f : PtRun → PtRun) : Dev := match d.run? p with | some r => d.setRun p (f r) | none => d
def ptSet (d : Dev) (p st : Nat) : Dev := d.setN O.ptState st p
/-- `psc.pending` follows the requests in WAIT. -/
def pscRefresh (d : Dev) : Dev := d.setN O.pscPending (d.psc.runs.countP (fun e => d.nat O.ptState e.1 == 1))

/-- The execution ends with a status (Table 8.6). -/
def ptEnd (d : Dev) (p st : Nat) : Dev :=
  let d := (ptSet (d.dropRun p) p 0).setN O.ptStatus st p
  let d := if st = 2 ∨ st = 3 ∨ st = 13 then d.bump O.ptSkips p else d
  pscRefresh d

/-- A request by a scan or by START: 256 stands for START (R236, R237, R253); a record that cannot be read (R45) is not valid.
(DEDUCED, log 74; DESIGN CHOICE, log 112) -/
def ptRequest (d : Dev) (p requester pos : Nat) : Dev :=
  let mine := fun (l : List Nat) => l.filter fun k => k / 256 == 0x4000 + p
  if d.nat O.ptState p ≠ 0 then (d.bump O.ptSkips p).setN O.ptStatus 13 p
  else if mine d.bank.oneBad ≠ [] then ptEnd (d.raise 50 0 1 2 true) p 12
  else
    let d := if mine d.bank.oneFix = [] then d else countFixed d 13 (mine d.bank.oneFix).length
    let c := ptCfgOf d p
    if !c.valid then ptEnd d p 12
    else pscRefresh (ptSet (d.setRun p { cfg := c, reqFrame := d.frame, reqTime := d.up, requester := requester, pos := pos }) p 1)

/-! Resources (R252): channels, relays, rows and timing inputs as numbers. -/

def resCh (n : Nat) : Nat := n
def resRelay (r : Nat) : Nat := 1000 + r
def resRow (r : Nat) : Nat := 20000 + r
def resTin (t : Nat) : Nat := 21000 + t

/-- Resources other than channel A. -/
def PtCfg.needs (c : PtCfg) : List Nat :=
  (if c.usesB then [resCh c.chanB] else []) ++ c.path.flatMap (fun e => resRelay e.relay :: (if e.row = 0xFF then [] else [resRow e.row]))
  ++ (if c.mode = 4 then [resTin c.tin] else [])

def driverOf (relay : Nat) : Nat := relay / 16
def rbBit (t : Tab Nat) (relay : Nat) : Bool := bit (tabGet 0 t (relay / 16)) (relay % 16)

/-- Everything held by executions from grant to the end of RELEASE. -/
def heldResources (d : Dev) : List Nat :=
  d.psc.runs.flatMap fun e =>
    if d.nat O.ptState e.1 < 2 then []
    else resCh e.2.chA :: (if e.2.chB = 0xFF then [] else [resCh e.2.chB]) ++ e.2.cfg.path.flatMap (fun x =>
      resRelay x.relay :: (if x.row = 0xFF then [] else [resRow x.row])) ++ (if e.2.cfg.mode = 4 then [resTin e.2.cfg.tin] else [])

/-- A channel that no wait can make usable: ABSENT, LOST or not in a running lane, or with another calibration tag (R238). -/
def chUnusable (d : Dev) (n tag : Nat) : Bool :=
  decide (d.nat O.laneState (n / 8) ≠ lsRun) || !slotPresent (descOf d n) (n % 8) || (tag != 0 && d.nat O.chCalTag n != tag)
/-- W of channel `n` is held for a binding other than `bind` (Table 6.6). (DEDUCED, log 111) -/
def wForeign (d : Dev) (n bind : Nat) : Bool := match (d.chan n).wHeld with | some w => w.bind != bind | none => false
/-- Busy for point `p`: not Disabled, bound, or with results of another binding held (R200, R238). (DEDUCED, log 74) -/
def chBusy (d : Dev) (p n : Nat) : Bool :=
  d.nat O.chForceLoopState n != 0 || chBound d n || wForeign d n p || apState (d.chan n) != 0

def pscSuspended (d : Dev) : Bool := d.nat O.devState == 0 || d.nat O.devState == 1 || d.nat O.devState == 4

/-- An optional dependency of the execution is switched off (R30, Table 1.1): the sequencer or a step aperture without PD13,
a cycle-locked aperture without PD15, the timing inputs of mode 4 without PD16, the journal as a destination without PD27. -/
def ptLacks (d : Dev) (c : PtCfg) : Bool :=
  let off := fun k => !bit (d.nat O.pmuPdState) k
  ((c.useSeq || (c.apMode == 2 && c.mode != 4)) && off 13) || (c.apMode == 1 && c.mode != 4 && off 15)
  || (c.mode == 4 && off 16) || (bit c.dest 0 && off 27)

/-- A request that ends REFUSED whatever it waits for (R238, R262, R30). -/
def ptRefused (d : Dev) (c : PtCfg) : Bool :=
  (!c.pooled && chUnusable d c.bind c.calTag) || (c.usesB && chUnusable d c.chanB c.calTag)
  || c.path.any (fun e => decide (d.nat O.rbDrivers ≤ driverOf e.relay)) || ptLacks d c

/-- Channels a pool offers, lowest first (R238). -/
def poolChannels (d : Dev) (c : PtCfg) : List Nat :=
  let p := c.bind % 128
  (List.range 96).filter fun n =>
    (if n < 64 then bit (d.nat O.pscPoolLo p) n else bit (d.nat O.pscPoolHi p) (n - 64))
    && !chUnusable d n c.calTag && !(c.usesB && n == c.chanB)

/-! Path (R241): coil changes are queued for the relay bus. -/

def rbPush (d : Dev) (op : RbOp) : Dev :=
  { d with psc := { d.psc with rb := { d.psc.rb with queue := d.psc.rb.queue ++ [op] } } }

/-- Queue the coil change of entry `k`, made or broken. -/
def pathChange (d : Dev) (p k : Nat) (making : Bool) : Dev :=
  match d.run? p with
  | none => d
  | some r =>
    match r.cfg.path[k]? with
    | none => d
    | some e =>
      let d := d.setRun p { r with step := k, pwait := .latch, making := making, made := if making then k + 1 else r.made }
      rbPush d (.coil e.relay (making != e.inv) (some p))

def pathStart (d : Dev) (p : Nat) : Dev :=
  match d.run? p with
  | none => d
  | some r => if r.cfg.path = [] then d.setRun p { r with pathDone := true } else pathChange d p 0 true

/-- RELEASE breaks what was made, last entry first; none left is the end. -/
def pathBreak (d : Dev) (p : Nat) : Dev :=
  match d.run? p with
  | none => d
  | some r => if r.made = 0 then d.setRun p { r with pathDone := true, making := false } else pathChange d p (r.made - 1) false

/-- A make or break time has elapsed: the next coil change, and the read-back of this one (R241, R260).
(DEDUCED, log 76; DESIGN CHOICE, log 94) -/
def pathTime (d : Dev) (p : Nat) : Dev :=
  match d.run? p with
  | none => d
  | some r =>
    if r.pwait ≠ .time then d
    else
      match r.cfg.path[r.step]? with
      | none => d
      | some e =>
        let back := fun (x : Dev) => rbPush x (.read (driverOf e.relay) (.path p e.relay false) 0)
        if r.making then
          (if r.step + 1 < r.cfg.path.length then back (pathChange d p (r.step + 1) true)
           else back (d.setRun p { r with pwait := .readback }))
        else if 0 < r.step then back (pathChange d p (r.step - 1) false)
        else back (d.setRun p { r with pwait := .readback })

/-! Execution (Table 8.5). -/

/-- The overrides of a bound channel (R239). -/
def ptOver (d : Dev) (p : Nat) (c : PtCfg) (n : Nat) (isA : Bool) : Over :=
  let mode := if !isA then 2 else if c.mode = 1 ∨ c.mode = 4 then 0 else if c.mode = 2 then 1 else if c.mode = 3 then 2
    else d.nat O.chForceMode n
  { point := p, mode := mode, src := if isA then b2n c.seqTarget else 0, level := c.level,
    limV := if c.vPos = 0 ∧ c.vNeg = 0 then none else some (c.vPos, c.vNeg),
    limI := if c.iPos = 0 ∧ c.iNeg = 0 then none else some (c.iPos, c.iNeg),
    rng := (List.range 6).map (fun k => bits c.rng (8 * k + 7) (8 * k)) }

def ptBindCh (d : Dev) (p : Nat) (c : PtCfg) (n : Nat) (isA : Bool) : Dev :=
  (d.onChan n fun x => { x with override := some (ptOver d p c n isA) }).setN O.chApBound p n
def ptUnbindCh (d : Dev) (n : Nat) : Dev :=
  if n = 0xFF then d else (d.onChan n fun x => { x with override := none, reselect := false }).setN O.chApBound 0xFFFF n

/-- Grant (R240): every resource is taken and the path begun. -/
def ptGrant (d : Dev) (p : Nat) (r : PtRun) (a : Nat) : Dev :=
  let b := if r.cfg.usesB then r.cfg.chanB else 0xFF
  let d := ptBindCh d p r.cfg a true
  let d := if b = 0xFF then d else ptBindCh d p r.cfg b false
  let d := ((d.bump O.ptRuns p).setI O.ptLastStart d.now p).setN O.ptUsed (b * 256 + a) p
  let d := d.bump O.pscGranted
  let d := ptSet (d.setRun p { r with chA := a, chB := b }) p 2
  pathStart d p

/-- The execution leaves for RELEASE: apertures stopped, sequencer stopped, pair disengaged, channels disabled. -/
def ptLeave (d : Dev) (p st : Nat) : Dev :=
  match d.run? p with
  | none => d
  | some r =>
    let stop := fun (x : Dev) (n : Nat) =>
      if (x.chan n).ap.running then apRefresh (x.onChan n fun c => { c with ap := { c.ap with stopAt := some x.clk } }) n else x
    let d := r.chans.foldl stop d
    let d := if r.cfg.useSeq && decide (d.nat O.seqState r.chA ≠ 0) then seqHalt d r.chA else d
    let d := if r.cfg.mode = 5 ∧ d.on O.chCascEngage r.chA then disengage d r.chA false else d
    let d := r.chans.foldl disableChannel d
    pscRefresh (ptSet (d.setRun p { r with status := st, pathDone := false, pwait := .idle }) p 7)

/-- STOP of a point (Table 8.5). -/
def ptStop (d : Dev) (p : Nat) : Dev :=
  let st := d.nat O.ptState p
  if st = 0 ∨ st = 7 then d else if st = 1 then ptEnd d p 8 else ptLeave d p 8

/-- Enable of the bound channels at the end of CONNECT (R242). (DEDUCED, log 74) -/
def ptEnable (d : Dev) (p : Nat) (r : PtRun) : Dev :=
  let d := if r.cfg.useSeq then seqArm (if d.nat O.seqState r.chA = 0 then d else seqHalt d r.chA) r.chA else d
  let go := fun (x : Option Dev) (n : Nat) => match x with
    | none => none
    | some y => match enableChannel y n with | .ok z => some z | .error _ => none
  match r.chans.foldl go (some d) with
  | some x => ptSet x p 3
  | none => ptLeave d p 9

/-- Engagement of a valid pair (R123). (DEDUCED, log 74) -/
def engage (d : Dev) (i : Nat) : Dev :=
  let o := d.nat O.chCascPartner i
  let d := d.onChan i fun c => { c with engagedAt := some d.frame, ticked := false, innerN := 0, staleRun := 0, cascHeld := none,
                                        cascNew := [], trigPend := false, cascTarget := c.lastTarget }
  let d := d.onChan o fun c => { c with outerFirst := true, outerFrames := 0 }
  (((d.setN O.chCascEngage 1 i).setN O.chCascTicks 0 i).setN O.chCascStale 0 i)

/-- FORCE (Table 8.5); the start of the sequencer in the frame in which A enters Forcing is a start condition of Table 7.5.
(DEDUCED, log 74) -/
def ptForce (d : Dev) (p : Nat) (r : PtRun) : Dev :=
  let ls := d.nat O.chForceLoopState r.chA
  let (d, r) := if r.cfg.useSeq && !r.started && ls == 2 then
      (seqPointStart d r.chA (r.cfg.seg % 16384), { r with started := true }) else (d, r)
  let aOk := if r.cfg.mode = 3 then ls == 5 else ls == 2
  let bOk := r.chB == 0xFF || d.nat O.chForceLoopState r.chB == 5
  let d := d.setRun p r
  let d := if r.cfg.mode = 5 ∧ aOk ∧ bOk ∧ ¬ d.on O.chCascEngage r.chA ∧ cascadeValid d r.chA ∧ d.nat O.chCascPartner r.chA = r.chB
    then engage d r.chA else d
  let casc := decide (r.cfg.mode ≠ 5) || d.on O.chCascEngage r.chA
  if !(aOk && bOk && casc) then d
  else if r.cfg.mode = 4 then ptSet d p 6
  else ptSet (d.setRun p { r with settleAt := d.frame }) p 4

/-- The aperture parameters of a point (R206, R239). -/
def ptApCfg (d : Dev) (p : Nat) (c : PtCfg) (n : Nat) : ApCfg :=
  { mode := c.apMode, len := c.apLen, lenCyc := c.apLen, phase := c.apPhase, settle := d.nat O.chApSettle n, count := c.apCount,
    qty := c.apQty, dest := c.dest, bind := p }

/-- The aperture sequences of A and B start with one t0 (R242). -/
def ptApStart (d : Dev) (p : Nat) (t0 : Int) : Dev :=
  match d.run? p with
  | none => d
  | some r =>
    let d := r.chans.foldl (fun x n => apRefresh (x.onChan n (apStart (ptApCfg x p r.cfg n) t0)) n) d
    d.setRun p { r with awaitEdge := false }

/-- SETTLE has elapsed (Table 8.5). (DESIGN CHOICE, log 94) -/
def ptSettled (d : Dev) (p : Nat) : Dev :=
  match d.run? p with
  | none => d
  | some r =>
    if d.nat O.ptState p ≠ 4 then d
    else
      let d := ptSet d p 5
      if r.cfg.apStart = 1 then d.setRun p { r with awaitEdge := true } else ptApStart d p d.clk

/-- Bound channel LOST, or safed. (DEDUCED, log 74) -/
def chLost (d : Dev) (n : Nat) : Bool :=
  let s := d.nat O.laneState (n / 8)
  s == lsLost || s == lsFault || s == lsOff
def chSafed (d : Dev) (n : Nat) : Bool := bit (d.lane (n / 8)).safed (n % 8)

/-- A safed slot's ramp is complete, or the slot is not safed (Table 8.10). -/
def rampComplete (d : Dev) (n : Nat) : Bool :=
  !chSafed d n || decide (d.nat O.laneState (n / 8) ≠ lsRun) ||
  (match (d.lane (n / 8)).status with | some s => bit (s.slots.getD (n % 8) ⟨0, 0, 0⟩).flags 2 | none => false)

/-- RELEASE (Table 8.5, R241). -/
def ptRelease (d : Dev) (p : Nat) (r : PtRun) : Dev :=
  if r.pathDone then
    let d := ptUnbindCh (ptUnbindCh d r.chA) r.chB
    ptEnd d p r.status
  else if r.pwait ≠ .idle then d
  else if r.chans.all (fun n => d.nat O.chForceLoopState n == 0 && rampComplete d n) then pathBreak d p else d

/-- What one dispatch pass does for an execution that is under way. -/
def ptProgress (d : Dev) (p : Nat) : Dev :=
  match d.run? p with
  | none => d
  | some r =>
    let st := d.nat O.ptState p
    if st = 1 then d
    else if st = 7 then ptRelease d p r
    else if r.lost then ptLeave d p 4
    else if r.chans.any (chLost d) then ptLeave d p 4
    else if r.chans.any (chSafed d) then ptLeave d p 10
    else if st = 2 then
      (if r.settled && r.pathDone && r.chans.all (fun n => d.nat O.laneState (n / 8) == lsRun) then ptEnable d p r else d)
    else if st = 3 then ptForce d p r
    else d

/-! Dispatch (R253, R254). -/

/-- Order of two waiting requests. -/
def reqBefore (a b : Nat × PtRun) : Bool :=
  let k := fun (x : Nat × PtRun) => [x.2.reqFrame, 1 - b2n x.2.favoured, x.2.requester, x.2.pos, x.1]
  decide (k a < k b)
def insertReq (x : Nat × PtRun) : List (Nat × PtRun) → List (Nat × PtRun)
  | [] => [x]
  | y :: t => if reqBefore x y then x :: y :: t else y :: insertReq x t
def sortReqs (l : List (Nat × PtRun)) : List (Nat × PtRun) := l.foldr insertReq []

/-- State of one pass: the device as the pass found it and now, resources held at its start, resources that requests of this
pass have taken or barred with the frame of the request that did. -/
structure PassSt where
  start : Dev
  dev : Dev
  held : List Nat
  claimed : List (Nat × Nat) := []

/-- A resource of the pass is held by an execution, or taken or barred by an earlier request. -/
def PassSt.busy (s : PassSt) (x : Nat) : Bool := s.held.contains x || s.claimed.any (fun e => e.1 == x)
/-- A resource that was free for point `p` at the start of the pass and that a request of frame `f` has taken or barred since
(R254). -/
def PassSt.lostTo (s : PassSt) (p f x : Nat) : Bool :=
  s.claimed.contains (x, f) && !s.held.contains x && (decide (96 ≤ x) || !chBusy s.start p x)
/-- The request of frame `f` takes or bars its resources. -/
def PassSt.claim (s : PassSt) (f : Nat) (xs : List Nat) (d : Dev) : PassSt :=
  { s with dev := d, claimed := xs.map (fun x => (x, f)) ++ s.claimed }

/-- A tie loss, and the favour after four in a row (R254). -/
def tieLoss (d : Dev) (p : Nat) (r : PtRun) : Dev :=
  ((d.setRun p { r with ties := r.ties + 1, favoured := r.favoured || decide (4 ≤ r.ties + 1) }).bump O.ptConflicts p).bump O.pscTies

/-- One request of a pass (R253): it is granted, or it bars what it needs, of a pool the channel it would have taken.
(DEDUCED, log 74) -/
def passOne (s : PassSt) (e : Nat × PtRun) : PassSt :=
  let d := s.dev
  let p := e.1
  let r := e.2
  let needs := r.cfg.needs
  let pool := if r.cfg.pooled then poolChannels d r.cfg else [r.cfg.bind]
  let cand := pool.find? fun n => !s.busy (resCh n) && !chBusy d p n
  let orphan := r.cfg.path.any (fun x => rbBit d.psc.rb.orphans x.relay)
  let free := needs.all (fun x => !s.busy x) && !orphan && (!r.cfg.usesB || !chBusy d p r.cfg.chanB)
  match cand, free with
  | some a, true => s.claim r.reqFrame (resCh a :: needs) (ptGrant d p r a)
  | _, _ =>
    let chs := match cand with | some a => [resCh a] | none => if r.cfg.pooled then [] else [resCh r.cfg.bind]
    let tie := needs.any (s.lostTo p r.reqFrame) || (cand.isNone && pool.any (fun n => s.lostTo p r.reqFrame (resCh n)))
    s.claim r.reqFrame (chs ++ needs) (if tie then tieLoss d p r else d)

/-- Executions found active after a controller reset end RESET (Table 8.10). -/
def pscReset (d : Dev) : Dev :=
  let d := d.psc.runs.foldl (fun x e => ptEnd (ptUnbindCh (ptUnbindCh x e.2.chA) e.2.chB) e.1 11) d
  { d with psc := { d.psc with resetPend := false } }

/-! Judgement (R244-R246). -/

/-- Table 8.4: the engineering value of x. -/
def convert (c : PtCfg) (x : Int) : Int :=
  narrow64 (qMul c.c0 1 + qMul c.c1 x + qMul c.c2 (x * x) + qMul c.c3 (x * x * x))

def recMeanV (r : Bytes) : Int := leFieldI r 16 8
def recMeanI (r : Bytes) : Int := leFieldI r 24 8
def recPrimI (r : Bytes) : Bool := bit (leField r 3 1) 5
def recMean (r : Bytes) : Int := if recPrimI r then recMeanI r else recMeanV r
def recCommitted (r : Bytes) : Bool := leField r 3 1 % 16 == 1
def recSeq (r : Bytes) : Nat := leField r 4 4
def recAps (r : Bytes) : Nat := leField r 54 2

/-- The judged value of a result, or of a pair: x and v. -/
def judgedValue (c : PtCfg) (a : Bytes) (b : Option Bytes) : Option (Int × Int) :=
  let m := recMean a
  if c.polySrc = 2 then
    match b with
    | none => none
    | some b =>
      let va := recMeanV a
      let vb := recMeanV b
      if va = 0 ∨ va = i64Min ∨ vb = i64Min then none
      else
        let x := narrow32 (roundDiv (vb * (2 : Int) ^ c.xs) va)
        some (x, convert c x)
  else if m = i64Min then none
  else if c.polySrc = 1 then
    let x := narrow32 (roundShift m c.xs)
    some (x, convert c x)
  else some (0, m)

/-- R245. -/
def voteOf (hi lo hyst v : Int) (state : Nat) : Nat :=
  if hi < v then 2 else if v < lo then 3 else if lo + hyst ≤ v ∧ v ≤ hi - hyst then 1 else state + 1

/-- At least m of the last n votes name `k`. -/
def votesName (votes n m k : Nat) : Bool :=
  decide (m ≤ (List.range n).countP (fun j => bits votes (2 * j + 1) (2 * j) == k))

/-- The alarm state after a vote. -/
def alarmNext (votes maj old : Nat) : Nat :=
  let n := maj / 16
  let m := maj % 16
  if n = 0 then old
  else if votesName votes n m 2 then 1
  else if votesName votes n m 3 then 2
  else if votesName votes n m 1 then 0 else old

/-- The alarm state of a point becomes `new` (R246): the event, `psc.alarms`, the alarm record and the notification that `dest`
asks for. -/
def alarmChange (d : Dev) (p new chA seqA dest : Nat) (v : Int) : Dev :=
  let old := d.nat O.ptAlarmState p
  if new = old then d
  else
    let d := (d.setN O.ptAlarmState new p).event 68 d.clk
    let k := d.nat O.pscAlarms
    let d := d.setN O.pscAlarms (if old = 0 then k + 1 else if new = 0 then k - 1 else k)
    let d := if bit dest 0 then
        (d.stage (jrecord 2 p chA seqA d.now (leBytes 1 new ++ leBytes 1 old ++ [0, 0] ++ leInt 8 v)) false).2 else d
    if bit dest 1 then
      d.notify (fun s => s.kind == 1 && s.node == d.node) 2 d.node 0
        (leBytes 2 p ++ leBytes 1 new ++ leBytes 1 old ++ leInt 8 v ++ leBytes 4 seqA)
    else d

/-- A judged value v of execution `r`: it becomes `pt.eng`, and it casts a vote where `casts` holds and alarms are enabled
(R244-R246). (DEDUCED, log 75) -/
def castVote (d : Dev) (p : Nat) (r : PtRun) (seqA seqB : Nat) (casts : Bool) (x v : Int) : Dev :=
  let c := r.cfg
  let old := d.nat O.ptAlarmState p
  let vote := if casts && decide (16 ≤ c.almMaj) then voteOf c.almHi c.almLo c.almHyst v old else 0
  let votes := if vote = 0 then d.nat O.ptAlarmVotes p else (d.nat O.ptAlarmVotes p * 4 + vote) % 65536
  let new := if vote = 0 then old else alarmNext votes c.almMaj old
  let d := (d.setI O.ptEng v p).setN O.ptAlarmVotes votes p
  let d := if c.polySrc = 0 then d else
    (d.stage (jrecord 1 p r.chA seqA d.now (leBytes 4 seqB ++ leInt 4 x ++ leInt 8 v ++ leBytes 1 vote ++ leBytes 1 new)) false).2
  alarmChange d p new r.chA seqA c.dest v

/-- Judge results until A's run out, or in ratio conversion the pairs of A and B. (DEDUCED, log 75) -/
def judgePairs : Nat → Nat → Dev → Dev
  | 0, _, d => d
  | fuel + 1, p, d =>
    match d.run? p with
    | none => d
    | some r =>
      match r.resA, r.resB, r.cfg.polySrc == 2 with
      | a :: ta, _, false =>
        let d := d.setRun p { r with resA := ta }
        let d := match judgedValue r.cfg a none with
          | some (x, v) => castVote d p r (recSeq a) 0xFFFFFFFF (recCommitted a) x v
          | none => d
        judgePairs fuel p d
      | a :: ta, b :: tb, true =>
        let d := d.setRun p { r with resA := ta, resB := tb }
        let d := match judgedValue r.cfg a (some b) with
          | some (x, v) => castVote d p r (recSeq a) (recSeq b) (recCommitted a && recCommitted b) x v
          | none => d
        judgePairs fuel p d
      | _, _, _ => d

/-- A result record of an execution is judged; the last one ends MEASURE (R244, Table 8.5). An execution that ends LOST hands
its results on unjudged (R91). -/
def judgeRecord (d : Dev) (p chan : Nat) (rec_ : Bytes) : Dev :=
  match d.run? p with
  | none => d
  | some r =>
    if r.lost then d else
    let isB := chan == r.chB
    let r := if isB then { r with resB := if r.cfg.polySrc = 2 then r.resB ++ [rec_] else [], numB := r.numB + recAps rec_ }
      else { r with resA := r.resA ++ [rec_], numA := r.numA + recAps rec_ }
    let d := judgePairs 64 p (d.setRun p r)
    if d.nat O.ptState p = 5 ∧ r.cfg.apCount ≤ r.numA ∧ (r.chB = 0xFF ∨ r.cfg.apCount ≤ r.numB) then ptLeave d p 1 else d

/-- A completed period-average measurement on timing input `tin`, in ps, whose gate was armed at uptime `armed` (R243). -/
def judgePeriod (d : Dev) (tin armed : Nat) (period : Int) : Dev :=
  match d.psc.runs.find? (fun e => e.2.cfg.mode == 4 && e.2.cfg.tin == tin && d.nat O.ptState e.1 == 6) with
  | none => d
  | some (p, r) =>
    if r.lost ∨ !r.started ∨ d.nat O.seqState r.chA < 2 ∨ armed < (d.seqr r.chA).startUp then d
    else
      let d := if period = 0 then d
        else
          let x := narrow32 (roundDiv ((10 : Int) ^ 15) period)
          castVote d p r 0xFFFFFFFF 0xFFFFFFFF true x (convert r.cfg x)
      ptLeave d p 1

/-- CLEAR_ALARM, and a write of an alarm or conversion field (Table 8.1): a change of alarm state like any other (R246),
with no result, the channel last used and the value last judged. (DESIGN CHOICE, log 107) -/
def clearAlarm (d : Dev) (p : Nat) : Dev :=
  (alarmChange d p 0 (d.nat O.ptUsed p % 256) 0xFFFFFFFF (d.nat O.ptDest p) (d.int O.ptEng p)).setN O.ptAlarmVotes 0 p

/-! Scans (R247-R251). -/

def Dev.scan (d : Dev) (n : Nat) : ScanRun := tabGet {} d.psc.scans n
def Dev.setScan (d : Dev) (n : Nat) (x : ScanRun) : Dev := { d with psc := { d.psc with scans := tabSet {} d.psc.scans n x } }

/-- The run ends: DONE when `scan.runs` is reached, else ARMED. -/
def scanRunEnd (d : Dev) (n : Nat) : Dev :=
  let runs := d.nat O.scanRuns n
  let d := d.setScan n { d.scan n with group := [], delaying := false }
  d.setN O.scanState (if runs ≠ 0 ∧ runs ≤ d.nat O.scanRunCount n then 3 else 1) n

/-- List memory holds no readable word at `w`: an uncorrectable error, or bank 0 is off. -/
def listUnread (d : Dev) (w : Nat) : Bool := d.bank.listBad.contains w || !bit (d.nat O.pmuPdState) 28
/-- Entry `k` of the list: none past the end or where it cannot be read. -/
def scanEntry (d : Dev) (n k : Nat) : Option Nat :=
  if d.nat O.scanLen n ≤ k ∨ listUnread d (d.nat O.scanList n + k) then none
  else some (listWord d (d.nat O.scanList n + k))

/-- Request the group that begins at `k`; the position after it. PAR is ignored where the entry after it is the last of the
list (R248), and before a delay or an end of list. (DEDUCED, log 79) -/
def scanGroup : Nat → Nat → Nat → Dev → Dev × Nat
  | 0, _, k, d => (d, k)
  | fuel + 1, n, k, d =>
    match scanEntry d n k with
    | none => (d, k)
    | some w =>
      if w / 2 ^ 30 ≠ 0 then (d, k)
      else
        let p := w % 4096
        let busy := d.nat O.ptState p != 0
        let d := ptRequest d p n k
        let s := d.scan n
        let d := if busy then d else d.setScan n { s with group := s.group ++ [p] }
        if bit w 29 && decide (k + 2 < d.nat O.scanLen n) then scanGroup fuel n (k + 1) (listFixed d [d.nat O.scanList n + k + 1])
        else (d, k + 1)

/-- The scan reaches the entry at its position. -/
def scanReach (d : Dev) (n : Nat) : Dev :=
  let s := d.scan n
  match scanEntry d n s.pos with
  | none =>
    let bad := listUnread d (d.nat O.scanList n + s.pos) && decide (s.pos < d.nat O.scanLen n)
    let d := if bad then (d.raise 49 0 1 1 true).flag O.scanFlags 4 n else d
    scanRunEnd d n
  | some w =>
    let d := (listFixed d [d.nat O.scanList n + s.pos]).setN O.scanEntry s.pos n
    if w / 2 ^ 30 = 0 then
      let (d, k) := scanGroup 4096 n s.pos (d.setScan n { s with group := [] })
      d.setScan n { d.scan n with pos := k }
    else if w / 2 ^ 30 = 1 then d.setScan n { s with delaying := true, pos := s.pos + 1, group := [] }
    else scanRunEnd (if w / 2 ^ 30 = 3 then d.flag O.scanFlags 4 n else d) n

/-- A run begins for the start at `t`. -/
def scanBegin (d : Dev) (n : Nat) (t : Int) (late : Bool) : Dev :=
  let d := d.setScan n { d.scan n with pos := 0, group := [], delaying := false, pending := none }
  let d := ((d.bump O.scanRunCount n).setI O.scanLastStart (d.stamp t) n).setN O.scanState 2 n
  let d := if late then (d.bump O.scanLateCount n).flag O.scanFlags 1 n else d
  scanReach d n

/-- A late start (R250). (DEDUCED, log 79) -/
def scanLateStart (d : Dev) (n : Nat) (t : Int) : Dev :=
  let s := d.scan n
  if d.nat O.scanLate n = 0 ∧ s.pending = none then d.setScan n { s with pending := some t }
  else (d.bump O.scanSkipped n).flag O.scanFlags 2 n

/-- A pending start begins as soon as it can. (DEDUCED, log 79) -/
def scanPending (d : Dev) (n : Nat) : Dev :=
  match (d.scan n).pending with
  | some t => if d.nat O.scanState n = 1 ∧ ¬ pscSuspended d then scanBegin d n t true else d
  | none => d

/-- A start occurs at instant `t`; `held` marks one the cycle time base held, or a step passed (R249, R250). A pending start
that can begin by now begins before it. (DEDUCED, log 79) -/
def scanStart (d : Dev) (n : Nat) (t : Int) (held : Bool) : Dev :=
  let d := scanPending d n
  let st := d.nat O.scanState n
  if st = 2 then scanLateStart d n t
  else if st ≠ 1 then d
  else if held || pscSuspended d || decide (t + d.int O.scanLateTol n < d.clk) then scanPending (scanLateStart d n t) n
  else scanBegin d n t false

/-- First instant of the time-of-day grid at or after `t` (Table 8.8). -/
def gridFrom (d : Dev) (n : Nat) (t : Int) : Option Int :=
  let t0 := d.int O.scanTStart n
  let per := d.int O.scanPeriod n
  if t ≤ t0 then some t0
  else if per ≤ 0 then none
  else some (t0 + ((t - t0 + per - 1) / per) * per)

/-- `scan.next`: the next start instant, or unknown. -/
def scanSetNext (d : Dev) (n : Nat) (g : Option Int) : Dev :=
  d.setI O.scanNext (match g with | some t => d.stamp t | none => i64Min) n
def scanSetGrid (d : Dev) (n : Nat) (g : Option Int) : Dev :=
  scanSetNext (d.setScan n { d.scan n with gridNext := g }) n g

def scanArm (d : Dev) (n : Nat) : Eff :=
  let st := d.nat O.scanState n
  let src := d.nat O.scanSrc n
  if (st ≠ 0 ∧ st ≠ 3) ∨ (src = 2 ∧ ¬ bit (d.nat O.pmuPdState) 15) then refuse aState
  else
    let d := (((d.setScan n {}).setN O.scanRunCount 0 n).setN O.scanLateCount 0 n).setN O.scanSkipped 0 n
    let d := scanSetGrid d n (if src = 1 then gridFrom d n d.clk else none)
    .ok (d.setN O.scanState 1 n)

/-- Points of the scan that are not IDLE end ABORTED. -/
def scanStop (d : Dev) (n : Nat) : Dev :=
  let st := d.nat O.scanState n
  if st ≠ 1 ∧ st ≠ 2 then d
  else
    let mine := (d.psc.runs.filter (fun e => e.2.requester == n)).map (·.1)
    let d := mine.foldl ptStop d
    scanSetNext ((d.setScan n {}).setN O.scanState 0 n) n none

/-- The grid instant the scan waits for has come (R249). (DESIGN CHOICE, log 94) -/
def scanTimeStart (d : Dev) (n : Nat) : Dev :=
  let s := d.scan n
  match s.gridNext with
  | none => d
  | some t =>
    if d.nat O.scanSrc n ≠ 1 ∨ (d.nat O.scanState n ≠ 1 ∧ d.nat O.scanState n ≠ 2) then d
    else
      let per := d.int O.scanPeriod n
      let d := scanSetGrid d n (if per ≤ 0 then none else some (t + per))
      scanStart d n t false

/-- A step of time of day (R250): the instants passed are late starts, and the grid resumes at the new time.
(DEDUCED, log 79) -/
def scanStepped (d : Dev) : Dev :=
  forUpto 256 (fun n x =>
    let s := x.scan n
    match s.gridNext with
    | none => x
    | some t =>
      if x.nat O.scanSrc n ≠ 1 ∨ (x.nat O.scanState n ≠ 1 ∧ x.nat O.scanState n ≠ 2) then x
      else
        let passed := if t < x.clk then
            (if x.int O.scanPeriod n ≤ 0 then 1 else ((x.clk - t - 1) / x.int O.scanPeriod n + 1).toNat) else 0
        let x := scanSetGrid x n (gridFrom x n x.clk)
        if passed = 0 then x
        else
          let x := scanStart x n t true
          if passed = 1 then x
          else if x.nat O.scanLate n = 0 ∧ (x.scan n).pending = none then
            let x := x.setScan n { x.scan n with pending := some (t + x.int O.scanPeriod n) }
            if passed = 2 then x else (x.bump O.scanSkipped n 0 (passed - 2)).flag O.scanFlags 2 n
          else (x.bump O.scanSkipped n 0 (passed - 1)).flag O.scanFlags 2 n) d

/-- Every point of the group is IDLE: the next entry (R248). -/
def scanNextEntry (d : Dev) (n : Nat) : Dev :=
  let s := d.scan n
  if d.nat O.scanState n = 2 ∧ ¬ s.delaying ∧ s.group.all (fun p => d.nat O.ptState p == 0) then scanReach d n else d
/-- (DESIGN CHOICE, log 94) -/
def scanDelayEnd (d : Dev) (n : Nat) : Dev :=
  let s := d.scan n
  if d.nat O.scanState n = 2 ∧ s.delaying then scanReach (d.setScan n { s with delaying := false }) n else d

/-- One dispatch pass (R253). -/
def dispatchPass (d : Dev) : Dev :=
  if !bit (d.nat O.pmuPdState) 14 then d
  else
    let d := if d.psc.resetPend then pscReset d else d
    let d := d.setB O.pscSuspended (pscSuspended d)
    let d := d.psc.runs.foldl (fun x e => ptProgress x e.1) d
    let d := forUpto 256 (fun n x => scanPending x n) d
    let d := d.psc.runs.foldl (fun x e => if x.nat O.ptState e.1 = 1 ∧ ptRefused x e.2.cfg then ptEnd x e.1 9 else x) d
    if pscSuspended d then pscRefresh d
    else
      let waiting := sortReqs (d.psc.runs.filter (fun e => d.nat O.ptState e.1 == 1))
      let s := waiting.foldl passOne { start := d, dev := d, held := heldResources d }
      pscRefresh s.dev

end Sys2Proof.Machine
end

