-- ==== Sys2Proof/Machine/Relay.lean ====
section
/-! DEFINITION. The relay bus (chapter 8, R256-R266): frames, replies, read-back, faults, audit, start and counts. -/
namespace Sys2Proof.Machine

/-! Frames (R256-R258). -/

def crc8Bit (c : Nat) : Nat := if 128 ≤ c then ((c * 2) % 256) ^^^ 7 else c * 2
def crc8Byte (c : Nat) (b : Byte) : Nat :=
  crc8Bit (crc8Bit (crc8Bit (crc8Bit (crc8Bit (crc8Bit (crc8Bit (crc8Bit (c ^^^ b.toNat))))))))
/-- R258. -/
def crc8 (bs : Bytes) : Nat := bs.foldl crc8Byte 0

/-- A 48-bit frame from its five upper bytes, with its CRC. -/
def rbFrame (hi : Nat) : Nat := hi * 256 + crc8 (beBytes 5 hi)
/-- Table 8.12. -/
def rbCommand (cmd addr data tag : Nat) : Nat :=
  rbFrame (10 * 2 ^ 36 + cmd * 2 ^ 32 + addr * 2 ^ 22 + data * 2 ^ 6 + tag)
/-- Table 8.13: a reply that answers READ `tag` of driver `a`, by SYNC, CRC, ADDR and TAG. -/
def rbReplyOk (f a tag : Nat) : Bool :=
  bits f 47 44 == 5 && crc8 (beBytes 5 (f / 256)) == f % 256 && bits f 39 30 == a && bits f 13 8 == tag

/-! State. -/

def Dev.rb (d : Dev) : Rb := d.psc.rb
def Dev.onRb (d : Dev) (f : Rb → Rb) : Dev := { d with psc := { d.psc with rb := f d.psc.rb } }
def rbPut (t : Tab Nat) (relay : Nat) (b : Bool) : Tab Nat :=
  tabSet 0 t (driverOf relay) (putBit (tabGet 0 t (driverOf relay)) (relay % 16) b)
/-- Table 8.15: 0 off, 1 running, 2 fault while a driver is silent. (DEDUCED, log 77) -/
def rbState (d : Dev) (running : Bool) : Dev := d.setN O.rbState (if !running then 0 else if d.rb.silent ≠ 0 then 2 else 1)
def rbRunning (d : Dev) : Bool := d.nat O.rbState != 0

/-- The coils of every driver as one DOMAIN value (Table 8.15). -/
def rbBytes (t : Tab Nat) : Bytes := (List.range 1024).flatMap fun k => leBytes 2 (tabGet 0 t k)
def rbCountBytes (t : Tab Nat) : Bytes := (List.range 16384).flatMap fun k => leBytes 4 (tabGet 0 t k)

/-- R264 and R265, at a latch that energises relay `r`. -/
def rbCountUp (d : Dev) (r : Nat) : Dev :=
  let n := satInc 32 (tabGet 0 d.rb.counts r)
  let old := tabGet 0 d.rb.counts r
  let d := d.onRb fun b => { b with counts := tabSet 0 b.counts r n }
  if n = d.nat O.rbCountLimit ∧ old ≠ n then
    ((d.event 69 d.clk).bump O.rbWorn).station 3 r (leBytes 4 n)
  else d

/-- The point whose present coil change this is waits for its make or break time from the latch on (R241). -/
def rbLatchPoint (d : Dev) (p relay : Nat) (on : Bool) : Dev :=
  match d.run? p with
  | none => d
  | some r =>
    match r.pwait, r.cfg.path[r.step]? with
    | .latch, some e => if e.relay = relay ∧ (r.making != e.inv) = on then d.setRun p { r with pwait := .time } else d
    | _, _ => d

/-- Command frame `f` is sent in this slot. -/
def rbSend (d : Dev) (f : Nat) (latch : Bool) : Dev :=
  (d.onRb fun b => { b with frame := f, latched := latch }).bump O.rbFrames

/-- What a latched WRITE makes of the coil of one relay. (DEDUCED, log 78) -/
def rbWrite (d : Dev) (relay : Nat) (on : Bool) (point : Option Nat) : Dev :=
  let k := driverOf relay
  let d := d.onRb fun b => { b with image := rbPut b.image relay on }
  let d := rbSend d (rbCommand 1 k (tabGet 0 d.rb.image k) (d.rb.slot % 64)) true
  let was := rbBit d.rb.coils relay
  let d := d.onRb fun b => { b with coils := tabSet 0 b.coils k (tabGet 0 b.image k) }
  let d := if on && !was then rbCountUp d relay else d
  match point with
  | some p => rbLatchPoint d p relay on
  | none => d.onRb fun b => { b with orphans := rbPut b.orphans relay false }

/-- Relays of INV entries of any point's path. -/
def invRelays (d : Dev) : List Nat :=
  (List.range 4096).flatMap fun p =>
    ((((List.range 4).map (fun k => d.nat O.ptPath p k)).takeWhile (fun w => bit w 63)).map parsePath |>.filter (·.inv)).map (·.relay)

/-- The orphans left once every coil is off: those of INV entries `inv`, whose path a released coil makes. -/
def orphansOff (orphans : Tab Nat) (inv : List Nat) : Tab Nat :=
  let left : Tab Nat := orphans.map fun (e : Nat × Nat) =>
    (e.1, (List.range 16).foldl (fun m j => putBit m j (bit e.2 j && inv.contains (16 * e.1 + j))) 0)
  left.filter fun (e : Nat × Nat) => e.2 != 0

/-- One slot (R256): the frame at the head of the queue, or NOP. (DEDUCED, log 78) -/
def relayBusSlot (d : Dev) : Dev :=
  if !rbRunning d then d
  else
    let tag := d.rb.slot % 64
    let d := match d.rb.queue with
      | [] => d.onRb fun b => { b with frame := rbCommand 0 0 0 tag, latched := false }
      | op :: q =>
        let d := d.onRb fun b => { b with queue := q }
        match op with
        | .coil relay on point => rbWrite d relay on point
        | .read driver use tries =>
          rbSend (d.onRb fun b => { b with out := b.out ++ [({ driver := driver, tag := tag, use := use, tries := tries } : RbRead)] }) (rbCommand 2 driver 0 tag) false
        | .allOff =>
          let d := rbSend d (rbCommand 3 0 0 tag) false
          let inv := invRelays d
          d.onRb fun b => { b with image := [], coils := [], orphans := orphansOff b.orphans inv }
    d.onRb fun b => { b with slot := b.slot + 1 }

/-! Points that fail on the bus. -/

/-- A READ of point `p` is still to come. -/
def rbAwaits (d : Dev) (p : Nat) : Bool :=
  let mine := fun (u : ReadFor) => match u with | .path q _ _ => q == p | _ => false
  d.rb.queue.any (fun o => match o with | .read _ u _ => mine u | _ => false)
  || d.rb.out.any (fun x => mine x.use) || d.rb.reread.any (fun x => x.2 == p)

/-- Every entry made, or broken, and read back. (DEDUCED, log 76) -/
def rbPathEnd (d : Dev) (p : Nat) : Dev :=
  match d.run? p with
  | none => d
  | some r =>
    if r.pwait ≠ .readback ∨ rbAwaits d p then d
    else
      let d := d.setRun p { r with pathDone := true, pwait := .idle, made := if r.making then r.made else 0 }
      ptProgress d p

/-- An active point ends RELAY; one already in RELEASE whose own read-back fails ends with that status once its entries are
broken (R260). -/
def rbFailPoint (d : Dev) (p : Nat) : Dev :=
  match d.run? p with
  | none => d
  | some r =>
    let st := d.nat O.ptState p
    if 2 ≤ st ∧ st ≤ 6 then ptLeave d p 5
    else if st = 7 then rbPathEnd (d.setRun p { r with status := 5 }) p
    else d

/-- The active points (Table 8.5: CONNECT to LISTEN) that hold a relay on driver `k`. -/
def rbPointsOn (d : Dev) (k : Nat) : List Nat :=
  (d.psc.runs.filter (fun e => decide (2 ≤ d.nat O.ptState e.1 ∧ d.nat O.ptState e.1 ≤ 6) && e.2.cfg.path.any (fun x => driverOf x.relay == k))).map (·.1)

/-- Relays of an execution on driver `k` whose coil is not changing, with what SENSE must show. -/
def rbStable (d : Dev) (r : PtRun) (k : Nat) : List (Nat × Bool) :=
  let moving := fun (j : Nat) => j == r.step && (r.pwait == .latch || r.pwait == .time)
  ((List.range r.cfg.path.length).zip r.cfg.path).filterMap fun (j, e) =>
    if driverOf e.relay = k ∧ (j < r.made ∨ !r.making) ∧ !moving j then some (e.relay, rbBit d.rb.coils e.relay) else none

def rbDiffers (d : Dev) (p k sense : Nat) : Bool :=
  match d.run? p with
  | none => false
  | some r => (rbStable d r k).any fun (x, b) => bit sense (x % 16) != b

/-! Replies (R257, R260, R261, R263). -/

/-- R263 for one driver: its SENSE bits become the image; relays held by nobody that are energised, or released on an INV
entry, are orphans. (DEDUCED, log 77) -/
def rbAdopt (d : Dev) (k sense : Nat) : Dev :=
  let held := heldResources d
  let inv := invRelays d
  let orphan := (List.range 16).foldl (fun m j =>
    let r := 16 * k + j
    putBit m j (!held.contains (resRelay r) && (bit sense j || inv.contains r))) 0
  d.onRb fun b => { b with image := tabSet 0 b.image k sense, coils := tabSet 0 b.coils k sense,
                           orphans := tabSet 0 b.orphans k orphan }

/-- (DEDUCED, log 77) -/
def rbSilence (d : Dev) (k : Nat) (use : ReadFor) : Dev :=
  let d := rbState (d.onRb fun b => { b with silent := setBit b.silent k }) true
  let d := d.raise 54 0 2 k
  let d := (rbPointsOn d k).foldl rbFailPoint d
  match use with | .path p _ _ => rbPathEnd d p | _ => d

/-- A good reply: `st` the four status bits OVERTEMP, UVLO, CRCERR, SHORT. (DEDUCED, log 77) -/
def rbAnswer (d : Dev) (k sense st : Nat) (use : ReadFor) : Dev :=
  let d := d.onRb fun b => { b with sense := tabSet 0 b.sense k sense, silent := clrBit b.silent k }
  let d := rbState d true
  match use with
  | .path p relay second =>
    if bit sense (relay % 16) != rbBit d.rb.coils relay then
      if second then
        let d := (d.bump O.rbMismatches).raise 54 0 1 k
        rbFailPoint d p
      else d.onRb fun b => { b with reread := b.reread ++ [(relay, p)] }
    else rbPathEnd d p
  | .start => rbAdopt d k sense
  | .fault =>
    if st &&& 13 = 0 then d else (rbPointsOn d k).foldl rbFailPoint (d.raise 54 0 3 k)
  | .audit =>
    (rbPointsOn d k).foldl (fun x p => if rbDiffers x p k sense then rbFailPoint x p else x) d

/-- The reply, or its absence, to the oldest READ. -/
def relayReply (d : Dev) (present : Bool) (f : Nat) : Dev :=
  match d.rb.out with
  | [] => d
  | x :: rest =>
    let d := d.onRb fun b => { b with out := rest }
    if present && rbReplyOk f x.driver x.tag then rbAnswer d x.driver (bits f 29 14) (bits f 43 40) x.use
    else if x.tries < 3 then d.onRb fun b => { b with queue := .read x.driver x.use (x.tries + 1) :: b.queue }
    else rbSilence d x.driver x.use

/-- 1 ms after a mismatch the driver is read again (R260). -/
def relayReread (d : Dev) : Dev :=
  match d.rb.reread with
  | [] => d
  | (relay, p) :: t => rbPush (d.onRb fun b => { b with reread := t }) (.read (driverOf relay) (.path p relay true) 0)

/-- RB_FLT_N goes low. -/
def relayFaultLine (d : Dev) : Dev :=
  if rbRunning d then forUpto (d.nat O.rbDrivers) (fun k x => rbPush x (.read k .fault 0)) d else d

/-- The audit interval has elapsed. -/
def relayAudit (d : Dev) : Dev :=
  if !rbRunning d || d.nat O.rbAuditMs == 0 then d
  else
    let n := max 1 (d.nat O.rbDrivers)
    let k := d.rb.auditAt % n
    rbPush (d.onRb fun b => { b with auditAt := (k + 1) % n }) (.read k .audit 0)

/-- RBC starts (R263). -/
def rbcStart (d : Dev) : Dev :=
  if rbRunning d || !d.on O.rbEnable || !bit (d.nat O.pmuPdState) 14 then d
  else
    let d := rbState (d.onRb fun b => { b with silent := 0 }) true
    forUpto (d.nat O.rbDrivers) (fun k x => rbPush x (.read k .start 0)) d

/-- No channel may be in Forcing, Draining or Opening (R263). (DEDUCED, log 77) -/
def rbCmdRefused (d : Dev) : Bool :=
  !rbRunning d || (List.range 96).any fun n => decide (2 ≤ d.nat O.chForceLoopState n ∧ d.nat O.chForceLoopState n ≤ 4)

/-- RELEASE_ORPHANS: every orphan is broken in ascending relay order; the path of an INV entry is broken by energising its
coil, any other by releasing it. (DEDUCED, log 77) -/
def releaseOrphans (d : Dev) : Eff :=
  if rbCmdRefused d then refuse aState
  else
    let all := d.rb.orphans.flatMap fun e => ((List.range 16).filter (fun j => bit e.2 j)).map (fun j => 16 * e.1 + j)
    let inv := invRelays d
    .ok (all.foldl (fun x r => rbPush x (.coil r (inv.contains r) none)) d)

def allOff (d : Dev) : Eff := if rbCmdRefused d then refuse aState else .ok (rbPush d .allOff)

/-- R265. (DEDUCED, log 77) -/
def relayCountClear (d : Dev) (r : Nat) : Eff :=
  if 16384 ≤ r then refuse aRange
  else
    let old := tabGet 0 d.rb.counts r
    .ok ((d.onRb fun b => { b with counts := tabSet 0 b.counts r 0 }).station 4 r (leBytes 4 old))
/-- The path settle has elapsed since the last make time (R241). (DEDUCED, log 76; DESIGN CHOICE, log 94) -/
def pathSettleEnd (d : Dev) (p : Nat) : Dev :=
  match d.run? p with
  | none => d
  | some r =>
    if d.nat O.ptState p = 2 ∧ r.made = r.cfg.path.length ∧ r.pwait ≠ .latch ∧ r.pwait ≠ .time then
      ptProgress (d.setRun p { r with settled := true }) p
    else d

/-- WAIT lasted longer than `pt.window`, where 0 sets no limit (Table 8.5). (DESIGN CHOICE, log 94) -/
def pointWindowExpiry (d : Dev) (p : Nat) : Dev :=
  match d.run? p with
  | none => d
  | some r => if d.nat O.ptState p = 1 ∧ r.cfg.window ≠ 0 then ptEnd d p 2 else d
/-- `pt.listen` has elapsed after the sequencer entered DONE. (DESIGN CHOICE, log 94) -/
def pointListenTimeout (d : Dev) (p : Nat) : Dev :=
  match d.run? p with
  | none => d
  | some r => if d.nat O.ptState p = 6 ∧ d.nat O.seqState r.chA = 3 then ptLeave d p 7 else d

end Sys2Proof.Machine
end

