-- ==== Sys2Proof/Machine/Lanes.lean ====
section
/-! DEFINITION. What the lane and channel objects do when they are written, and the link's time-outs (chapters 2 to 5): the
refusals by state, the relations between objects, and the effects. -/
namespace Sys2Proof.Machine

/-! Lanes (R65, R74, R75, R82-R92). -/

/-- A lane in IDLE with `lane.enable` = 1 trains in MEADOW, FALLOW and SAFE (R83). -/
def laneTry (d : Dev) (n : Nat) : Dev :=
  let st := d.nat O.devState
  if d.nat O.laneState n = lsIdle ∧ d.on O.laneEnable n ∧ 2 ≤ st ∧ st ≤ 4 then startTrain d n 1 else d

/-- The effect of a write of `lane.enable`. -/
def laneEnableEff (d : Dev) (n : Nat) : Dev := if d.on O.laneEnable n then laneTry d n else d.drainLane n false

/-- ATTACH (R92). -/
def laneAttach (d : Dev) (n : Nat) : Eff :=
  let st := d.nat O.laneState n
  if st = lsLost then
    .ok ((d.onLane n fun l => { l.send 2 [] with attach := true, lcmd := lcIdle, descBuf := [] }).setLaneState n lsDescribe)
  else if st = lsFault then .ok ((startTrain d n 1).onLane n fun l => { l with attach := true })
  else refuse aState

def laneRetrain (d : Dev) (n : Nat) : Eff := if d.nat O.laneState n = lsRun then .ok (toRetrain d n) else refuse aState

/-- SAFE_RELEASE (R65). -/
def laneSafeRelease (d : Dev) (n : Nat) : Eff :=
  let l := d.lane n
  let ramp := fun (k : Nat) => match l.status with
    | some s => bit (s.slots.getD k ⟨0, 0, 0⟩).flags 2
    | none => false
  let whole := d.nat O.laneSliceState n == ssSafe
  let running := (List.range 8).any fun k => slotPresent l.desc k && !ramp k
  if d.nat O.laneState n ≠ lsRun ∨ d.nat O.devState = 4 ∨ (l.safed = 0 ∧ ¬ whole) ∨ (whole ∧ running) then refuse aState
  else
    let mask := if whole then 0xFF
      else (List.range 8).foldl (fun m k => putBit m k (bit l.safed k && ramp k)) 0
    if mask = 0 then .ok d else .ok (d.onLane n fun l => l.send 5 (leBytes 1 mask))

def laneCommand (d : Dev) (n cmd : Nat) : Eff :=
  if cmd = 1 then laneAttach d n else if cmd = 2 then laneRetrain d n else laneSafeRelease d n

/-- R82: SET_HOLD goes out while the lane has its message channel; a lane that is training sends it afterwards. -/
def holdTimeoutEff (d : Dev) (n : Nat) : Dev :=
  let st := d.nat O.laneState n
  if st = lsDescribe ∨ st = lsRun ∨ st = lsReattach ∨ st = lsLost ∨ (st = lsRetrain ∧ (d.lane n).aligned) then sendSetHold d n
  else if st = lsRetrain then d.onLane n fun l => { l with reSetHold := true }
  else d

/-- A segment has stood unacknowledged for 16 frames (R74). -/
def segmentResend (d : Dev) (n : Nat) : Dev :=
  let l := d.lane n
  if !l.inFlight || l.txPending then d
  else if l.txResends < 8 then
    (d.setLane n { l with txPending := true, txResends := l.txResends + 1 }).bump O.laneMsgResends n
  else channelFailed d n

/-- No reply within 2 ms (R75). -/
def replyTimeout (d : Dev) (n : Nat) : Dev :=
  match (d.lane n).request with
  | none => d
  | some _ => channelFailed d n

def trainTimeout (d : Dev) (n : Nat) : Dev :=
  if d.nat O.laneState n ≠ lsTrain then d
  else if 3 ≤ (d.lane n).attempt then toFault d n 2
  else startTrain d n ((d.lane n).attempt + 1)

/-- The deadline of RETRAIN: a lane that has not realigned is lost; one that reads STATUS is lost if its alignment fails again
(Table 2.16). -/
def retrainTimeout (d : Dev) (n : Nat) : Dev :=
  if d.nat O.laneState n ≠ lsRetrain then d
  else if (d.lane n).aligned then d.onLane n fun l => { l with retrainLate := true }
  else toFault d n 6
def drainLimit (d : Dev) (n : Nat) : Dev := if d.nat O.laneState n = lsDrain then drainDone d n else d

/-- A message of the slice taken in whole. -/
def laneMessage (d : Dev) (n : Nat) (m : LMsg) : Dev := autostartAfter n d (onMessage d n m)

/-! Up-frames (R69). -/

/-- An up-frame of frame j = `frame` − `age` arrives: it is held when every condition of R69 is met, and counted otherwise.
`aligned` says that its comma stands at the symbol position of training, `inverted` that the line carries the complement
(R55), and `rtt` counts 0.4 ns periods of CLK_SD from the departure of down-frame j's comma (R71). -/
def upFrame (d : Dev) (n : Nat) (aligned inverted : Bool) (age rtt : Nat) (syms : List Sym) : Dev :=
  let l := d.lane n
  if d.nat O.laneState n = lsOff ∨ !l.transmitting then d
  else
    let j := d.frame - age
    let (d, spoiled) := match d.fcr.inject with
      | some x =>
        if x.target = 3 ∧ x.unit = n ∧ 0 < x.left then
          ({ d with fcr := { d.fcr with inject := if x.left = 1 then none else some { x with left := x.left - 1 } } }, true)
        else (d, false)
      | none => (d, false)
    let polOk := inverted == bit l.polInForce 1
    let b := symBytes 100 syms
    let u := { parseUp b with rtt := 400 * rtt }
    let ok := aligned && polOk && !spoiled && symsOk 96 syms && upCrcOk b && u.fcount == j % 65536
      && decide (u.sstate ≤ ssFault) && decide (age ≤ d.frame)
    if ok then d.onLane n fun l => { l with swl := tabPut l.swl j u }
    else (d.onLane n fun l => { l with rejectedAt := j :: l.rejectedAt }).bump O.laneLinkErrUp n

/-! Channels. -/

/-- Channel `n` belongs to an engaged pair (R122). -/
def pairEngaged (d : Dev) (n : Nat) : Bool :=
  d.on O.chCascEngage n || (List.range 96).any fun i => d.on O.chCascEngage i && d.nat O.chCascPartner i == n

/-- The lane trace is in ARMED, READY or POST (R148). -/
def traceBusy (d : Dev) (n : Nat) : Bool :=
  let st := d.nat O.chTraceState (traceCh (n / 8))
  st == 1 || st == 2 || st == 3

def apObjects : List Obj :=
  [O.chApMode, O.chApLenFrames, O.chApLenCyc, O.chApPhase, O.chApSettle, O.chApStart, O.chApCount, O.chApQty, O.chApDest]
def traceObjects : List Obj :=
  [O.chTraceProbe, O.chTraceDiv, O.chTracePre, O.chTraceTrigSrc, O.chTraceTrigProbe, O.chTraceTrigLevel, O.chTraceTrigSlope,
   O.chTraceTrigFlags]

/-- Writes of a channel's objects that its state refuses (R116, R122, R144, R148, R207, R239). -/
def chanRefused (d : Dev) (o : Obj) (n : Nat) : Bool :=
  if [O.chEnable, O.chForceMode, O.chForceSrc, O.chCascEngage, O.chApCmd].contains o ∧ chBound d n then true
  else if o = O.chForceMode ∧ d.nat O.chForceLoopState n ≠ 0 then true
  else if [O.chForceMode, O.chCascRole, O.chCascPartner, O.chCascM, O.chCascQty].contains o ∧ pairEngaged d n then true
  else if (o = O.chRepBins ∨ o = O.chRepData) ∧ d.nat O.chRepMode n = 1 then true
  else if apObjects.contains o ∧ apState (d.chan n) ≠ 0 then true
  else traceObjects.contains o && traceBusy d n

/-- R154: a forcing channel must keep a range able to force, unless a point has bound it (R239). -/
def keepsForce (d : Dev) (n : Nat) : Bool :=
  chBound d n || d.nat O.chForceLoopState n == 0 || decide (2 ≤ chMode d n)
  || (forceRange (asWritten d n) n (chMode d n == 1)).isSome

/-- The relations of Tables 3.3, 3.9, 5.5 and 5.6, of the region table and of R139, on the values in force. -/
def chanRelations (d : Dev) (o : Obj) (n g : Nat) : Option Nat :=
  let i := fun (x : Obj) => d.int x n
  let need := fun (b : Bool) => if b then none else some aRange
  if o = O.chLimitVPos ∨ o = O.chLimitVNeg ∨ o = O.chLimitIPos ∨ o = O.chLimitINeg then
    if i O.chLimitVPos ≤ i O.chLimitVNeg ∨ i O.chLimitIPos ≤ i O.chLimitINeg then some aRange
    else if keepsForce d n then none else some aState
  else if [O.chRngIFloor, O.chRngICeil, O.chRngIPin, O.chRngVFloor, O.chRngVCeil, O.chRngVPin].contains o then
    if i O.chRngICeil < i O.chRngIFloor ∨ i O.chRngVCeil < i O.chRngVFloor then some aRange
    else if keepsForce d n then none else some aState
  else if o = O.chRngUpPct ∨ o = O.chRngDownGuard ∨ o = O.chRngStitchPct then
    need (decide (i O.chRngDownGuard < i O.chRngUpPct ∧ i O.chRngStitchPct ≤ i O.chRngUpPct))
  else if o = O.chRngPredHi ∨ o = O.chRngPredLo then need (decide (i O.chRngPredLo < i O.chRngPredHi))
  else if o = O.chRegionELo ∨ o = O.chRegionEHi then need (decide (d.int O.chRegionELo n g ≤ d.int O.chRegionEHi n g))
  else if o = O.chRegionSpLo ∨ o = O.chRegionSpHi then need (decide (d.int O.chRegionSpLo n g ≤ d.int O.chRegionSpHi n g))
  else if o = O.chCoefAlpha then need (qLe qZero (d.q o n g) && qLt (d.q o n g) qOne)
  else if o = O.chCoefB ∨ o = O.chCoefC then need (qLe qZero (d.q o n g) && qLe (d.q o n g) qOne)
  else if o = O.chCascULo ∨ o = O.chCascUHi then need (decide (i O.chCascULo < i O.chCascUHi))
  else if o = O.chRepMode ∨ o = O.chRepQ0 ∨ o = O.chRepQ1 ∨ o = O.chRepLambda then
    let q0 := d.q O.chRepQ0 n
    let q1 := d.q O.chRepQ1 n
    let lam := d.q O.chRepLambda n
    let sum := q0.int * (2 : Int) ^ q1.shift + 2 * q1.int * (2 : Int) ^ q0.shift
    let lamOk := qLt qZero lam && qLe lam qOne
    let ok := decide (0 ≤ q0.int ∧ 0 ≤ q1.int ∧ sum ≤ (2 : Int) ^ (q0.shift + q1.shift)) && lamOk
    if o = O.chRepLambda ∧ ¬ lamOk then some aRange else need (d.nat O.chRepMode n != 1 || ok)
  else if o = O.chTraceProbe then need (decide (d.nat o n % 32 ≤ 23))
  else none

/-- A dictionary write of a coefficient rewrites its context word in lane memory (R575). -/
def coefWrite (d : Dev) (n w : Nat) : Dev :=
  let (d, sp) := memWrite d (n / 8)
  let set := fun (l : List Nat) (k : Nat) => if sp = k then w :: l.filter (· != w) else l.filter (· != w)
  d.onChan n fun c => { c with coefErr := set c.coefErr 2, coefErr1 := set c.coefErr1 1 }

/-- What an accepted write of a channel object, group field `g`, does beside putting its value in force. -/
def chanEffect (d : Dev) (o : Obj) (n g : Nat) : Dev :=
  if [O.chLimitVPos, O.chLimitVNeg, O.chLimitIPos, O.chLimitINeg].contains o then
    limitSat (d.onChan n fun c => { c with reselect := true }) n
  else if [O.chRngIFloor, O.chRngICeil, O.chRngIPin, O.chRngVFloor, O.chRngVCeil, O.chRngVPin].contains o then
    d.onChan n fun c => { c with reselect := true, policyWait := true }
  else if [O.chForceVLevel, O.chForceILevel, O.chForceSrc].contains o then d.onChan n fun c => { c with cascHeld := none }
  else if o = O.chRepBins then repClear d n
  else if o.idx = 0x3004 ∧ 0x10 ≤ o.sub then coefWrite d n (8 * g + (o.sub - 0x10))
  else d

/-- A write of `ch.rep.data` (R144): exactly 4 N bytes; the bin range becomes the forcing range in force.
(DESIGN CHOICE, log 102) -/
def repDataWrite (d : Dev) (n : Nat) (b : Bytes) : Eff :=
  let N := repN (d.nat O.chRepBins n)
  if chanRefused d O.chRepData n then refuse aState
  else if b.length ≠ 4 * N then refuse aLength
  else
    let bins := (List.range N).foldl (fun (t : Tab Int) j => tabSet 0 t j (leFieldI b (4 * j) 4)) []
    let cur := chMode d n == 1
    let c := d.chan n
    let r := repRangeByte cur (if cur then c.iAct else c.vAct)
    let (d, k, sp) := memWrites d (n / 8) N
    .ok ((d.onChan n fun c => { c with bins := bins, binErr := if sp = 2 then List.range k else [],
                                       binErr1 := if sp = 1 then List.range k else [] }).setN O.chRepRange r n)
def repDataBytes (d : Dev) (n : Nat) : Bytes :=
  (List.range (repN (d.nat O.chRepBins n))).flatMap fun j => leInt 4 (binOf (d.chan n) j)

/-- `ch.casc.engage` := 1 (R122, R123). -/
def cascadeEngage (d : Dev) (n : Nat) : Eff :=
  if chanRefused d O.chCascEngage n ∨ ¬ cascadeValid d n ∨ d.nat O.chForceLoopState n ≠ 2 then refuse aState
  else .ok (if d.on O.chCascEngage n then d else engage d n)
/-- `ch.casc.engage` := 0 (R126). -/
def cascadeDisengage (d : Dev) (n : Nat) : Eff :=
  if chanRefused d O.chCascEngage n then refuse aState
  else .ok (if d.on O.chCascEngage n then disengage d n false else d)

/-- `ch.enable` (R115, R116, R239). -/
def chEnableWrite (d : Dev) (n : Nat) (on : Bool) : Eff :=
  if chBound d n then refuse aState
  else if on then enableChannel d n
  else .ok ((disableChannel d n).setN O.chEnable 0 n)

/-! Apertures (R187-R190, R207). -/

/-- A sequence that starts at `t0`: mode 2 takes the steps that its sequencer reports from now on. -/
def apBegin (d : Dev) (n : Nat) (t0 : Int) : Dev := apRefresh (d.onChan n (apStart (ownApCfg d n) t0)) n

/-- The optional dependency of the channel's own aperture that is switched off (R30, Table 1.1): the CTB for cycles, the sequencers
for steps, the journal for the destination. (DEDUCED, log 111) -/
def apLacks (d : Dev) (n : Nat) : Bool :=
  let off := fun k => !bit (d.nat O.pmuPdState) k
  (d.nat O.chApMode n == 1 && off 15) || (d.nat O.chApMode n == 2 && off 13) || (bit (d.nat O.chApDest n) 0 && off 27)

/-- R207, R30 and R200: W held for a point's binding bars an aperture of the channel's own. (DEDUCED, log 111) -/
def apStartRefused (d : Dev) (n : Nat) : Bool :=
  decide (apState (d.chan n) ≠ 0) || chBound d n || !slotPresent (descOf d n) (n % 8)
  || decide (d.nat O.laneState (n / 8) ≠ lsRun) || apLacks d n || wForeign d n 0xFFFF

def apertureStart (d : Dev) (n : Nat) : Eff := if apStartRefused d n then refuse aState else .ok (apBegin d n d.clk)
def apertureStop (d : Dev) (n : Nat) : Eff :=
  if chBound d n then refuse aState
  else if (d.chan n).ap.running then
    .ok (apRefresh (d.onChan n fun c => { c with ap := { c.ap with stopAt := some d.clk } }) n)
  else .ok d

end Sys2Proof.Machine
end

