-- ==== Sys2Proof/Machine/Results.lean ====
section
/-! DEFINITION. The result pool and the streams (R198-R205). -/
namespace Sys2Proof.Machine

/-- Channels whose C is occupied, with the processed frame of its first DECIDE. -/
def occupied (d : Dev) : List (Nat × Nat) :=
  (List.range 96).filterMap fun n => match (d.chan n).c with | some p => some (n, p.frame) | none => none

/-- R198: the earliest DECIDE, and the lowest channel in one frame. -/
def nextGrant : List (Nat × Nat) → Option (Nat × Nat)
  | [] => none
  | x :: t => match nextGrant t with
    | some y => if y.2 < x.2 then some y else some x
    | none => some x

def poolUsed (d : Dev) : Dev :=
  let n := d.pool.length
  let d := d.setN O.resPoolUsed n
  if d.nat O.resPoolHiwater < n then d.setN O.resPoolHiwater n else d

/-- One grant: the record of one C goes to the pool. -/
def resultWrite (d : Dev) : Dev :=
  match nextGrant (occupied d) with
  | none => d
  | some (n, _) =>
    if 16384 ≤ d.pool.length then d
    else
      let ch := d.chan n
      match ch.c with
      | none => d
      | some p =>
        let r := resultRecord n ch.resSeq (d.nat O.todState != 0) p
        let d := d.setChan n { ch with c := none, resSeq := (ch.resSeq + 1) % 4294967296, lastRec := r }
        let d := d.setN O.chApPending (d.nat O.chApPending n - d.nat O.chApPending n % 2) n
        let (d, sp) := memWrite d 13
        let x : PoolRec := { bytes := r, chan := n, point := p.acc.bind, seq := ch.resSeq, dest := p.dest, ecc := sp }
        let d := { d with pool := d.pool ++ [x] }
        poolUsed ((d.setBytes O.resLast r n).bump O.resPoolWritten)

/-- A frame in which an occupied C found no free slot. -/
def poolFullFrame (d : Dev) : Dev :=
  if 16384 ≤ d.pool.length ∧ occupied d ≠ [] then d.bump O.resPoolFullFrames else d

/-! Streams (R204, R205). -/

/-- The tests of R204 before decimation. -/
def streamTests (d : Dev) (s : Nat) (x : PoolRec) : Bool :=
  let pt := d.nat O.resStreamPoint s
  let out := leField x.bytes 3 1 % 16
  d.on O.resStreamEnable s
  && (if x.chan < 64 then bit (d.nat O.resStreamChLo s) x.chan else bit (d.nat O.resStreamChHi s) (x.chan - 64))
  && (pt == 0xFFFF || (pt == 0xFFFE && x.point == 0xFFFF) || (pt == x.point && decide (x.point < 4096)))
  && bit (d.nat O.resStreamOutcome s) (out - 1)

/-- The RESULT notification to every session subscribed to stream `s` (Table 14.10). -/
def deliverResult (d : Dev) (s node jseq : Nat) (r : Bytes) : Dev :=
  if d.ringMember then
    if d.subMask (fun u => u.kind == 0 && u.index == s && u.node == node) = 0 then d else d.await ⟨true, s, leBytes 8 jseq ++ r⟩
  else forUpto 16 (fun k x =>
    if x.sesOpen k && (x.ses k).subs.any (fun u => u.kind == 0 && u.index == s && u.node == node) then
      let (x, took) := x.queueNotif k 1 node jseq (leBytes 1 s ++ [0, 0, 0] ++ leBytes 8 jseq ++ r)
      if took then x else x.bump O.resStreamDropped s
    else x) d

def offerStream (x : PoolRec) (s : Nat) (d : Dev) : Dev :=
  if !streamTests d s x then d
  else
    let k := 96 * s + x.chan
    let n := tabGet 0 d.streams k
    let d := { d with streams := tabSet 0 d.streams k (n + 1) }
    if n % max 1 (d.nat O.resStreamDecim s) = 0 then deliverResult (d.bump O.resStreamTaken s) s d.node x.jseq x.bytes else d

/-- A write of 1 to `res.stream.enable` clears the stream's counters. -/
def streamEnableEff (d : Dev) (s : Nat) : Dev :=
  if !d.on O.resStreamEnable s then d
  else
    let d := { d with streams := d.streams.filter (fun e => decide (e.1 < 96 * s ∨ 96 * s + 96 ≤ e.1)) }
    (d.setN O.resStreamTaken 0 s).setN O.resStreamDropped 0 s

/-! Dispatch of the oldest record (R199, R244). -/

/-- A record whose words cannot be read is delivered nowhere, and its slot is freed (R45). (DESIGN CHOICE, log 112) -/
def resultDispatch (d : Dev) : Dev :=
  match d.pool with
  | [] => d
  | x :: rest =>
    let toJrn := bit x.dest 0
    if x.ecc = 2 then poolUsed ({ d with pool := rest }.raise 50 0 1 3 true)
    else if toJrn && !stagingRoom d.jrn.staging false then d
    else
      let d := if x.ecc = 1 then countFixed d 13 1 else d
      let (jseq, d) := if toJrn then d.stage x.bytes false else (0, d)
      let d := poolUsed { d with pool := rest }
      let d := if x.point = 0xFFFF then d else judgeRecord d x.point x.chan x.bytes
      let x := { x with jseq := jseq }
      if bit x.dest 1 then forUpto 16 (offerStream x) d else d

end Sys2Proof.Machine
end

