-- ==== Sys2Proof/Machine/Ctb.lean ====
section
/-! DEFINITION. The cycle time base (chapter 9): the tracking loop, acquisition, the encoder, instants and their consumers. -/
namespace Sys2Proof.Machine

def csOff := 0
def csAcquire := 1
def csLocked := 2
def csCoasting := 3
def csStall := 4
def csReverse := 5

def Dev.onCtb (d : Dev) (f : Ctb → Ctb) : Dev := { d with ctb := f d.ctb }
def ctbState (d : Dev) : Nat := d.nat O.ctbState
def ctbOn (d : Dev) : Bool := bit (d.nat O.pmuPdState) 15
/-- Phase offset o of R270. -/
def ctbO (d : Dev) : Nat := d.nat O.ctbPhaseOffset * 2 ^ 48

/-- A change of `ctb.state` is an event on CTB_STATE (R284). -/
def ctbSet (d : Dev) (st : Nat) : Dev :=
  if ctbState d = st then d else (d.setN O.ctbState st).event 65 (d.clk + 2 * d.ctb.tick)

/-- The rate in force, per tick (Table 9.2). -/
def ctbRate (d : Dev) : Nat :=
  if ctbState d = csLocked then d.ctb.inc else if ctbState d = csCoasting then
    (if d.nat O.ctbSrc = 4 then d.ctb.inc else d.ctb.incF) else 0

/-- Source 4: the greatest value that extrapolation reaches (R281). (DEDUCED, log 80) -/
def encCap (d : Dev) : Nat :=
  let cpr := max 1 (d.nat O.ctbEncCpr)
  d.ctb.base + ((d.ctb.high.toNat * 65536 + 65535) * cycleOne) / (cpr * 65536)

/-- acc advanced to tick `t` of the present frame. -/
def ctbAdvance (d : Dev) (t : Nat) : Dev :=
  let c := d.ctb
  if t ≤ c.tick then d
  else
    let to_ := c.acc + (t - c.tick) * ctbRate d
    let acc := if d.nat O.ctbSrc = 4 then max c.acc (min to_ (encCap d)) else to_
    d.onCtb fun c => { c with acc := acc, tick := t }

def ctbStamp (d : Dev) : Int := d.clk + 2 * d.ctb.tick

/-- A stretch of the history begins at the present tick; values from `lo` on have their instants in it. -/
def ctbMark (d : Dev) (lo : Nat) : Dev :=
  let c := d.ctb
  let now := absTick d c.tick
  let s : CtbSeg := { tick := now, acc := c.acc, lo := lo, rate := ctbRate d, st := ctbState d,
                      top := if d.nat O.ctbSrc = 4 then some (encCap d) else none }
  d.onCtb fun c => { c with segs := s :: segsFrom (now - 8000) c.segs }
/-- The state or the rate changes and acc does not. -/
def ctbMarked (d : Dev) : Dev := ctbMark d (d.ctb.acc + 1)

/-! Instants (R274, R283, R284). -/

/-- Values c·2^64 + phase·2^48 from `v` to `hi`, ascending, at most `fuel` of them. -/
def valuesFrom (hi : Nat) : Nat → Nat → List Nat
  | 0, _ => []
  | fuel + 1, v => if v ≤ hi then v :: valuesFrom hi fuel (v + cycleOne) else []
def valuesIn (lo hi phase : Nat) : List Nat := valuesFrom hi 16 (nextPhase lo phase)

/-- Generator `k` issues at the value `v` of its phase (R284). -/
def evtDue (d : Dev) (k v : Nat) : Bool :=
  let c := v / cycleOne
  d.on O.ctbEvtEnable k && decide (d.nat O.ctbEvtOrigin k ≤ c)
  && (c - d.nat O.ctbEvtOrigin k) % max 1 (d.nat O.ctbEvtEvery k) == 0

/-- Values from `lo` to `hi` are reached, each at the time that `stamp` gives. -/
structure Reached where
  lo : Nat
  hi : Nat
  stamp : Nat → Int

def Reached.values (x : Reached) (phase : Nat) : List Nat := valuesIn x.lo x.hi phase

/-- Phase events of one generator. -/
def ctbEvents (x : Reached) (k : Nat) (d : Dev) : Dev :=
  (x.values (d.nat O.ctbEvtPhase k)).foldl (fun y v =>
    if evtDue y k v then (y.event (56 + k) (x.stamp v)).bump O.ctbEvtCount k else y) d

/-- Scan starts on the cycle grid (Table 8.8). -/
def scanCycle (r : Reached) (n : Nat) (d : Dev) : Dev :=
  let st := d.nat O.scanState n
  if d.nat O.scanSrc n ≠ 2 ∨ (st ≠ 1 ∧ st ≠ 2) then d
  else
    (r.values (d.nat O.scanCycPhase n)).foldl (fun x v =>
      let s := x.scan n
      let c := v / cycleOne
      let due := match s.cycNext with | none => true | some m => decide (m ≤ c)
      if due then scanStart (x.setScan n { s with cycNext := some (c + max 1 (x.nat O.scanCycPeriod n)) }) n (r.stamp v) false
      else x) d

/-- Start conditions of sequencer `i` (Table 7.5). -/
def seqCycle (r : Reached) (i : Nat) (d : Dev) : Dev :=
  if d.nat O.seqStartSrc i ≠ 2 then d
  else (r.values (d.nat O.seqStartPhase i)).foldl (fun x v => seqStartCond x i (frameAtOrAfter x (r.stamp v))) d

/-- Everything scheduled at the values that are reached, and CTB_CYCLE at each of phase 0. -/
def ctbReach (d : Dev) (r : Reached) : Dev :=
  let st := ctbState d
  if r.hi < r.lo ∨ (st ≠ csLocked ∧ st ≠ csCoasting) then d
  else
    let d := d.onCtb fun c => { c with next := r.hi + 1 }
    let d := forUpto 96 (seqCycle r) d
    let d := forUpto 256 (scanCycle r) d
    let d := forUpto 8 (ctbEvents r) d
    (r.values 0).foldl (fun x v => x.event 64 (r.stamp v)) d

/-- acc advances to tick `t` of the present frame, and each value on the way is reached at its own tick (R274).
(DEDUCED, log 80) -/
def ctbTo (d : Dev) (t : Nat) : Dev :=
  let c := d.ctb
  let clk := d.clk
  let rate := ctbRate d
  let stamp := fun v => clk + 2 * (if v ≤ c.acc then c.tick else c.tick + (v - c.acc + rate - 1) / rate : Nat)
  let d := ctbAdvance d t
  ctbReach d ⟨c.next, d.ctb.acc, stamp⟩
/-- The values up to acc are reached at the present tick. -/
def ctbHere (d : Dev) : Dev :=
  let now := ctbStamp d
  ctbReach d ⟨d.ctb.next, d.ctb.acc, fun _ => now⟩

/-- CTB_INSTANT at tick `t` of the present frame. -/
def ctbInstant (d : Dev) (t : Nat) : Dev := if ctbOn d then ctbTo d t else d

/-- The snapshot of a controller frame (R137, R276), acc standing at tick 0 of it. (DEDUCED, log 90) -/
def ctbSnapshot (d : Dev) : CtbSnap :=
  let st := ctbState d
  let kind := if !ctbOn d then 2 else if st = csLocked then 0 else if st = csCoasting then 1 else if st = csReverse then 3 else 2
  { phi := (d.ctb.acc / 2 ^ 48) % 65536, kind := kind }

/-- The present frame ends: every value of it is reached, and acc stands at tick 0 of the next. (DEDUCED, log 90) -/
def ctbFrame (d : Dev) : Dev := if ctbOn d then (ctbTo d 250).onCtb fun c => { c with tick := 0 } else d

/-! Leaving the advancing states. -/

/-- The CTB is lost with its domain (R29, R283): its consumers see it OFF. -/
def ctbLost (d : Dev) : Dev := (ctbMarked (ctbSet d csOff)).onCtb fun c => { segs := c.segs }

/-- A source change, or REACQUIRE (Table 9.3); the encoder starts from the levels that stand synchronised.
(DEDUCED, log 11) -/
def ctbRestart (d : Dev) : Dev :=
  if !ctbOn d then d
  else
    let d := d.onCtb fun c => { c with rawAt := none, raws := [], lastTgt := none, monLast := none, monArmed := false,
                                       monCross := none, monFound := none, edgeAt := none, edgeIn := none }
    let src := d.nat O.ctbSrc
    if src = 0 then ctbMarked (ctbSet d csOff)
    else
      let d := if src = 4 then
          let o := ctbO d
          let acc := d.ctb.acc
          let base := if acc ≤ o then o else o + ((acc - o + cycleOne - 1) / cycleOne) * cycleOne
          let a := d.on O.ermEvioLevel 14
          let b := d.on O.ermEvioLevel 15
          (((d.onCtb fun c => { c with pos := 0, high := 0, base := base, hwRun := 0, hwGap := 0, encA := a, encB := b }).setI O.ctbPosition 0).setI
            O.ctbHighwater 0)
        else d
      ctbMarked (ctbSet d csAcquire)

def ctbReacquire (d : Dev) : Eff :=
  .ok (if ctbState d = csOff then d else ctbRestart d)

/-! Edges (R270, R271, R277, R280). -/

/-- Accepted raw periods in ticks (Table 9.1). -/
def rawOk (src p : Nat) : Bool :=
  if src = 3 then decide (999000000 ≤ 2 * p ∧ 2 * p ≤ 1001000000) else decide (14285714 ≤ 2 * p ∧ 2 * p ≤ 25000000)

/-- An edge `back` ticks before the present one is accepted. (DEDUCED, log 93) -/
def enterLocked (d : Dev) (back : Nat) : Dev :=
  let now := absTick d d.ctb.tick
  let d := d.onCtb fun c => { c with edgeAt := some (now - back), edgeIn := some now }
  let d := match d.ctb.stallAt with
    | some t => (d.setN O.ctbStallTime (d.up + 2 * d.ctb.tick - 2 * back - t)).onCtb fun c => { c with stallAt := none }
    | none => d
  ctbSet d csLocked

/-- Values strictly between the frozen acc and the landing value are passed (R280, R283). (DEDUCED, log 80) -/
def ctbPass (d : Dev) (frozen land : Nat) : Dev :=
  let lo := max d.ctb.next (frozen + 1)
  if land ≤ lo then d
  else
    let hi := land - 1
    let gen := fun (k : Nat) (x : Dev) =>
      (valuesIn lo hi (x.nat O.ctbEvtPhase k)).foldl (fun y v =>
        if evtDue y k v then (y.bump O.ctbPassed).bump O.ctbEvtMissed k else y) x
    let d := forUpto 8 gen d
    let scan := fun (n : Nat) (x : Dev) =>
      let st := x.nat O.scanState n
      if x.nat O.scanSrc n ≠ 2 ∨ (st ≠ 1 ∧ st ≠ 2) then x
      else
        (valuesIn lo hi (x.nat O.scanCycPhase n)).foldl (fun y v =>
          match (y.scan n).cycNext with
          | some m => if m ≤ v / cycleOne then
              scanStart (y.setScan n { y.scan n with cycNext := some (v / cycleOne + max 1 (y.nat O.scanCycPeriod n)) }) n (ctbStamp y) true
            else y
          | none => y) x
    forUpto 256 scan d

/-- The relock at the edge that completes ACQUIRE: `back` ticks before the present one (R280).
(DEDUCED, log 80; DEDUCED, log 93) -/
def ctbRelock (d : Dev) (incF back : Nat) : Dev :=
  let frozen := d.ctb.acc
  let o := ctbO d
  let land := if frozen ≤ o then o else o + ((frozen - o + cycleOne - 1) / cycleOne) * cycleOne
  let d := ctbPass d frozen land
  let d := if frozen + 1 < land then d.flag O.ctbFlags 8 else d
  let d := d.onCtb fun c => { c with acc := land + back * incF, next := max c.next land, incF := incF, inc := incF,
                                     lastTgt := some land, rawAt := none, raws := [] }
  ctbHere (ctbMark (enterLocked (d.bump O.ctbEdges) back) land)

/-- An edge in ACQUIRE at absolute tick `te`. (DEDUCED, log 80) -/
def ctbAcquire (d : Dev) (te back : Nat) : Dev :=
  let restart := d.onCtb fun c => { c with rawAt := some te, raws := [] }
  match d.ctb.rawAt with
  | none => restart
  | some p =>
    let per := te - p
    if !rawOk (d.nat O.ctbSrc) per then restart
    else
      let n := d.nat O.ctbLockN
      let raws := (per :: d.ctb.raws).take n
      let span : Nat := raws.foldl (fun (a b : Nat) => a + b) 0
      let near := raws.all fun p =>
        decide (absI (((p * n : Nat) : Int) - (span : Int)) * 1000000 ≤ (d.nat O.ctbGate : Int) * (span : Int))
      if raws.length = n ∧ near then ctbRelock d (roundDiv ((2 : Int) ^ 64 * n) span).toNat back
      else d.onCtb fun c => { c with rawAt := some te, raws := raws }

/-- An edge against the tracking loop: `back` ticks before the present one, where acc stood as the history says. -/
def ctbTrack (d : Dev) (back : Nat) : Dev :=
  let c := d.ctb
  let at_ : Int := match accAt c.segs (absTick d c.tick - back) with | some a => a | none => c.acc - (back * ctbRate d : Nat)
  let o := (ctbO d : Int)
  let tgt := max 0 ((at_ - o + (2 : Int) ^ 63) / (2 : Int) ^ 64) * (2 : Int) ^ 64 + o
  let err := tgt - at_
  let within := decide (absI err * 1000000 ≤ (d.nat O.ctbGate : Int) * (2 : Int) ^ 64)
  if !within ∨ c.lastTgt = some tgt.toNat ∨ d.coasting then (d.bump O.ctbRejects).flag O.ctbFlags 1
  else
    let incF := (c.incF : Int) + roundShift (err * c.incF) (64 + d.nat O.ctbLoopB)
    let corr := roundShift (err * incF) (64 + d.nat O.ctbLoopA)
    let corr := clampMM (-(incF / 8)) (incF / 8) corr
    let d := d.onCtb fun c => { c with incF := incF.toNat, inc := (incF + corr).toNat, lastTgt := some tgt.toNat }
    ctbMarked (enterLocked ((d.bump O.ctbEdges).setI O.ctbPhaseErr (narrow32 (roundShift err 32))) back)

/-- CTB_EDGE: a source edge delivered at tick `t`, whose own tick lies `back` ticks earlier (R268); for source 2 the own tick is
the crossing that was found (R269). (DESIGN CHOICE, log 82) -/
def ctbEdge (d : Dev) (t back : Nat) : Dev :=
  let src := d.nat O.ctbSrc
  if !ctbOn d ∨ src = 0 ∨ src = 4 then d
  else
    let d := ctbTo d t
    let now := absTick d d.ctb.tick
    match (if src = 2 then d.ctb.monFound.map (fun x => now - x) else some back) with
    | none => d
    | some back =>
      let d := d.onCtb fun c => { c with monFound := none }
      let st := ctbState d
      if st = csAcquire then (if d.coasting then d else ctbAcquire d (now - back) back)
      else if st = csLocked ∨ st = csCoasting then ctbTrack d back
      else if st = csStall then ctbMarked (ctbSet (d.onCtb fun c => { c with rawAt := some (now - back), raws := [] }) csAcquire)
      else d

/-- A conversion of the entry that `ctb.mon` names, at absolute tick `t`, in sixteenths of a code (R269, R340). -/
def ctbMonitor (d : Dev) (t : Nat) (code : Int) : Dev :=
  if !ctbOn d ∨ d.nat O.ctbSrc ≠ 2 then d
  else
    let lvl := 16 * d.int O.ctbMonLevel
    let hys := 16 * d.int O.ctbMonHyst
    let c := d.ctb
    let fired := c.monArmed && decide (lvl + hys ≤ code)
    let cross := match c.monLast with
      | some (t0, c0) =>
        if c0 < lvl ∧ lvl ≤ code then some (((t0 : Int) + roundDiv ((lvl - c0) * ((t : Int) - (t0 : Int))) (code - c0)).toNat)
        else c.monCross
      | none => c.monCross
    d.onCtb fun c => { c with monLast := some (t, code), monArmed := decide (code ≤ lvl - hys) || (c.monArmed && !fired), monCross := cross,
                              monFound := if fired then (match cross with | some x => some x | none => some t) else c.monFound }

/-! Time-outs (R277-R279). -/

/-- The deadline of `n` half periods since the last accepted edge has passed at the present tick, and no edge was accepted in it
(R277, R278); there is none before a period is known. (DESIGN CHOICE, log 110) -/
def ctbOverdue (d : Dev) (n : Nat) : Bool :=
  let c := d.ctb
  let now := absTick d c.tick
  match c.edgeAt with
  | none => false
  | some e =>
    c.edgeIn != some now && (if d.nat O.ctbSrc = 4 then decide (0 < c.hwGap ∧ n * c.hwGap ≤ 2 * (now - e))
      else decide (0 < c.incF ∧ n * cycleOne ≤ 2 * (now - e) * c.incF))

/-- CTB_COAST_TIMEOUT: 1.5 T since the last accepted edge. -/
def ctbCoastTimeout (d : Dev) (t : Nat) : Dev :=
  if !ctbOn d ∨ ctbState d ≠ csLocked then d
  else
    let d := ctbTo d t
    if !ctbOverdue d 3 then d
    else
      let d := (d.onCtb fun c => { c with inc := if d.nat O.ctbSrc = 4 then c.inc else c.incF }).flag O.ctbFlags 2
      ctbMarked (ctbSet d csCoasting)

/-- Into STALL at the present tick (Table 9.3). -/
def ctbStallNow (d : Dev) : Dev :=
  let d := (((d.flag O.ctbFlags 4).bump O.ctbStalls).setI O.ctbLastStall (d.stamp (ctbStamp d))).onCtb fun c =>
    { c with stallAt := some (d.up + 2 * d.ctb.tick), rawAt := none, raws := [] }
  (ctbMarked (ctbSet d csStall)).raise 55 0 1 0

/-- CTB_STALL_TIMEOUT: (`ctb.coast` + 1.5) T since the last accepted edge. -/
def ctbStallTimeout (d : Dev) (t : Nat) : Dev :=
  if !ctbOn d ∨ ctbState d ≠ csCoasting then d
  else
    let d := ctbTo d t
    if !ctbOverdue d (2 * d.nat O.ctbCoast + 3) then d else ctbStallNow d

/-! The encoder (R281, R282). -/

/-- Quadrature step from (a, b) to (a', b'): +1, −1 or 0; A leads B forward. -/
def quadStep (a b a' b' : Bool) : Int :=
  if a = a' ∧ b = b' then 0
  else if a ≠ a' then (if a' ≠ b then 1 else -1)
  else (if a = b' then 1 else -1)

/-- A count that sets a new high-water mark: acc takes its value, and the values on the way are reached here. One within 1,000 ns
of the count before it lies outside Table 9.1 and is rejected. (DESIGN CHOICE, log 110) -/
def encHigh (d : Dev) : Dev :=
  let c := d.ctb
  let now := absTick d c.tick
  let cpr := max 1 (d.nat O.ctbEncCpr)
  let gap := now - c.hwAt
  if c.hwRun ≠ 0 ∧ gap < 500 then
    ((d.onCtb fun c => { c with hwAt := now }).bump O.ctbRejects).flag O.ctbFlags 1
  else
    let run := min 3 (c.hwRun + 1)
    let acc := c.base + (c.high.toNat * cycleOne) / cpr
    let inc := if 2 ≤ run ∧ 0 < gap then cycleOne / (cpr * gap) else 0
    let d := d.onCtb fun c => { c with acc := max c.acc acc, hwAt := now, hwGap := if c.hwRun = 0 then c.hwGap else gap, hwRun := run,
                                       inc := inc }
    ctbHere (ctbMark (enterLocked (d.bump O.ctbEdges) 0) (c.acc + 1))

/-- CTB_ENCODER_COUNT: the synchronised levels of EVIO14 and EVIO15 as sampled at tick `t`. (DEDUCED, log 80) -/
def ctbEncoderCount (d : Dev) (t : Nat) (a b : Bool) : Dev :=
  if !ctbOn d ∨ d.nat O.ctbSrc ≠ 4 then d
  else
    let d := ctbTo d t
    let c := d.ctb
    let both := c.encA != a && c.encB != b
    let d := d.onCtb fun c => { c with encA := a, encB := b }
    if both then (d.bump O.ctbEncErrors).flag O.ctbFlags 32
    else
      let s := quadStep c.encA c.encB a b
      if s = 0 then d
      else
        let pos := c.pos + s
        let d := (d.onCtb fun c => { c with pos := pos }).setI O.ctbPosition pos
        let st := ctbState d
        if c.high < pos then
          let d := (d.onCtb fun c => { c with high := pos }).setI O.ctbHighwater pos
          if st = csOff then d else encHigh (if st = csLocked ∨ st = csCoasting then d else d.onCtb fun c => { c with hwRun := 0 })
        else if pos < c.high ∧ (st = csLocked ∨ st = csCoasting ∨ st = csStall) then
          ctbMarked (ctbSet ((d.onCtb fun c => { c with hwRun := 0 }).flag O.ctbFlags 16) csReverse)
        else d

/-! Published values (R273, R276). -/

def ctbFreq (d : Dev) : Nat :=
  let c := d.ctb
  if d.nat O.ctbSrc = 4 then
    (roundDiv (500000000 * 1000000) (c.hwGap * max 1 (d.nat O.ctbEncCpr) : Nat)).toNat
  else (roundShift ((c.incF : Int) * (5 * 10 ^ 14)) 64).toNat
def ctbPeriod (d : Dev) : Nat :=
  let c := d.ctb
  if d.nat O.ctbSrc = 4 then c.hwGap * max 1 (d.nat O.ctbEncCpr) * 2000
  else (roundDiv ((2 : Int) ^ 64 * 2000) c.incF).toNat
def ctbSnapBytes (d : Dev) : Bytes :=
  leBytes 8 (d.ctb.acc / cycleOne) ++ leBytes 2 ((d.ctb.acc / 2 ^ 48) % 65536) ++ leBytes 1 (ctbState d) ++ [0]
  ++ leBytes 4 (ctbFreq d / 1000) ++ leInt 8 (d.stamp (ctbStamp d)) ++ List.replicate 8 0

end Sys2Proof.Machine
end

