-- ==== Sys2Proof/Machine/Tod.lean ====
section
/-! DEFINITION. Time of day and the calendar (chapter 10). -/
namespace Sys2Proof.Machine

def tsUnknown := 0
def tsRtc := 1
def tsFree := 2
def tsLocked := 3
def tsHoldover := 4

def Dev.onTod (d : Dev) (f : Tod → Tod) : Dev := { d with tod := f d.tod }
def todState (d : Dev) : Nat := d.nat O.todState

/-- Nominal rate (R286), units of 2^-32 ns per tick. -/
def todRn : Int := 8589934592
/-- The rate word in force, held through HEATH and STANDBY (R286). -/
def todRate (d : Dev) : Int := todRn + d.tod.f + d.tod.c
/-- The counter runs on the RTC count (R286). -/
def onRtcCount (d : Dev) : Bool := d.nat O.devState == 1 || d.nat O.devState == 5

/-- Counts of the 32.768 kHz oscillator from uptime `a` to uptime `b`. (DESIGN CHOICE, log 117) -/
def rtcCountsIn (a b : Nat) : Nat := b * 32768 / 1000000000 - a * 32768 / 1000000000
/-- `n` counts with the correction of `tod.rtc_trim`, in 0.1 ppm (R289). -/
def trimmed (d : Dev) (n : Int) : Int := n + roundDiv (n * d.int O.todRtcTrim) 10000000
/-- The RTC's count: seconds of its last load, and what it has counted since (R288); not valid, it counts from 0. -/
def rtcTotal (d : Dev) : Int :=
  (match d.tod.rtcLoad with | some t => (t + 500000000) / 1000000000 * 32768 | none => 0) + trimmed d d.tod.rtcRaw
/-- (DESIGN CHOICE, log 117) -/
def rtcShow (d : Dev) : Dev :=
  let n := (rtcTotal d).toNat
  d.onTod fun t => { t with rtcSec := n / 32768, rtcSub := n % 32768 }
/-- The RTC runs from uptime `was` to the present. -/
def rtcRun (d : Dev) (was : Nat) : Dev :=
  let k := rtcCountsIn was d.up
  if k = 0 then d else rtcShow (d.onTod fun t => { t with rtcRaw := t.rtcRaw + k })

/-- The TOD counter through one controller frame of 250 ticks, which has taken the uptime from `was` to the present: by the rate
word, a tick lasting `tick` ps in COAST and RELOCK (Table 18.6), or by 30,517.578125 ns for each RTC count (R286). -/
def todFrame (d : Dev) (tick was : Nat) : Dev :=
  let step := if onRtcCount d then trimmed d (rtcCountsIn was d.up * (131072 * 1000000000))
    else if d.coasting then 250 * todRate d * tick / 2000 else 250 * todRate d
  let x := (d.tod.tf : Int) + step
  d.onTod fun t => { t with t := t.t + x / (2 : Int) ^ 32, tf := (x % (2 : Int) ^ 32).toNat }

/-- R12. -/
def timeValid (t : Int) : Bool := decide (0 ≤ t ∧ t < 106651 * 86400 * 1000000000)
def oneSecond : Int := 1000000000
/-- The second boundary that a boundary command stands for: the next, or one that lies less than two frames back. -/
def secondAt (t : Int) : Int := ((t - 999 + oneSecond - 1) / oneSecond) * oneSecond

/-! Changes (R287). -/

/-- Event, station record and count of a step (1), write (2), offset change (3) or leap (4). -/
def todChanged (d : Dev) (subject : Nat) (before after : Int) : Dev :=
  let d := (d.event 67 d.clk).station 2 subject (leInt 8 before ++ leInt 8 after)
  (d.bump O.todSteps).notifyStation 2 0

/-! Leap seconds (R301-R303). -/

def leapAt (d : Dev) : Int := d.int O.todLeapAt
def leapNeg (d : Dev) : Bool := d.nat O.todLeapDir == 1

def leapApplyNow (d : Dev) : Dev :=
  let old := d.int O.todUtcOffset
  let new := if leapNeg d then old - 1 else old + 1
  let d := ((d.setI O.todUtcOffset new).setI O.todLeapAt 0).bump O.todLeapCount
  todChanged (d.flag O.todFlags 8) 4 old new
/-- LEAP_APPLY: t reaches the instant of the leap that is scheduled. -/
def leapApply (d : Dev) : Dev := if leapAt d = 0 then d else leapApplyNow d
/-- After a step or a write: a leap whose instant is past is applied (R302). -/
def leapCheck (d : Dev) : Dev :=
  let l := leapAt d
  if l = 0 then d
  else if (if leapNeg d then l - oneSecond else l + oneSecond) ≤ d.clk then leapApplyNow d else d

/-! Steps and writes (R295, R297, R298). -/

/-- (DEDUCED, log 81) -/
def todStepApply (d : Dev) : Dev :=
  match d.tod.step with
  | none => d
  | some th =>
    let k := secondAt d.clk
    if d.tod.write.isSome then d.onTod fun t => { t with step := none }
    else
      let d := d.onTod fun t => { t with t := k + th, tf := 0, step := none }
      let d := (d.setI O.todLastStep th).flag O.todFlags 16
      scanStepped (leapCheck (todChanged d 1 (d.stamp k) (k + th)))

/-- The value `v` becomes the time; LOCKED stays LOCKED under a write committed before a source was selected (Table 10.3). -/
def todSetNow (d : Dev) (v : Int) : Dev :=
  let before := d.now
  let old := d.clk
  let st := todState d
  let d := d.onTod fun t => { t with t := v, tf := 0, f := 0, c := 0, write := none }
  let d := if st = tsHoldover then d.setN O.todHoldoverTime (d.up - d.tod.holdAt) else d
  let d := ((d.setN O.todState (if st = tsLocked then st else tsFree)).setB O.todSetPending false).flag O.todFlags 2
  let d := d.setI O.todLastStep (v - old)
  scanStepped (leapCheck (todChanged d 2 before v))

def todWriteApply (d : Dev) : Dev :=
  match d.tod.write with
  | none => d
  | some v => (todSetNow d v).onTod fun t => { t with step := none }

/-- A write accepted under the mode (R297, R298). -/
def todSetValue (d : Dev) (v : Int) : Dev :=
  if d.nat O.todSetMode = 1 then todSetNow d v
  else (d.onTod fun t => { t with write := some v }).setB O.todSetPending true

def todSet (d : Dev) (v : Int) : Eff :=
  if todState d = tsLocked then refuse aState
  else if !timeValid v then refuse aTime
  else if d.nat O.todSetMode = 0 ∧ v % oneSecond ≠ 0 then refuse aRange
  else .ok (todSetValue d v)

def todCancel (d : Dev) : Dev := (d.onTod fun t => { t with write := none }).setB O.todSetPending false

/-! The calendar (R300, R303). -/

structure Civil where
  year : Nat
  month : Nat
  day : Nat
  deriving DecidableEq, Repr

/-- The Gregorian date of day `n`, day 0 being 2000-01-01. -/
def civilOf (n : Nat) : Civil :=
  let z := n + 730425
  let era := z / 146097
  let doe := z % 146097
  let yoe := (doe - doe / 1460 + doe / 36524 - doe / 146096) / 365
  let doy := doe - (365 * yoe + yoe / 4 - yoe / 100)
  let mp := (5 * doy + 2) / 153
  let m := if mp < 10 then mp + 3 else mp - 9
  { year := yoe + era * 400 + (if m ≤ 2 then 1 else 0), month := m, day := doy - (153 * mp + 2) / 5 + 1 }
/-- Day number of a date from 2000 on. -/
def dayOf (c : Civil) : Nat :=
  let y := if c.month ≤ 2 then c.year - 1 else c.year
  let era := y / 400
  let yoe := y % 400
  let mp := if c.month ≤ 2 then c.month + 9 else c.month - 3
  let doy := (153 * mp + 2) / 5 + c.day - 1
  era * 146097 + yoe * 365 + yoe / 4 - yoe / 100 + doy - 730425

def leapYear (y : Nat) : Bool := y % 4 == 0 && y != 2100 && y != 2200
def daysIn (y m : Nat) : Nat :=
  if m = 2 then (if leapYear y then 29 else 28) else if m = 4 ∨ m = 6 ∨ m = 9 ∨ m = 11 then 30 else 31

/-- A leap second is scheduled and t lies in it. -/
def inLeap (d : Dev) (t : Int) : Bool := leapAt d != 0 && !leapNeg d && decide (leapAt d ≤ t ∧ t < leapAt d + oneSecond)

/-- The bytes of Table 10.5 at time `t`. -/
def calendarBytes (d : Dev) (t : Int) : Bytes :=
  let leap := inLeap d t
  let u := t - d.int O.todUtcOffset * oneSecond
  let u := if leap then leapAt d - d.int O.todUtcOffset * oneSecond - 1 else u
  let s := (u / oneSecond).toNat
  let day := s / 86400
  let c := civilOf day
  let r := s % 86400
  let ns := if leap then t - leapAt d else u % oneSecond
  let sec := if leap then 60 else r % 60
  leBytes 2 c.year ++ leBytes 1 c.month ++ leBytes 1 c.day ++ leBytes 1 (r / 3600) ++ leBytes 1 (r / 60 % 60) ++ leBytes 1 sec
  ++ leBytes 1 ((day + 5) % 7 + 1) ++ leInt 4 ns ++ leBytes 2 (day - dayOf ⟨c.year, 1, 1⟩ + 1) ++ leInt 2 (d.int O.todUtcOffset)

/-- `tod.snap` (R299). -/
def todSnapBytes (d : Dev) : Bytes :=
  let t := d.clk
  let st := todState d
  let unknown := st == tsUnknown
  let flags := 128 * b2n unknown + 64 * b2n (leapAt d != 0) + 32 * b2n (leapAt d != 0 && leapNeg d)
    + 16 * b2n (!unknown && inLeap d t) + st
  (if unknown then leInt 8 i64Min ++ List.replicate 16 0 else leInt 8 t ++ calendarBytes d t)
  ++ leBytes 1 flags ++ leBytes 1 (d.nat O.todSrc) ++ List.replicate 6 0

/-- R300: the TIME64 that 16 bytes of Table 10.6 spell. -/
def calendarValue (d : Dev) (b : Bytes) : Option Int :=
  let y := leField b 0 2
  let mo := leField b 2 1
  let dy := leField b 3 1
  let h := leField b 4 1
  let mi := leField b 5 1
  let s := leField b 6 1
  let scale := leField b 7 1
  let ns := leField b 8 4
  let fields := decide (2000 ≤ y ∧ y ≤ 2291) && decide (1 ≤ mo ∧ mo ≤ 12) && decide (1 ≤ dy ∧ dy ≤ daysIn y mo) && decide (h ≤ 23)
    && decide (mi ≤ 59) && decide (s ≤ 60) && decide (ns ≤ 999999999) && decide (scale ≤ 1)
    && (d.nat O.todSetMode == 1 || ns == 0)
  if !fields then none
  else
    let secs : Int := dayOf ⟨y, mo, dy⟩ * 86400 + h * 3600 + mi * 60 + s
    let off := if scale = 0 then d.int O.todUtcOffset else 0
    let t := (secs + off) * oneSecond + ns
    let leap60 := scale == 0 && h == 23 && mi == 59 && leapAt d != 0 && !leapNeg d
      && decide ((secs + off) * oneSecond = leapAt d)
    let omitted := scale == 0 && leapAt d != 0 && leapNeg d && decide (leapAt d - oneSecond ≤ t ∧ t < leapAt d)
    if (s = 60 ∧ ¬ leap60) ∨ omitted ∨ ¬ timeValid t then none else some t

def todCalSet (d : Dev) (b : Bytes) : Eff :=
  if b.length ≠ 16 then refuse aLength
  else if !allZero (slice b 12 4) then refuse aRange
  else if todState d = tsLocked then refuse aState
  else match calendarValue d b with
    | none => refuse aTime
    | some t => .ok (todSetValue d t)

/-! UTC offset and leap schedule (R301, R304). -/

/-- Offset and leaps come from the time source. -/
def utcFromSource (d : Dev) : Bool := d.nat O.todUtcSrc == 1 && (d.nat O.todSrc == 1 || d.nat O.todSrc == 2)

/-- R301 for L on the values given. -/
def leapOk (d : Dev) (l offset : Int) : Bool :=
  l == 0 ||
  (let u := l - offset * oneSecond
   decide (l % oneSecond = 0) && decide (d.clk + 2 * oneSecond ≤ l) && decide (0 ≤ u) && decide (u % (86400 * oneSecond) = 0)
   && (civilOf (u / (86400 * oneSecond)).toNat).day == 1)

/-- First instant of the day after that of `t`, in UTC. -/
def nextMidnight (d : Dev) (t : Int) : Int :=
  let off := d.int O.todUtcOffset * oneSecond
  ((t - off) / (86400 * oneSecond) + 1) * (86400 * oneSecond) + off

/-- Offset and leap flags taken from the selected source (R304): `leap` 0 none, 1 positive, 2 negative. -/
def utcAdopt (d : Dev) (offset : Option Int) (leap : Nat) : Dev :=
  if d.nat O.todUtcSrc ≠ 1 then d
  else
    let d := match offset with
      | some v => if v = d.int O.todUtcOffset then d else todChanged (d.setI O.todUtcOffset v) 3 (d.int O.todUtcOffset) v
      | none => d
    if leapAt d ≠ 0 ∧ leapAt d ≤ d.clk then d
    else if leap = 0 then (if leapAt d = 0 then d else d.setI O.todLeapAt 0)
    else if leapAt d = 0 ∨ d.nat O.todLeapDir ≠ leap - 1 then
      (d.setI O.todLeapAt (nextMidnight d d.clk)).setN O.todLeapDir (leap - 1)
    else d

/-- With Hedgerow selected the head's values are taken, as free values. (DESIGN CHOICE, log 44) -/
def utcFromHead (d : Dev) : Dev :=
  if d.nat O.todUtcSrc ≠ 1 ∨ d.nat O.todSrc ≠ 1 then d
  else
    let k := d.draws
    utcAdopt { d with draws := k + 1 } (some (clampI 0 1000 (Config.headUtcOffset k))) (min 2 (Config.headLeap k))

/-! Sources (R291-R296). -/

def srcOrder (d : Dev) : List Nat :=
  let w := d.nat O.todSrcOrder
  [bits w 11 8, bits w 7 4, bits w 3 0].filter (· != 0)
def srcQualified (d : Dev) (s : Nat) : Bool := bit (d.nat O.todQual) s
/-- Position in the order; 3 when absent. -/
def srcRank (d : Dev) (s : Nat) : Nat := (srcOrder d).findIdx (· == s)
def bestSource (d : Dev) : Option Nat := (srcOrder d).find? (srcQualified d)

/-- No source is selected in HEATH and STANDBY, nor in BOOT. -/
def todSelects (d : Dev) : Bool := decide (2 ≤ d.nat O.devState ∧ d.nat O.devState ≤ 4)

/-- Selection of source `s` (R293, Table 10.3). (DEDUCED, log 81) -/
def selectSource (d : Dev) (s : Nat) : Dev :=
  let st := todState d
  let d := (d.setN O.todSrc s).flag O.todFlags 4
  let d := if st = tsHoldover then d.setN O.todHoldoverTime (d.up - d.tod.holdAt) else d
  let d := d.onTod fun t => { t with first := t.first || st != tsLocked,
                                     lockAt := if st = tsLocked then t.lockAt else d.up }
  d.setN O.todState tsLocked

/-- τ in ticks of 2 ns: 1 ms, the Sync interval, 1 s (Table 10.1); the Sync interval of PTP is 2^logSync s.
(DEDUCED, log 81) -/
def tauTicks (d : Dev) (s : Nat) : Int :=
  if s = 1 then 500000
  else if s = 2 then
    let k := d.int O.netPtpLogSync
    if 0 ≤ k then 500000000 * (2 : Int) ^ k.toNat else 500000000 / (2 : Int) ^ (-k).toNat
  else 500000000

/-- R294. -/
def todDiscipline (d : Dev) (s : Nat) (th : Int) : Dev :=
  let fmax := roundDiv (todRn * d.int O.todSlewMax) 1000000
  let g := roundDiv (th * (2 : Int) ^ 32) (tauTicks d s)
  d.onTod fun t => { t with f := clampMM (-fmax) fmax (t.f + roundShift g (d.nat O.todLoopB)),
                            c := clampMM (-fmax) fmax (roundShift g (d.nat O.todLoopA)) }

/-- A sample of the selected source (R294, R295). (DEDUCED, log 81) -/
def todUse (d : Dev) (s : Nat) (th : Int) : Dev :=
  let d := d.setI O.todOffset th
  let lim := d.int O.todStepThresh
  if d.tod.first then d.onTod fun t => { t with first := false, step := some th }
  else if absI th < lim then (if d.tod.step.isSome then d else todDiscipline d s th)
  else if d.on O.todStepEnable then d.onTod fun t => { t with step := some th }
  else if d.tod.step.isSome then d
  else todDiscipline d s (clampI (-(lim - 1)) (lim - 1) th)

def TimeSample.src : TimeSample → Nat
  | .ring => 1
  | .ptp _ _ _ => 2
  | .pps _ => 3

/-- The offset, or none where Table 10.1 rejects; the flag marks PPS_AMBIG. -/
def sampleOffset (d : Dev) (x : TimeSample) : Option Int × Bool :=
  match x with
  | .ring => (if (d.nat O.hlState = 3 ∨ d.nat O.hlState = 4) ∧ !d.hl.head then d.hl.markMean else none, false)
  | .ptp sec ns t =>
    let m := ((sec : Int) - 946684800) * oneSecond + ns
    (if timeValid m ∧ ns < 1000000000 ∧ bit (d.nat O.pmuPdState) 23 then some (m - t) else none, false)
  | .pps e =>
    let dl := d.int O.todPpsDelay
    let s := ((e - dl + oneSecond / 2) / oneSecond) * oneSecond
    let th := s + dl - e
    let ambig := decide (400000000 < absI th)
    (if ambig ∨ todState d = tsUnknown ∨ ¬ bit (d.nat O.pmuPdState) 16 then none else some th, ambig)

/-- TOD_SAMPLE; an interval that passes without an accepted sample breaks the run (R292). (DESIGN CHOICE, log 82) -/
def todSample (d : Dev) (x : TimeSample) : Dev :=
  if d.coasting then d else
  let s := x.src
  let (th, ambig) := sampleOffset d x
  if x = .ring ∧ d.hl.markMean = none ∧ (d.nat O.hlState = 3 ∨ d.nat O.hlState = 4) ∧ !d.hl.head then d else
  let d := if x = .ring then { d with hl := { d.hl with markMean := none } } else d
  let r := d.tod.srcs[s]?.getD {}
  let setR := fun (y : Dev) (r : TodSrc) => y.onTod fun t => { t with srcs := t.srcs.setIfInBounds s r }
  match th with
  | none =>
    let d := (d.bump O.todRejects).flag O.todFlags (if ambig then 65 else 1)
    setR d { r with run := 0 }
  | some th =>
    let run := if 0 < r.run ∧ r.lastAt + 3 * (tauTicks d s).toNat < d.up then 1 else r.run + 1
    let was := srcQualified d s
    let wasSel := d.nat O.todSrc == s
    let now := was || decide (d.nat O.todQualN ≤ run)
    let d := setR d { run := run, since := if was then r.since else d.up, lastAt := d.up }
    let d := if now then d.setN O.todQual (setBit (d.nat O.todQual) s) else d
    let d := if wasSel then todUse d s th
      else if d.nat O.todSrc = 0 ∧ now ∧ srcRank d s < (srcOrder d).length ∧ todSelects d then selectSource d s
      else d
    if x = .ring then utcFromHead d else d

/-- The selected source is gone: another qualified one is selected, or TOD goes to HOLDOVER (R293, Table 10.3). -/
def todReselect (d : Dev) : Dev :=
  match bestSource d with
  | some b => selectSource d b
  | none =>
    let d := (d.onTod fun t => { t with c := 0, holdAt := d.up, holdSrc := d.nat O.todSrc, step := none }).setN O.todSrc 0
    let d := (d.setN O.todState tsHoldover).setN O.todHoldoverTime 0
    (d.flag O.todFlags 36).raise 56 0 2 0

/-- TOD_SOURCE_LOSS (R292, R293). -/
def todSourceLoss (d : Dev) (s : Nat) : Dev :=
  let d := (d.onTod fun t => { t with srcs := t.srcs.setIfInBounds s {} }).setN O.todQual (clrBit (d.nat O.todQual) s)
  if d.nat O.todSrc ≠ s ∨ s = 0 then d else todReselect d

/-- A write of `tod.src_order`: a selected source that the list no longer holds is left (R293). -/
def srcOrderEff (d : Dev) : Dev :=
  let s := d.nat O.todSrc
  if s = 0 then (match bestSource d with | some b => if todSelects d then selectSource d b else d | none => d)
  else if (srcOrder d).contains s then d else todReselect d

/-- TOD_SWITCH_HOLDOFF (R293). -/
def todSwitchHoldoff (d : Dev) (s : Nat) : Dev :=
  if srcQualified d s ∧ s ≠ 0 ∧ d.nat O.todSrc ≠ 0 ∧ srcRank d s < srcRank d (d.nat O.todSrc) ∧ todSelects d then selectSource d s
  else d

def todHoldoverExpiry (d : Dev) : Dev :=
  if todState d = tsHoldover then
    (d.setN O.todHoldoverTime (d.up - d.tod.holdAt)).setN O.todState tsFree
  else d

/-- Entry into HEATH or STANDBY (Table 10.3). -/
def todOnRtc (d : Dev) : Dev :=
  let d := if todState d = tsHoldover then d.setN O.todHoldoverTime (d.up - d.tod.holdAt) else d
  let d := if d.nat O.todSrc = 0 then d else d.flag O.todFlags 4
  let d := (d.setN O.todSrc 0).onTod fun t => { t with first := false, step := none }
  if todState d = tsUnknown then d else d.setN O.todState tsRtc

/-- On leaving HEATH a source that stayed qualified is selected. -/
def todResume (d : Dev) : Dev :=
  match bestSource d with
  | some b => if d.nat O.todSrc = 0 ∧ todSelects d then selectSource d b else d
  | none => d

/-- (DEDUCED, log 81) -/
def todSecond (d : Dev) : Dev := d.event 66 (secondAt d.clk)

/-! The RTC (R288-R290). -/

/-- A load from TOD at a second boundary; `counts` are the crystal counts since the last load (R289). -/
def rtcLoadNow (d : Dev) (counts : Nat) : Dev :=
  let dt := match d.tod.rtcLoad with | some t => d.clk - t | none => 0
  let trims := d.on O.todRtcAutotrim && decide (todState d = tsLocked) && decide (d.tod.lockAt + 3600000000000 ≤ d.up)
    && decide (0 < counts) && decide (0 < dt)
  let dr := (counts : Int) * oneSecond
  let d := if trims then
      d.setI O.todRtcTrim (clampI (-1000) 1000 (roundDiv ((dt * 32768 - dr) * 10000000) dr)) else d
  rtcShow ((d.onTod fun t => { t with rtcRaw := 0, rtcLoad := some t.t }).setB O.todRtcValid true)
/-- (DEDUCED, log 81) -/
def rtcLoad (d : Dev) (counts : Nat) : Dev :=
  if todState d = tsLocked ∨ todState d = tsFree then rtcLoadNow d counts else d

/-- The valid bit is cleared (R288). -/
def rtcInvalid (d : Dev) : Dev :=
  (d.onTod fun t => { t with rtcSec := 0, rtcSub := 0, rtcRaw := 0, rtcLoad := none }).setB O.todRtcValid false

/-- PD0 is powered up (R290), `counts` crystal counts after the last load: its oscillator has stopped where there are none
(R288). (DESIGN CHOICE, log 117) -/
def todPowerUp (d : Dev) (counts : Nat) : Dev :=
  let d := if counts = 0 then rtcInvalid d else d
  let d := rtcShow (d.onTod fun t => { ({} : Tod) with rtcRaw := counts, rtcLoad := t.rtcLoad })
  if d.on O.todRtcValid then
    let total := ((d.tod.rtcSec * 32768 + d.tod.rtcSub : Nat) : Int)
    (d.onTod fun t => { t with t := total * oneSecond / 32768 }).setN O.todState tsRtc
  else ((d.setN O.todState tsUnknown).flag O.todFlags 128).raise 56 0 1 0

/-- `tod.freq_adj` in ppb. -/
def todFreqAdj (d : Dev) : Int := roundDiv (d.tod.f * 1000000000) todRn
def todHoldover (d : Dev) : Nat :=
  if todState d = tsHoldover then d.up - d.tod.holdAt else d.nat O.todHoldoverTime

end Sys2Proof.Machine
end

