-- ==== Sys2Proof/Machine/Tiu.lean ====
section
/-! DEFINITION. The timing inputs and the interval measurement units (chapter 11). -/
namespace Sys2Proof.Machine

def Dev.tdc (d : Dev) (k : Nat) : Tdc := d.tdcs[k]?.getD {}
def Dev.setTdc (d : Dev) (k : Nat) (x : Tdc) : Dev := { d with tdcs := d.tdcs.setIfInBounds k x }
def tiuOn (d : Dev) : Bool := bit (d.nat O.pmuPdState) 16

/-! Refusals by state (R310, R314, R320, R321). -/

/-- The input times the CTB or time of day. -/
def tinBusy (d : Dev) (k : Nat) : Bool :=
  ((d.nat O.ctbSrc == 1 || d.nat O.ctbSrc == 3) && d.nat O.ctbTin == k && (ctbState d == csLocked || ctbState d == csCoasting))
  || (d.nat O.todPpsTin == k && srcQualified d 3)
/-- A point in mode 4 holds input `k`. -/
def tinHeld (d : Dev) (k : Nat) : Bool :=
  d.psc.runs.any fun e => decide (2 ≤ d.nat O.ptState e.1) && e.2.cfg.mode == 4 && e.2.cfg.tin == k
def tdcBusy (d : Dev) (k : Nat) : Bool := let st := d.nat O.tiuMState k; decide (1 ≤ st ∧ st ≤ 3)

/-! Measurement units (R317-R319). -/

/-- The unit ends with a status. -/
def tdcEnd (d : Dev) (k status : Nat) : Dev := (d.setN O.tiuMState 4 k).setN O.tiuMStatus status k

/-- Table 11.2, ARM: results cleared, calibration begins at tick `t` of the present frame. -/
def tdcArmNow (d : Dev) (k t : Nat) (gate : Bool) : Dev :=
  let d := d.setTdc k { armTick := absTick d t, armTime := d.clk + 2 * t, armedAt := d.up, byGate := gate }
  let d := (((d.setN O.tiuMResult 0 k).setN O.tiuMSpan 0 k).setN O.tiuMCount 0 k).setI O.tiuMTFirst i64Min k
  (d.setN O.tiuMStatus 0 k).setN O.tiuMState 1 k

def tdcArm (d : Dev) (k t : Nat) : Eff :=
  if tinHeld d k ∨ tdcBusy d k then refuse aState else .ok (tdcArmNow d k t false)
def tdcStop (d : Dev) (k : Nat) : Eff :=
  if tinHeld d k then refuse aState else .ok ((d.setN O.tiuMState 0 k).setN O.tiuMStatus 5 k)

/-- The 64-tick calibration ends with its two code sums (R318). -/
def tdcCalDone (d : Dev) (k : Nat) (k1 k2 : Nat) : Dev :=
  if d.nat O.tiuMState k ≠ 1 then d
  else
    let d := (d.setTdc k { d.tdc k with k1 := k1, k2 := k2 }).setN O.tiuMCal (k2 * 2 ^ 32 + k1) k
    if (k1 : Int) + 6144 ≤ k2 ∧ (k2 : Int) ≤ k1 + 10240 then d.setN O.tiuMState 2 k
    else ((tdcEnd d k 4).flag O.tiuMFlags 2 k).raise 57 0 2 k

def tdcTimeout (d : Dev) (k : Nat) : Dev :=
  let st := d.nat O.tiuMState k
  if st = 2 ∨ st = 3 then tdcEnd d k 2 else d

/-- T of a capture (R318), ps since the ARM. -/
def captureT (x : Tdc) (stop code : Nat) : Int :=
  let f := 2000 + roundDiv ((16 * (code : Int) - x.k1) * 2000) (x.k2 - x.k1)
  2000 * ((stop : Int) - x.armTick) - f

/-- The measurement is complete: result, span and count (Table 11.1), event, judgement (R243, R320). -/
def tdcDone (d : Dev) (k : Nat) (result span count : Int) : Dev :=
  let x := d.tdc k
  let d := (((tdcEnd d k 1).setI O.tiuMResult result k).setI O.tiuMSpan span k).setI O.tiuMCount count k
  let d := (d.bump O.tiuMDone k).event (16 + k) x.stamp
  if d.nat O.tiuMMode k = 1 ∧ d.nat O.tiuMGate k = 1 ∧ x.byGate then judgePeriod d k x.armedAt result else d

/-- t_first of the first used edge. (DESIGN CHOICE, log 82) -/
def tdcFirst (d : Dev) (k : Nat) (x : Tdc) (t : Int) : Dev :=
  d.setI O.tiuMTFirst (d.stamp (x.armTime + roundDiv t 1000)) k

/-- An edge of input `tin` (rising or not, stamp, stop tick and code) as unit `k` sees it. -/
def tdcEdge (tin : Nat) (rising : Bool) (stamp : Int) (stop code k : Nat) (d : Dev) : Dev :=
  let st := d.nat O.tiuMState k
  if st ≠ 2 ∧ st ≠ 3 then d
  else
    let x := d.tdc k
    let mode := d.nat O.tiuMMode k
    let own := tin == k && (rising == (d.nat O.tiuMSlope k == 0))
    let t := captureT x stop code
    if st = 2 then
      if !own then d
      else
        let skip := if mode = 1 then d.nat O.tiuMSkip k else 0
        let d := d.setTdc k { x with seen := 1, t0 := t, tl := t, stamp := stamp }
        let d := if skip = 0 then tdcFirst d k x t else d
        d.setN O.tiuMState 3 k
    else if mode = 0 then
      let stopEdge := tin == d.nat O.tiuMStopTin k && (rising == (d.nat O.tiuMStopSlope k == 0))
      if stopEdge && decide (x.t0 < t) then
        tdcDone (d.setTdc k { x with seen := 2, tl := t, stamp := stamp }) k (t - x.t0) (t - x.t0) 2
      else d
    else if mode = 3 then
      if tin = k ∧ ¬ own then tdcDone (d.setTdc k { x with seen := 2, tl := t, stamp := stamp }) k (t - x.t0) (t - x.t0) 2 else d
    else if !own then d
    else if mode = 1 then
      let skip := d.nat O.tiuMSkip k
      let per := max 1 (d.nat O.tiuMPeriods k)
      let y := { x with seen := x.seen + 1, t0 := if x.seen = skip then t else x.t0, tl := t, stamp := stamp }
      let d := d.setTdc k y
      let d := if x.seen = skip then tdcFirst d k x t else d
      if x.seen = skip + per then tdcDone d k (roundDiv (t - y.t0) per) (t - y.t0) (per + 1) else d
    else if t - x.t0 ≤ d.int O.tiuMWindow k * 1000 then d.setTdc k { x with seen := x.seen + 1, tl := t, stamp := stamp }
    else d

/-- The frequency window ends (R319). -/
def tdcWindowEnd (d : Dev) (k : Nat) : Dev :=
  if d.nat O.tiuMState k ≠ 3 ∨ d.nat O.tiuMMode k ≠ 2 then d
  else
    let x := d.tdc k
    if x.seen < 2 then tdcEnd d k 6
    else tdcDone d k (roundDiv (((x.seen : Int) - 1) * (10 : Int) ^ 18) (x.tl - x.t0)) (x.tl - x.t0) x.seen

/-! Inputs (R307-R315). -/

/-- The comparator output at an input of `uv` microvolts, after the output `was` (R306). -/
def comparator (thresh hyst : Nat) (uv : Int) (was : Bool) : Bool :=
  if (2 * (thresh : Int) + hyst) * 3300000 < 2046 * uv then true
  else if 2046 * uv < (2 * (thresh : Int) - hyst) * 3300000 then false else was

/-- One CLK_LCE tick: the synchroniser delays the comparator output by two ticks (R307). -/
def Tin.clock (x : Tin) (n : Nat) (uv : Int) (cmp : Bool) : Tin :=
  { x with uv := uv, cmp := cmp, first := x.cmp, raw := x.first, last := n, rise := if x.first && !x.raw then n else x.rise,
           fall := if x.raw && !x.first then n else x.fall }
/-- One CLK_PER sample, and the filtered level: that of at least 3 of the last 5 samples (R307). -/
def Tin.sample (x : Tin) : Tin := { x with taps := (x.raw :: x.taps).take 5 }
def Tin.level (x : Tin) : Bool := decide (3 ≤ x.taps.count true)

/-- A filtered edge of input `k` and what it delivers: its direction, edge time, and the capture of the transition that made it. -/
def tinFiltered (d : Dev) (k : Nat) (rising : Bool) (stamp : Int) (stop code : Nat) : Dev :=
  let d := d.setB O.tiuInLevel rising k
  if d.nat O.tiuInState k = 1 then d
  else
    let d := if d.nat O.tiuInState k = 2 then d.setN O.tiuInState 0 k else d
    let d := forUpto 8 (tdcEdge k rising stamp stop code) d
    let sl := d.nat O.tiuInSlope k
    if sl ≠ 2 ∧ rising ≠ (sl == 0) then d
    else
      let d := if k < 6 then d.setB O.tiuInLatch true k else d.flag O.tiuInFlags (if rising then 1 else 2) k
      let d := ((d.bump O.tiuInEdges k).setI O.tiuInLastEdge (d.stamp stamp) k).event (2 + k) stamp
      if k < 6 then { d with erm := { d.erm with latStamp := tabSet 0 d.erm.latStamp k stamp } } else d

def Dev.tin (d : Dev) (k : Nat) : Tin := d.tins[k]?.getD {}
def Dev.setTin (d : Dev) (k : Nat) (x : Tin) : Dev := { d with tins := d.tins.setIfInBounds k x }

/-- The next tick of input `k`, at `uv` microvolts; every fifth tick of the frame is a CLK_PER sample. A change of the
filtered level is an edge at the last raw transition into the new level, less 2 ticks (R308). (DESIGN CHOICE, log 82) -/
def tinTick (k code : Nat) (d : Dev) (uv : Int) : Dev :=
  let n := (d.tin k).last + 1
  let x := (d.tin k).clock n uv (comparator (d.nat O.tiuInThresh k) (d.nat O.tiuInHyst k) uv (d.tin k).cmp)
  if (n + 4 * (d.up / 2)) % 5 ≠ 0 then d.setTin k x
  else
    let x := x.sample
    let d := d.setTin k x
    if x.level = d.on O.tiuInLevel k then d
    else
      let stop := if x.level then x.rise else x.fall
      tinFiltered d k x.level (d.clk + 2 * ((stop : Int) - 2 - absTick d 0)) stop code

/-- `m` ticks with the input where it is: after 32 of them nothing changes any more. -/
def tinHold (k code : Nat) (d : Dev) (m : Nat) : Dev :=
  let n := (d.tin k).last + m
  let d := forUpto (min m 32) (fun _ d => tinTick k code d (d.tin k).uv) d
  d.setTin k { d.tin k with last := n }

/-- TIN_EDGE: the input stood where it was, took the voltages `uv` at successive ticks, and held the last for `back` ticks to
`tick`: the comparator, synchroniser and filter make the edge (R306-R308). (DESIGN CHOICE, log 82) -/
def tinEdge (d : Dev) (k : Nat) (uv : List Int) (tick back code : Nat) : Dev :=
  if !tiuOn d then d
  else
    let n := absTick d tick
    let d := tinHold k code d (n - back - uv.length - (d.tin k).last)
    let d := uv.foldl (tinTick k code) d
    tinHold k code d (n - (d.tin k).last)

/-- TIN_OVERRATE (R311, Table 11.2). -/
def tinOverrate (d : Dev) (k : Nat) : Dev :=
  if !tiuOn d ∨ d.nat O.tiuInState k = 1 then d
  else
    let d := ((d.setN O.tiuInState 1 k).flag O.tiuInFlags 4 k).bump O.tiuInOverrates k
    forUpto 8 (fun j x =>
      let st := x.nat O.tiuMState j
      let uses := j == k || (x.nat O.tiuMMode j == 0 && x.nat O.tiuMStopTin j == k)
      if uses && (st == 2 || st == 3) then tdcEnd x j 3 else x) d
def tinOverrateEnd (d : Dev) (k : Nat) : Dev := if d.nat O.tiuInState k = 1 then d.setN O.tiuInState 0 k else d

/-- The filtered level is the active one (R312). -/
def tinActive (d : Dev) (k : Nat) : Bool :=
  let s := d.nat O.tiuInSlope k
  s == 2 || (d.on O.tiuInLevel k == (s == 0))
def tinStuck (d : Dev) (k : Nat) : Dev :=
  if !tiuOn d ∨ d.nat O.tiuInStuck k = 0 ∨ d.nat O.tiuInState k ≠ 0 ∨ ¬ tinActive d k then d
  else ((d.setN O.tiuInState 2 k).flag O.tiuInFlags 8 k).raise 57 0 1 k

def tinLatchTimeout (d : Dev) (k : Nat) : Dev :=
  if d.nat O.tiuInLatchClr k = 1 ∧ k < 6 then d.setB O.tiuInLatch false k else d
def tinLatchClear (d : Dev) (k : Nat) : Eff := if 6 ≤ k then refuse aRange else .ok (d.setB O.tiuInLatch false k)

/-- PD16 is switched off (Table 11.2). -/
def tiuOff (d : Dev) : Dev :=
  forUpto 8 (fun k x => if x.nat O.tiuMState k = 0 then x else (x.setN O.tiuMState 0 k).setN O.tiuMStatus 5 k) d

end Sys2Proof.Machine
end

