-- ==== Sys2Proof/Machine/Erm.lean ====
section
/-! DEFINITION. The event routing matrix (chapter 12): producers, selectors, consumers, logic cells and event pins. -/
namespace Sys2Proof.Machine

def ermOn (d : Dev) : Bool := bit (d.nat O.pmuPdState) 20
def Dev.lut (d : Dev) (k : Nat) : Lut := d.erm.luts[k]?.getD {}
def Dev.setLut (d : Dev) (k : Nat) (x : Lut) : Dev := { d with erm := { d.erm with luts := d.erm.luts.setIfInBounds k x } }

/-- The signal a selector takes from the producers' signals `sig` (R326). -/
def selSignal (sig sel : Nat) : Bool := bit sig (sel % 256) != bit sel 15

/-- Consumer inputs that act on an edge, and those that follow the signal (Table 12.2). (DESIGN CHOICE, log 84) -/
def levelInput (c : Nat) : Bool := decide (148 ≤ c ∧ c ≤ 179)

/-! Issue of events (R322-R324). -/

/-- Producers whose events keep the instant of their unit; every other is stamped with the start of its cycle (R324).
(DESIGN CHOICE, log 82) -/
def ownStamp (p : Nat) : Bool := decide (2 ≤ p ∧ p ≤ 9) || decide (16 ≤ p ∧ p ≤ 23) || decide (40 ≤ p ∧ p ≤ 64) || p == 66

/-- One pass over the events due: `kept` those deferred, with their stamps. -/
structure Issue where
  now : Nat := 0
  held : Nat := 0
  kept : List (Nat × Int) := []
  stamps : Tab Int
  deferred : Nat := 0
  dropped : Nat := 0

/-- An event due in the cycle that starts at `t` is issued, deferred by one cycle, dropped, or one with another (R323). -/
def issueOne (t : Int) (last held : Nat) (x : Issue) (e : Nat × Int) : Issue :=
  let p := e.1
  let st := if bit held p || ownStamp p then e.2 else t
  if bit x.now p then (if bit held p then { x with dropped := x.dropped + 1 } else x)
  else if bit last p then
    if bit x.held p then { x with dropped := x.dropped + 1 }
    else { x with held := setBit x.held p, kept := x.kept ++ [(p, st)], deferred := x.deferred + 1 }
  else { x with now := setBit x.now p, stamps := tabSet 0 x.stamps p st }

/-- (DESIGN CHOICE, log 84) -/
def ermIssue (d : Dev) (t : Int) : Dev :=
  let e := d.erm
  let x := e.due.foldl (issueOne t e.issued e.held) { stamps := e.stamps }
  let d := { d with erm := { e with due := x.kept, held := x.held, issued := x.now, stamps := x.stamps } }
  (d.bump O.ermDeferred 0 0 x.deferred).bump O.ermDropped 0 0 x.dropped

/-! Event pins (R331). -/

/-- The level on pin `p`: what drives it, or what is applied to it. -/
def pinLevel (d : Dev) (p : Nat) : Bool :=
  let dir := d.nat O.ermEvioDir p
  if dir = 1 then bit d.erm.drive p
  else if dir = 2 then bit d.erm.drive p && bit d.erm.pins p
  else bit d.erm.pins p

/-- The synchroniser of pin `p` at the edge that begins the cycle at `t`. -/
def evioSync (t : Int) (p : Nat) (d : Dev) : Dev :=
  let e := d.erm
  let old := bit e.sync1 p
  let d := if old = d.on O.ermEvioLevel p then d else
    let d := (d.setB O.ermEvioLevel old p).bump O.ermEvioChanges p
    { d with erm := { d.erm with stamps := tabSet 0 d.erm.stamps (24 + p) (tabGet 0 d.erm.syncAt p) } }
  let lvl := pinLevel d p
  if lvl = old then d
  else { d with erm := { d.erm with sync1 := putBit d.erm.sync1 p lvl, syncAt := tabSet 0 d.erm.syncAt p t } }

/-- EVIO_PIN_CHANGE: the level applied to a pin from outside; the synchroniser takes it at its next two edges (R325).
(DESIGN CHOICE, log 84) -/
def evioPin (d : Dev) (p : Nat) (level : Bool) : Dev := { d with erm := { d.erm with pins := putBit d.erm.pins p level } }

/-- Output consumer `p`: `now` its signal, `rise` a rising edge of it. -/
def evioOut (now rise : Bool) (p : Nat) (d : Dev) : Dev :=
  if d.nat O.ermEvioDir p = 0 then d
  else
    let e := d.erm
    let mode := d.nat O.ermEvioOutMode p
    if mode = 0 then { d with erm := { e with drive := putBit e.drive p now } }
    else if !rise then d
    else if mode = 1 then { d with erm := { e with drive := setBit e.drive p, pulse := setBit e.pulse p } }
    else { d with erm := { e with drive := putBit e.drive p (!bit e.drive p) } }

/-- EVIO_PULSE_END: the width of a pulse has elapsed. -/
def evioPulseEnd (d : Dev) (p : Nat) : Dev :=
  if bit d.erm.pulse p then
    { d with erm := { d.erm with pulse := clrBit d.erm.pulse p,
                                 drive := if d.nat O.ermEvioOutMode p = 1 then clrBit d.erm.drive p else d.erm.drive } }
  else d

/-! Logic cells (R329, R330). -/

/-- The first `n` of a filter history are all `b`; entries never made are 0. -/
def allAgree (b : Bool) (h : List Bool) (n : Nat) : Bool := (List.range n).all fun k => h.getD k false == b

/-- Cell `k` in the cycle at `t`, from the signals `sig` that it sees. (DESIGN CHOICE, log 84) -/
def lutCycle (sig : Nat) (t : Int) (k : Nat) (d : Dev) : Dev :=
  let x := d.lut k
  let old := d.on O.ermLutOut k
  let ck := selSignal sig (d.nat O.ermLutClk k)
  let r : Lut × Bool :=
    if x.clear then ({ clkWas := ck }, false)
    else
      let sels := d.nat O.ermLutIn k
      let inp := fun (j : Nat) => b2n (selSignal sig (bits sels (16 * j + 15) (16 * j)))
      let v := bit (d.nat O.ermLutTruth k) (8 * inp 3 + 4 * inp 2 + 2 * inp 1 + inp 0)
      let n := d.nat O.ermLutFilter k
      let f := if allAgree v x.hist (n - 1) then v else x.f
      let ff := d.nat O.ermLutFf k
      let o := if ff = 0 then f
        else if ff = 1 then (if ck && !x.clkWas then f else old)
        else if f && !x.f then !old else old
      ({ hist := (v :: x.hist).take 15, f := f, clkWas := ck }, o)
  let d := d.setLut k r.1
  if r.2 = old then d
  else
    let d := d.setB O.ermLutOut r.2 k
    let d := if r.2 then d.bump O.ermLutRises k else d
    { d with erm := { d.erm with stamps := tabSet 0 d.erm.stamps (224 + k) t } }

/-! A cycle (R325-R329). -/

/-- Signals of the inputs as a mask, from the producers' signals `sig`. -/
def inputSignals (d : Dev) (sig : Nat) : Nat :=
  forUpto 192 (fun c m => if selSignal sig (d.nat O.ermInSel 0 c) then setBit m c else m) 0

/-- Producers' signals in this cycle, once the events are issued, the pins synchronised and the cells computed. -/
def levelSignals (d : Dev) : Nat :=
  let put := fun (base n : Nat) (f : Nat → Bool) (m : Nat) => forUpto n (fun k a => if f k then setBit a (base + k) else a) m
  let m := setBit d.erm.issued 1
  let m := put 10 6 (fun k => d.on O.tiuInLatch k) m
  let m := put 24 16 (fun k => d.on O.ermEvioLevel k) m
  let m := put 97 16 (fun k => bit d.erm.sys k) m
  put 224 32 (fun k => d.on O.ermLutOut k) m

/-- ERM_CYCLE: the cycle that begins `10 c` ns into the present frame. (DESIGN CHOICE, log 84) -/
def ermCycle (d : Dev) (c : Nat) : Dev :=
  if !ermOn d then { d with erm := { d.erm with due := [], edges := [] } }
  else
    let t := d.clk + 10 * (c : Int)
    let sig := d.erm.sig
    let now := inputSignals d sig
    let was := d.erm.was
    let fresh := d.erm.fresh
    let rise := fun (i : Nat) => bit now i && !bit was i && !bit fresh i
    let stampOf := fun (i : Nat) => tabGet 0 d.erm.stamps (d.nat O.ermInSel 0 i % 256)
    let edges := ((List.range 187).filter (fun i => !levelInput i && rise i)).map (fun i => (i, stampOf i))
    let d := forUpto 16 (fun p x => evioOut (bit now (148 + p)) (rise (148 + p)) p x) d
    let terms := forUpto 16 (fun k m =>
      if d.on O.ermSysGate k then putBit m k (bit now (164 + k)) else setBit m k) d.erm.terms
    let d := { d with erm := { d.erm with was := now, fresh := 0, edges := edges, terms := terms } }
    let d := forUpto 6 (fun k x => { x with erm := { x.erm with
      stamps := tabSet 0 x.erm.stamps (10 + k) (tabGet 0 x.erm.latStamp k) } }) d
    let d := forUpto 32 (lutCycle sig t) (forUpto 16 (evioSync t) (ermIssue d t))
    { d with erm := { d.erm with sig := levelSignals d } }

/-- `erm.levels`. -/
def ermLevels (d : Dev) : Bytes := leBytes 32 d.erm.sig

/-! Writes (R326, R330, R331, R336). -/

/-- Reserved bits of a selector field. -/
def selReserved (v : Nat) : Bool := decide (bits v 14 8 ≠ 0)

def softEvent (d : Dev) (v : Nat) : Dev := forUpto 8 (fun k x => if bit v k then x.event (77 + k) x.clk else x) d

def scanMapOk (b : Bytes) : Bool := b.length == 256 && b.all (fun x => decide (x.toNat ≤ 15))
def scanLine (d : Dev) (n : Nat) : Nat := ((d.byt O.ermScanMap).getD n 0).toNat

/-! Consumers of edges (R328). -/

/-- An edge that reached a busy input. -/
def ermOverrun (d : Dev) (c : Nat) : Dev := ((d.flag O.ermInFlags 1 0 c).bump O.ermInOverruns 0 c).bump O.ermOverruns

/-- AP_START: channel `n`. -/
def apStartEdge (d : Dev) (n : Nat) (stamp : Int) : Dev :=
  if chBound d n then
    let p := d.nat O.chApBound n
    match d.run? p with
    | some r => if r.awaitEdge then ptApStart d p stamp else d
    | none => d
  else if d.nat O.chApStart n ≠ 1 then d
  else if apState (d.chan n) ≠ 0 then ermOverrun d n
  else if apStartRefused d n then d
  else apBegin d n stamp

/-- TRACE: lane `n`. -/
def traceEdge (d : Dev) (n : Nat) : Dev := if d.nat O.chTraceTrigSrc (traceCh n) = 1 then traceEvent d n else d

/-- TIU_GATE: unit `k`, at tick `t` of the present frame. -/
def tiuGateEdge (d : Dev) (k t : Nat) : Dev :=
  if d.nat O.tiuMGate k ≠ 1 then d
  else if tdcBusy d k then ((ermOverrun d (124 + k)).flag O.tiuMFlags 1 k).bump O.tiuMOverruns k
  else tdcArmNow d k t true

/-- SCAN_L: every scan mapped to the line. -/
def scanLineEdge (d : Dev) (line : Nat) (stamp : Int) : Dev :=
  forUpto 256 (fun n x => if x.nat O.scanSrc n = 3 ∧ scanLine x n = line then scanStart x n stamp false else x) d

/-- JRN_MARK: the mark enters journal staging, or waits there for a slot. (DESIGN CHOICE, log 84) -/
def markTry (d : Dev) : Dev :=
  match d.erm.mark with
  | none => d
  | some t =>
    if stagingRoom d.jrn.staging false then
      { (d.stage (jrecord 5 0xFFFF 0xFF 0 (d.stamp t) []) false).2 with erm := { d.erm with mark := none } }
    else d
def markEdge (d : Dev) (stamp : Int) : Dev :=
  let d := markTry d
  match d.erm.mark with
  | some _ => ermOverrun d 186
  | none => markTry { d with erm := { d.erm with mark := some stamp } }

/-! Power (R335). -/

/-- PD20 is switched on, or the controller is reset: every selector takes NONE, cells 0, pins inputs, gates 0; the stored
objects follow (R46). -/
def ermReset (d : Dev) : Dev :=
  let e := d.erm
  { d with erm := { pins := e.pins, sync1 := e.pins, sys := e.sys, samples := e.samples } }

/-- A request to switch PD20 off is refused (R335). -/
def ermBusy (d : Dev) : Bool :=
  (List.range 192).any (fun c => d.nat O.ermInSel 0 c % 256 != 0) || d.nat O.ctbSrc == 4
  || (List.range 16).any (fun k => d.on O.ermSysGate k)

end Sys2Proof.Machine
end

