-- ==== Sys2Proof/Machine/CalSet.lean ====
section
/-! DEFINITION. The calibration set (R539-R543): channel and unit blocks, their change and its record. -/
namespace Sys2Proof.Machine

def keySam := 0x100
def keyAxd := 0x101
def keyTiu := 0x102
def unitEntries (key : Nat) : Nat := if key = keySam then 76 else if key = keyAxd then 4 else 8

/-- Check sum of a block in place: over the entries, then the header before it. -/
def calCrcAt (unit : Bool) : Nat := if unit then 28 else 60
def calSeal (unit : Bool) (b : Bytes) : Bytes :=
  let h := calCrcAt unit
  splice b h (leBytes 4 (crc32c (b.drop (h + 4) ++ b.take h)))

/-- A unit block never written: nominal entries, the header of R541. -/
def emptyUnit (key : Nat) : Bytes :=
  let head := leInt 8 i64Min ++ [0, 0] ++ leBytes 2 0x8000 ++
    (if key = keySam then leBytes 4 2500000 ++ leBytes 4 31457 else List.replicate 8 0) ++ List.replicate 12 0
  calSeal true (head ++ (List.range (unitEntries key)).flatMap fun _ => q32Bytes qOne ++ leInt 4 0)

def isUnit (key : Nat) : Bool := decide (96 ≤ key)
/-- The block in force. -/
def calBlock (d : Dev) (key : Nat) : Bytes :=
  if isUnit key then
    let b := calInForce true (calBlk d key)
    if b = [] then emptyUnit key else b
  else chanBlock d key

/-- Gain and offset of entry `k` of a unit block. -/
def unitEntry (b : Bytes) (k : Nat) : Q32 × Int := (q32At b (32 + 12 * k), leFieldI b (40 + 12 * k) 4)
def setUnitEntry (b : Bytes) (k : Nat) (g : Q32) (o : Int) : Bytes := splice b (32 + 12 * k) (q32Bytes g ++ leInt 4 o)

/-- The last window mean of the die sensor `code`, in 0.01 °C with its nominal scale; 0x8000 when no entry has one. -/
def dieTemp (d : Dev) (code : Nat) : Int :=
  let one := fun (v : Nat) (c : SamConv) => (List.range 32).findSome? fun e =>
    let x := c.entries[e]?.getD {}
    if bit x.word 31 ∧ bits x.word 4 0 = code ∧ ¬ bit x.word 30 ∧ d.nat O.samEWindows (32 * v + e) ≠ 0 then some x.mean else none
  match (one 0 d.sam.a).orElse (fun _ => one 1 d.sam.b) with
  | some m =>
    -- microvolts m × vref ÷ 65,536; 0.01 °C is 20 µV from 0.600 V
    clampI (-32767) 32767 (roundDiv (roundDiv (m * d.int O.samVref) 65536 - 600000) 20)
  | none => -32768

/-- A block takes the bytes `b` (sealed): the copy not in force is written (R539), the change is recorded (R542). `kind`: 1
procedure, 2 direct write, 3 ADOPT. -/
def calReplace (d : Dev) (key : Nat) (b : Bytes) (role kind : Nat) : Dev :=
  let u := isUnit key
  let h := calCrcAt u
  let old := calBlock d key
  let c := calBlk d key
  let inA := calValid u c.a && (!calValid u c.b || decide (c.seqB ≤ c.seqA))
  let seq := max c.seqA c.seqB + 1
  let c := if inA then { c with b := b, seqB := seq } else { c with a := b, seqA := seq }
  let d := { d with cal := { d.cal with blocks := tabSet {} d.cal.blocks key c } }
  let d := d.bump O.calWrites
  let d := d.station 5 key (leBytes 4 (leField old h 4) ++ leBytes 4 (leField b h 4) ++ leBytes 1 role ++ leBytes 1 kind)
  if key = keySam then (d.setI O.samVref (leFieldI b 12 4)).setI O.samRefNominal (leFieldI b 16 4)
  else if u then d
  else
    (d.setN O.chCalTag (leField b 28 2) key).setI O.chCalTime (leFieldI b 16 8) key

/-- Bytes of a Q32 at `off` are permitted: shift in 0..62, reserved bytes 0. -/
def q32Ok (b : Bytes) (off : Nat) : Bool := decide (leField b (off + 4) 1 ≤ 62) && allZero (slice b (off + 5) 3)

/-- A block that a direct write may put in force (R542). -/
def calBlockOk (key : Nat) (b : Bytes) : Bool :=
  if isUnit key then
    b.length == 32 + 12 * unitEntries key && calValid true b && allZero (slice b 9 1) && allZero (slice b 20 8)
    && (key == keySam || allZero (slice b 12 8)) && (List.range (unitEntries key)).all (fun k => q32Ok b (32 + 12 * k))
  else
    b.length == 640 && calValid false b && allZero (slice b 25 1) && allZero (slice b 30 30)
    && (List.range 18).all (fun k => let o := 64 + 32 * k; q32Ok b o && q32Ok b (o + 8) && q32Ok b (o + 20))

/-- A write of a block object. -/
def calBlockWrite (d : Dev) (key : Nat) (b : Bytes) (role : Nat) : Eff :=
  if calBlockOk key b then .ok (calReplace d key b role 2) else refuse aRange

/-- A write of `ch.cal.tag`. -/
def calTagWrite (d : Dev) (n tag role : Nat) : Eff :=
  .ok (calReplace d n (calSeal false (splice (chanBlock d n) 28 (leBytes 2 tag))) role 2)

/-- A write of `sam.vref` or `sam.ref_nominal`, which the SAM header holds (R398, R541). (DEDUCED, log 85) -/
def samHeaderWrite (d : Dev) (off : Nat) (v : Int) (role : Nat) : Eff :=
  .ok (calReplace d keySam (calSeal true (splice (calBlock d keySam) off (leInt 4 v))) role 2)

/-- ADOPT (R543). -/
def calAdopt (d : Dev) (n role : Nat) : Eff :=
  match descOf d n with
  | none => refuse aState
  | some ds => 
    .ok ((calReplace d n (calSeal false (splice (chanBlock d n) 0 (padTo 16 ds.serial))) role 3).setN O.chCalState 0 n)

end Sys2Proof.Machine
end

