-- ==== Sys2Proof/Machine/Axd.lean ====
section
/-! DEFINITION. The auxiliary outputs (R354-R358). -/
namespace Sys2Proof.Machine

def axdOn (d : Dev) : Bool := bit (d.nat O.pmuPdState) 19

/-- The DAC code of output `k` (R354). -/
def axdCode (d : Dev) (k : Nat) : Nat :=
  let e := unitEntry (calBlock d keyAxd) k
  (clampI 0 65535 (qMul e.1 (d.nat O.axdOut k) + e.2)).toNat

/-- The oldest value of the queue goes to u at uptime `at_`; an event when that empties it (Table 13.5). -/
def axdPop (d : Dev) (k at_ : Nat) : Dev :=
  let x := d.axdK k
  let fill := d.nat O.axdFill k
  if fill = 0 then d
  else
    let u := tabGet 0 x.mem x.rd
    let d := (d.setAxd k { x with rd := (x.rd + 1) % 256 }).setN O.axdFill (fill - 1) k
    let d := axdSet d k u at_
    if fill = 1 then d.event (73 + k) d.clk else d

/-- AXD_SAMPLE: a sample instant of output `k`, in cycle `c` of the present frame. -/
def axdSample (d : Dev) (k c : Nat) : Dev :=
  let at_ := d.up + 10 * c
  if d.nat O.axdState k ≠ 2 then d
  else if d.nat O.axdMode k = 1 then
    if d.nat O.axdFill k = 0 then (d.bump O.axdUnderruns k).flag O.axdFlags 1 k else axdPop d k at_
  else if d.nat O.axdMode k = 2 then
    let x := d.axdK k
    let u := tabGet 0 x.mem (x.i % 256)
    axdSet (d.setAxd k { x with i := (x.i + 1) % max 1 (d.nat O.axdLen k) }) k u at_
  else d

/-- ARMED to RUN; the grid begins with the cycle after cycle `c` (Table 13.5). -/
def axdRun (d : Dev) (k c : Nat) : Dev :=
  (d.setAxd k { d.axdK k with origin := d.up + 10 * (c + 1) }).setN O.axdState 2 k

def axdArm (d : Dev) (k : Nat) : Eff :=
  if d.nat O.axdMode k = 0 then refuse aState
  else if d.nat O.axdState k = 0 then .ok ((d.setAxd k { d.axdK k with i := 0 }).setN O.axdState 1 k)
  else .ok d
def axdStart (d : Dev) (k : Nat) : Eff :=
  if d.nat O.axdMode k = 0 then refuse aState
  else .ok (if d.nat O.axdState k = 1 then axdRun d k 0 else d)
def axdStop (d : Dev) (k : Nat) : Eff := .ok (d.setN O.axdState 0 k)
/-- (DEDUCED, log 13) -/
def axdStep (d : Dev) (k : Nat) : Eff :=
  if d.nat O.axdMode k = 0 then refuse aState
  else .ok (if d.nat O.axdState k = 2 ∧ d.nat O.axdMode k = 3 then axdPop d k (d.up + 10) else d)
def axdFlush (d : Dev) (k : Nat) : Eff :=
  if d.nat O.axdState k = 2 then refuse aState else .ok (d.setN O.axdFill 0 k)

/-- Little-endian U16 values. -/
def words16 (b : Bytes) : List Nat := (List.range (b.length / 2)).map fun j => leField b (2 * j) 2

/-- A write of `axd.push` (R356). -/
def axdPush (d : Dev) (k : Nat) (b : Bytes) : Eff :=
  if b.length < 2 ∨ 512 < b.length ∨ b.length % 2 ≠ 0 then refuse aLength
  else
    let x := d.axdK k
    let fill := d.nat O.axdFill k
    let ws := words16 b
    if (d.nat O.axdState k ≠ 0 ∧ d.nat O.axdMode k ≠ 1 ∧ d.nat O.axdMode k ≠ 3) ∨ 256 < fill + ws.length then refuse aState
    else
      let mem := (List.range ws.length).foldl (fun m j => tabSet 0 m ((x.rd + fill + j) % 256) (ws.getD j 0)) x.mem
      .ok ((d.setAxd k { x with mem := mem }).setN O.axdFill (fill + ws.length) k)

/-- A write of `axd.table`. -/
def axdTableWrite (d : Dev) (k : Nat) (b : Bytes) : Eff :=
  if b.length ≠ 512 then refuse aLength
  else if d.nat O.axdState k ≠ 0 then refuse aState
  else .ok ((d.setAxd k { d.axdK k with mem := tabSetRun 0 [] 0 (words16 b), rd := 0 }).setN O.axdFill 256 k)
def axdTableBytes (d : Dev) (k : Nat) : Bytes := (tabRun 0 (d.axdK k).mem 0 256).flatMap (leBytes 2)

/-- An edge at AXD_TRIGk in cycle `c` (Table 12.2, R356). -/
def axdTrig (d : Dev) (k c : Nat) : Dev :=
  let st := d.nat O.axdState k
  let mode := d.nat O.axdMode k
  if !axdOn d then d
  else if st = 2 ∧ mode = 3 then
    if d.nat O.axdFill k = 0 then ermOverrun d (182 + k) else axdPop d k (d.up + 10 * (c + 1))
  else if d.nat O.axdStart k ≠ 1 then d
  else if st = 1 then axdRun d k c
  else if st = 2 ∧ (mode = 1 ∨ mode = 2) then ermOverrun d (182 + k)
  else d

/-- PD19 is switched on: u = 0, then `axd.init` once the stored configuration is applied (R358). -/
def axdPowerOn (d : Dev) : Dev :=
  forUpto 4 (fun k x =>
    let x := x.setAxd k { uAt := x.up }
    ((x.setN O.axdOut (x.nat O.axdInit k) k).setN O.axdState 0 k).setN O.axdFill 0 k) d
def axdPowerOff (d : Dev) : Dev :=
  forUpto 4 (fun k x => (((x.setAxd k {}).setN O.axdOut 0 k).setN O.axdState 0 k).setN O.axdFill 0 k) d

/-- Read-back of output `k` from a completed window (R357): the entry word, its mean, uptimes of the first and the last conversion
instant. -/
def axdReadback (word : Nat) (mean : Int) (first last : Nat) (k : Nat) (d : Dev) : Dev :=
  if bits word 4 0 ≠ 27 + k ∨ bit word 30 then d.flag O.axdFlags 4 k
  else
    let x := d.axdK k
    let late := decide (last < x.uAt)
    let u := if late then x.uPrev else d.nat O.axdOut k
    let since := if late then x.uPrevAt else x.uAt
    if first < since + d.nat O.axdRbSettle k then d
    else
      let dev := mean - u
      let d := d.setI O.axdRbDev dev k
      let per := d.nat O.axdRbPersist k
      if d.int O.axdRbTol k < dev.natAbs then
        let n := x.fails + 1
        let d := d.setAxd k { x with fails := n, passes := 0 }
        if n = per then (d.flag O.axdFlags 2 k).raise 61 0 1 k else d
      else
        let n := x.passes + 1
        let d := d.setAxd k { x with fails := 0, passes := n }
        if n = per then d.setN O.axdFlags (clrBit (d.nat O.axdFlags k) 1) k else d

end Sys2Proof.Machine
end

