-- ==== Sys2Proof/Machine/Sam.lean ====
section
/-! DEFINITION. The supervisory analog monitor (R337-R353). -/
namespace Sys2Proof.Machine

def Dev.conv (d : Dev) (v : Nat) : SamConv := if v = 0 then d.sam.a else d.sam.b
def Dev.setConv (d : Dev) (v : Nat) (c : SamConv) : Dev :=
  { d with sam := if v = 0 then { d.sam with a := c } else { d.sam with b := c } }
def SamConv.entry (c : SamConv) (e : Nat) : SamEntry := c.entries[e]?.getD {}
def SamConv.setEntry (c : SamConv) (e : Nat) (x : SamEntry) : SamConv := { c with entries := c.entries.setIfInBounds e x }
/-- Instance of entry `e` of converter `v`. -/
def samE (v e : Nat) : Nat := 32 * v + e

def samWordOk (w : Nat) : Bool :=
  bits w 26 20 == 0 && bits w 15 5 == 0 && decide (bits w 19 16 ≤ 12)
  && (!bit w 30 || (decide (bits w 4 0 ≤ 10) && bits w 4 0 % 2 == 0))
def samDwell (w : Nat) : Nat := bits w 29 27 + 1

/-! Codes (R338, R339). -/

/-- Raw code of an input of `uV` microvolts on channel `ch` against a reference of `vref` microvolts. -/
def samRaw (ch : Nat) (diff : Bool) (uV : Int) (vref : Nat) : Int :=
  let div : Int := if (21 ≤ ch ∧ ch ≤ 23) ∨ ch = 26 then 2 * vref else vref
  if diff then clampI (-2048) 2047 (roundDiv (uV * 2048) div) else clampI 0 4095 (roundDiv (uV * 4096) div)
def samCalIndex (v ch : Nat) (diff : Bool) : Nat := if diff then 38 * v + 32 + ch / 2 else 38 * v + ch
/-- Calibrated code in sixteenths. -/
def samCode (d : Dev) (v ch : Nat) (diff : Bool) (r : Int) : Int :=
  let e := unitEntry (calBlock d keySam) (samCalIndex v ch diff)
  let c := narrow32 (qMul e.1 (r * 16) + e.2)
  if diff then clampMM (-32768) 32767 c else clampMM 0 65535 c

/-! The walk (R341-R344). -/

/-- What the next slot is: its entry (none for a reference slot), whether urgent, its first clock and its conversion clock. -/
structure SamSlot where
  entry : Option Nat
  urgent : Bool
  first : Nat
  last : Nat
  wraps : Bool
  deriving DecidableEq, Repr

/-- The entry word in force for a slot that begins at clock `s` (R345). -/
def samWordAt (d : Dev) (v e s : Nat) : Nat :=
  let x := (d.conv v).entry e
  match x.wroteAt with
  | some w => if w < s then d.nat O.samECfg (samE v e) else x.word
  | none => x.word

/-- (DEDUCED, log 85) -/
def samSlot (d : Dev) (v : Nat) : SamSlot :=
  let c := d.conv v
  let s := c.clock
  let urg := fun (t : Nat) =>
    let e := d.nat O.samUrgEntry v % 32
    ({ entry := some e, urgent := true, first := t, last := t + samDwell (samWordAt d v e t), wraps := false } : SamSlot)
  let en := (List.range 32).filter fun e => bit (samWordAt d v e s) 31
  let normal : SamSlot :=
    if en.isEmpty || decide (d.nat O.samRefEvery ≤ c.sinceRef) then
      { entry := none, urgent := false, first := s, last := s + 1, wraps := false }
    else
      let ahead := en.find? (fun e => decide (c.pos ≤ e))
      let e := ahead.getD (en.headD 0)
      { entry := some e, urgent := false, first := s, last := s + samDwell (samWordAt d v e s), wraps := ahead.isNone }
  match c.urgent.head? with
  | some (t, _) => if t ≤ s then urg s else if t < normal.last then urg t else normal
  | none => normal

/-! Entries (R345-R348). -/

/-- Accumulator, trackers and limit state restart; the window number is kept. -/
def samEntryRestart (d : Dev) (v e : Nat) : Dev :=
  let c := d.conv v
  let x := c.entry e
  let d := d.setConv v (c.setEntry e { x with s := 0, n := 0 })
  ((d.setI O.samEMin i32Min (samE v e)).setI O.samEMax i32Min (samE v e)).setN O.samELimState 0 (samE v e)

/-- Limits at a window completion with mean `m` (R348). -/
def samLimits (d : Dev) (v e : Nat) (m : Int) : Dev :=
  let k := samE v e
  let old := d.nat O.samELimState k
  let new := bandState old m (d.int O.samELimLo k) (d.int O.samELimHi k) (d.int O.samELimHyst k)
  if new = old then d
  else
    let act := d.nat O.samELimAct k
    let d := d.setN O.samELimState new k
    let d := if 1 ≤ act ∧ new ≠ 0 then (d.flag O.samEFlags new k).flag O.samFlags 1 v else d
    let d := if 2 ≤ act then (d.event (71 + v) d.clk).setN O.samLimLast e v else d
    if act = 3 ∧ new ≠ 0 then d.raise 58 0 new (256 * v + e) else d

/-- A window completes (R346). -/
def samWindow (d : Dev) (v e : Nat) (last : Nat) (stamp : Int) : Dev :=
  let c := d.conv v
  let x := c.entry e
  let k := samE v e
  let mean := roundDiv x.s (2 ^ bits x.word 19 16)
  let d := d.setConv v (c.setEntry e { x with s := 0, n := 0, sum := x.s, mean := mean, stamp := some stamp })
  let d := (d.setI O.samEValue (if d.nat O.samEAlign k = 0 then x.s else mean) k).setN O.samEWindows
    ((d.nat O.samEWindows k + 1) % 2 ^ 32) k
  let d := samLimits d v e mean
  forUpto 4 (fun j y =>
    let src := y.nat O.axdRbSrc j
    if src ≠ 0xFF ∧ src = 128 * v + e then axdReadback x.word mean (20 * x.firstAt) (20 * last) j y else y) d

/-- `c` of a conversion of entry `e` at clock `last`. -/
def samAdd (d : Dev) (v e last : Nat) (c : Int) : Dev :=
  let cv := d.conv v
  let x := cv.entry e
  let k := samE v e
  let mn := d.int O.samEMin k
  let mx := d.int O.samEMax k
  let d := (d.setI O.samEMin (if mn = i32Min then c else min mn c) k).setI O.samEMax (if mx = i32Min then c else max mx c) k
  let x := { x with s := x.s + c, n := x.n + 1, firstAt := if x.n = 0 then last else x.firstAt }
  let d := d.setConv v (cv.setEntry e x)
  if 2 ^ bits x.word 19 16 ≤ x.n then samWindow d v e last (d.stamp (d.clk + (20 * (last : Int) - d.up))) else d

/-! Reference conversions (R349, R350). -/

/-- Blocks that will not be compared are counted. -/
def samSkip (d : Dev) (n : Nat) : Dev := d.bump O.samRefSkips 0 0 n

/-- Both converters discard the block in progress and number from 0. -/
def samRefRestart (d : Dev) : Dev :=
  let clr := fun (c : SamConv) => { c with refSum := 0, refN := 0, blocks := 0, means := [] }
  let d := samSkip d (d.sam.a.means.length + d.sam.b.means.length)
  { d with sam := { d.sam with a := clr d.sam.a, b := clr d.sam.b } }

def refDrift (d : Dev) (mean : Int) : Int := roundDiv ((mean - d.int O.samRefNominal) * 1000000) (d.int O.samRefNominal)

/-- Drift of a completed block of converter `v` (R350). -/
def samDrift (d : Dev) (v : Nat) (dr : Int) : Dev :=
  let c := d.conv v
  let tol := d.nat O.samRefDriftTol
  let sv := if tol ≤ dr.natAbs then c.severeRun + 1 else 0
  let wn := if tol ≤ 2 * dr.natAbs then c.warnRun + 1 else 0
  let d := d.setConv v { c with warnRun := wn, severeRun := sv }
  let d := if wn = 16 then (d.flag O.samRefFlags 2).raise 60 1 1 0 else d
  if sv = 16 then (d.flag O.samRefFlags 4).raise 60 2 1 0 else d

/-- Two blocks of one number are compared (R349). -/
def samCompare (d : Dev) (ma mb : Int) : Dev :=
  let per := d.nat O.samRefPersist
  let d := d.setI O.samRefDrift (roundDiv (refDrift d ma + refDrift d mb) 2)
  if d.nat O.samRefTol < (ma - mb).natAbs then
    let n := d.sam.fails + 1
    let d := { d with sam := { d.sam with fails := n, passes := 0 } }.bump O.samRefFails
    if n = per then (d.flag O.samRefFlags 1).raise 59 0 1 0 else d
  else
    let n := d.sam.passes + 1
    let d := { d with sam := { d.sam with fails := 0, passes := n } }
    if n = per then d.setN O.samRefFlags (clrBit (d.nat O.samRefFlags) 0) else d

/-- A reference conversion of converter `v`. (DEDUCED, log 85) -/
def samReference (d : Dev) (v : Nat) (code : Int) : Dev :=
  let c := d.conv v
  if c.refN + 1 < 64 then d.setConv v { c with refSum := c.refSum + code, refN := c.refN + 1 }
  else
    let mean := roundDiv (c.refSum + code) 64
    let k := c.blocks
    let d := d.setConv v { c with refSum := 0, refN := 0, blocks := k + 1 }
    let d := d.setI (if v = 0 then O.samRefMeanA else O.samRefMeanB) mean
    let d := samDrift d v (refDrift d mean)
    let o := 1 - v
    if d.nat O.samState o = 0 then (samSkip d 1).setI O.samRefDrift (refDrift d mean)
    else
      match (d.conv o).means.find? (fun e => e.1 == k) with
      | some (_, m) =>
        let d := d.setConv o { d.conv o with means := (d.conv o).means.filter (fun e => e.1 != k) }
        if v = 0 then samCompare d mean m else samCompare d m mean
      | none => d.setConv v { d.conv v with means := (d.conv v).means ++ [(k, mean)] }

/-! System calibration (R352). -/

def samCalConv (d : Dev) : Nat := b2n (bit (d.nat O.samCalTarget) 8)
def samCalMatches (d : Dev) (v word : Nat) : Bool :=
  let t := d.nat O.samCalTarget
  v == b2n (bit t 8) && bit word 30 == bit t 7 && bits word 4 0 == bits t 4 0
def samCalEnd (d : Dev) (st res : Nat) : Dev := (d.setN O.samCalState st).setN O.samCalResult res

/-- Raw code `r` of a conversion that may belong to the target. -/
def samCalTake (d : Dev) (v word : Nat) (r : Int) : Dev :=
  let st := d.nat O.samCalState
  if (st ≠ 1 ∧ st ≠ 3) ∨ ¬ samCalMatches d v word then d
  else
    let diff := bit word 30
    let sat := if diff then r == -2048 || r == 2047 else r == 0 || r == 4095
    if sat then samCalEnd d 6 3
    else
      let s := d.sam
      let s := { s with calSum := s.calSum + 16 * r, calN := s.calN + 1 }
      if s.calN < 4096 then { d with sam := s }
      else
        let m := roundDiv s.calSum 4096
        if st = 1 then { d with sam := { s with m0 := m } }.setN O.samCalState 2
        else { d with sam := { s with m1 := m } }.setN O.samCalState 4

/-- Ideal code of the applied voltage. -/
def samIdeal (d : Dev) : Int :=
  roundDiv (d.int O.samCalApplied * (if bit (d.nat O.samCalTarget) 7 then 32768 else 65536)) (d.int O.samVref)

/-- (DEDUCED, log 86) -/
def samCalZero (d : Dev) : Eff :=
  let v := samCalConv d
  let on := (List.range 32).any fun e => let w := d.nat O.samECfg (samE v e); bit w 31 && samCalMatches d v w
  let st := d.nat O.samCalState
  if !on then refuse aState
  else if st = 1 ∨ st = 3 then .ok d
  else .ok ({ d with sam := { d.sam with e0 := samIdeal d, calSum := 0, calN := 0 } }.setN O.samCalState 1)
/-- (DEDUCED, log 86) -/
def samCalSpan (d : Dev) : Eff :=
  if d.nat O.samCalState ≠ 2 then refuse aState
  else .ok ({ d with sam := { d.sam with e1 := samIdeal d, calSum := 0, calN := 0 } }.setN O.samCalState 3)
def samCalAbort (d : Dev) : Dev :=
  let st := d.nat O.samCalState
  if 1 ≤ st ∧ st ≤ 4 then samCalEnd d 6 4 else d

/-- COMPUTE by a session of role `role` (Table 13.4, R541, R542). -/
def samCalCompute (d : Dev) (role : Nat) : Eff :=
  if d.nat O.samCalState ≠ 4 then refuse aState
  else
    let s := d.sam
    if (s.m1 - s.m0).natAbs < 16384 then .ok (samCalEnd d 6 2)
    else
      let g := ratioSigned (s.e1 - s.e0) (s.m1 - s.m0)
      let o := narrow32 (s.e0 - qMul g s.m0)
      let t := d.nat O.samCalTarget
      let b := setUnitEntry (calBlock d keySam) (samCalIndex (samCalConv d) (bits t 4 0) (bit t 7)) g o
      let b := splice (splice (splice b 0 (leInt 8 d.now)) 8 (leBytes 1 role)) 10 (leInt 2 (dieTemp d 14))
      let d := calReplace d keySam (calSeal true b) role 1
      let d := (d.put O.samCalGain (.q g.int g.shift)).setI O.samCalOffset o
      .ok (samCalEnd d 5 1)

/-! A conversion (R338, R344). -/

/-- A newer entry word comes into force with the slot that begins at clock `first`. -/
def samAdopt (d : Dev) (v e first : Nat) : Dev :=
  let c := d.conv v
  let x := c.entry e
  match x.wroteAt with
  | some w =>
    if w < first then
      samEntryRestart (d.setConv v (c.setEntry e { x with word := d.nat O.samECfg (samE v e), wroteAt := none })) v e
    else d
  | none => d

/-- SAM_CONVERSION: the next conversion of converter `v` leaves its pipeline; `uV` the input at its instant, `vref` the board's
reference, both in microvolts. (DEDUCED, log 85) -/
def samConversion (d : Dev) (v : Nat) (uV : Int) (vref : Nat) : Dev :=
  if d.nat O.samState v = 0 then d
  else
    let sl := samSlot d v
    let c := d.conv v
    let d := d.bump O.samConversions v
    match sl.entry with
    | none =>
      let none_ := !(List.range 32).any fun e => bit (samWordAt d v e sl.first) 31
      let d := if none_ then d.flag O.samFlags 2 v else d
      let d := d.setConv v { c with clock := sl.last, sinceRef := 0 }
      samReference d v (samCode d v 24 false (samRaw 24 false uV vref))
    | some e =>
      let c1 := if sl.urgent then { c with clock := sl.last, urgent := c.urgent.drop 1 }
        else { c with clock := sl.last, pos := e + 1, sinceRef := c.sinceRef + 1,
                      passAt := if sl.wraps then sl.first else c.passAt }
      let d := if sl.wraps then d.setN O.samPass (min 65535 (sl.first - c.passAt)) v else d
      let d := d.setConv v c1
      let d := if sl.urgent then d.bump O.samUrgents v else d
      let d := samAdopt d v e sl.first
      let w := ((d.conv v).entry e).word
      let ch := bits w 4 0
      let diff := bit w 30
      let r := samRaw ch diff uV vref
      let code := samCode d v ch diff r
      let d := samCalTake d v w r
      let d := if d.nat O.ctbMon = 128 * v + e then ctbMonitor d (10 * sl.last) code else d
      samAdd d v e sl.last code

/-- SAM_URGENT_EDGE in cycle `c` of the present frame (R344). (DEDUCED, log 85) -/
def samUrgentEdge (d : Dev) (v c : Nat) : Dev :=
  if d.nat O.samState v = 0 then d
  else
    let cv := d.conv v
    let now := d.up + 10 * c
    if cv.urgent.any (fun u => decide (now < 20 * u.2)) then ermOverrun d (180 + v)
    else
      let t := (now + 10) / 20 + 1
      let e := d.nat O.samUrgEntry v % 32
      d.setConv v { cv with urgent := cv.urgent ++ [(t, t + samDwell (samWordAt d v e t))] }

/-! Commands, writes and power (R345, R353). -/

def samRestart (d : Dev) (v : Nat) : Dev :=
  if d.nat O.samState v = 0 then d else samRefRestart (forUpto 32 (fun e x => samEntryRestart x v e) d)

/-- A converter starts. -/
def samStart (d : Dev) (v : Nat) : Dev :=
  if d.nat O.samState v ≠ 0 then d
  else
    let ck := d.up / 20
    let ents := (Vector.range 32).map fun e => ({ word := d.nat O.samECfg (samE v e) } : SamEntry)
    let d := d.setConv v { clock := ck, passAt := ck, entries := ents }
    let d := forUpto 32 (fun e x =>
      ((samEntryRestart x v e).setN O.samEWindows 0 (samE v e)).setI O.samEValue 0 (samE v e)) d
    let d := ((d.setN O.samPass 0 v).setN O.samConversions 0 v).setI (if v = 0 then O.samRefMeanA else O.samRefMeanB) i32Min
    samRefRestart (d.setN O.samState 1 v)

/-- A converter stops; a calibration of it is aborted (Table 13.4). -/
def samStop (d : Dev) (v : Nat) : Dev :=
  if d.nat O.samState v = 0 then d
  else
    let d := if samCalConv d = v then samCalAbort d else d
    let d := samSkip d ((d.conv 0).means.length + (d.conv 1).means.length)
    let d := (d.setConv 0 { d.conv 0 with means := [] })
    let d := (d.setConv 1 { d.conv 1 with means := [] })
    (d.setConv v {}).setN O.samState 0 v

/-- A request to switch the converter's domain off is refused (R353). -/
def samBusy (d : Dev) (v : Nat) : Bool :=
  (d.nat O.ctbSrc == 2 && d.nat O.ctbMon / 128 == v)
  || (List.range 4).any fun k => let s := d.nat O.axdRbSrc k
       s != 0xFF && s / 128 == v && (d.nat O.axdState k != 0 || d.nat O.axdMode k == 0)

/-- `sam.e.snap` (Table 13.3). -/
def samSnapBytes (d : Dev) (k : Nat) : Bytes :=
  let x := (d.conv (k / 32)).entry (k % 32)
  leInt 4 x.sum ++ leInt 4 x.mean ++ leInt 8 (x.stamp.getD i64Min) ++ leBytes 4 (d.nat O.samEWindows k)
  ++ leInt 4 (d.int O.samEMin k) ++ leInt 4 (d.int O.samEMax k) ++ leBytes 1 (d.nat O.samELimState k)
  ++ leBytes 1 (bits x.word 19 16) ++ leBytes 1 (128 * b2n (bit x.word 30) + bits x.word 4 0) ++ [0]

/-- A tracker read restarts it (R347). -/
def trackerRead (d : Dev) (o : Obj) (k : Nat) : Dev := d.setI o i32Min k

end Sys2Proof.Machine
end

