-- ==== Sys2Proof/Machine/Journal.lean ====
section
/-! DEFINITION. The journal writer (R516-R518, R526-R538): pages and seals, the circular log, offload and verification. -/
namespace Sys2Proof.Machine

def Dev.onJrn (d : Dev) (f : Jrn → Jrn) : Dev := { d with jrn := f d.jrn }

/-! Pages (R528, R529). -/

def recKind (r : Bytes) : Nat := let b := leField r 3 1; if b / 64 = 2 then b % 64 else 0
def recIsSeal (r : Bytes) : Bool := recKind r == 7
def recIsGap (r : Bytes) : Bool := recKind r == 6

/-- Sequence of each slot (none for a SEAL record), from `next`. -/
def slotSeqs : Nat → List Bytes → List (Option Nat)
  | _, [] => []
  | next, r :: rs =>
    if recIsSeal r then none :: slotSeqs next rs
    else if recIsGap r then some next :: slotSeqs (leField r 24 8 + 1) rs
    else some next :: slotSeqs (next + 1) rs

/-- The sequence that follows the last slot. -/
def slotNext : Nat → List Bytes → Nat
  | next, [] => next
  | next, r :: rs =>
    if recIsSeal r then slotNext next rs
    else if recIsGap r then slotNext (leField r 24 8 + 1) rs
    else slotNext (next + 1) rs
def JPage.next (p : JPage) : Nat := slotNext p.seq0 p.slots

def pageHeader (p : JPage) : Bytes :=
  ascii "DXJP" ++ leBytes 1 1 ++ leBytes 1 p.flag ++ leBytes 2 p.gen ++ leBytes 8 p.pseq ++ leBytes 8 p.seq0 ++ leBytes 8 p.jid
  ++ padTo 32 p.prev
def pageTrailer (p : JPage) : Bytes :=
  if p.sealed then leBytes 2 p.slots.length ++ List.replicate 6 0 ++ leInt 8 p.sealTime ++ padTo 32 p.sealV ++ padTo 16 p.tag
  else List.replicate 64 0xFF
def pageBody (p : JPage) : Bytes :=
  let s := p.slots.flatten
  s ++ List.replicate (62 * 64 - s.length) 0xFF
/-- The 4,096 bytes of a page. -/
def pageBytes (p : JPage) : Bytes := pageHeader p ++ pageBody p ++ pageTrailer p

/-! Seals (R530). -/

def chainZero (d : Dev) (jid : Nat) : Bytes := sha256 (ascii "DXJ0" ++ leBytes 8 (d.nat O.idUid) ++ leBytes 8 jid)
/-- The header with bytes 5-7 at 0. -/
def sealHeader (p : JPage) : Bytes := splice (pageHeader p) 5 [0, 0, 0]
def runHash (p : JPage) (k : Nat) : Bytes := sha256 (sealHeader p ++ (p.slots.take k).flatten)
def pageSeal (p : JPage) : Bytes := sha256 (sealHeader p ++ pageBody p ++ (pageTrailer { p with sealed := true }).take 16)
def pageTag (kj sealV : Bytes) (pseq : Nat) : Bytes := (hmacSha256 kj (sealV ++ leBytes 8 pseq)).take 16
def sealRecTag (kj h : Bytes) (pseq k : Nat) : Bytes := (hmacSha256 kj (h ++ leBytes 8 pseq ++ leBytes 1 k)).take 12
/-- The SEAL record of slot `k`. -/
def sealRecord (kj : Bytes) (p : JPage) (k : Nat) (time : Int) : Bytes :=
  let h := runHash p k
  jrecord 7 0xFFFF 0xFF k time (h ++ sealRecTag kj h p.pseq k)

/-! The circular log (R532). -/

def Jrn.page (j : Jrn) (s : Nat) : Option JPage := tabFind j.pages s
/-- The page being written. -/
def openPage (j : Jrn) : Option JPage := match j.page j.head with | some p => if p.sealed then none else some p | none => none

def pageRecords (p : JPage) : Nat := p.slots.countP (fun r => !recIsSeal r && !recIsGap r)

/-- Pages held and not wholly acknowledged. -/
def unacked (d : Dev) : Nat := d.jrn.pages.countP (fun e => decide (d.nat O.jrnAck + 1 < e.2.next))

def fullWarn (d : Dev) : Dev :=
  if d.nat O.jrnWarnPct * d.jrn.sectors < 100 * unacked d then d.flag O.jrnFlags 4 else d

/-- The sector after `s` that is not retired, and whether the head wrapped; fuel over the sectors. -/
def nextSector (j : Jrn) : Nat → Nat → Bool → Nat × Bool
  | 0, s, w => (s, w)
  | n + 1, s, w =>
    let t := if s + 1 < j.sectors then s + 1 else 0
    let w := w || decide (t = 0)
    if j.retired.contains t then nextSector j n t w else (t, w)

/-- The head's sector is made ready by the first row of R532 that applies. -/
def readySector (d : Dev) : Dev :=
  match d.jrn.page d.jrn.head with
  | none => d.onJrn fun j => { j with holding := false }
  | some p =>
    if p.next ≤ d.nat O.jrnAck + 1 then
      d.onJrn fun j => { j with pages := tabDel j.pages j.head, holding := false }
    else if d.nat O.jrnFullPolicy = 0 then
      let d := d.onJrn fun j => { j with pages := tabDel j.pages j.head, holding := false }
      (((d.bump O.jrnLost 0 0 (pageRecords p)).flag O.jrnFlags 2).raise 69 0 3 0)
    else (d.onJrn fun j => { j with holding := true }).setN O.jrnState 3

/-- The head moves on; the stored head follows every 64 pages (R535). -/
def moveHead (d : Dev) : Dev :=
  let (t, w) := nextSector d.jrn (d.jrn.sectors + 1) d.jrn.head false
  let d := if w then d.bump O.jrnFlashPasses else d
  let d := d.onJrn fun j =>
    let n := j.sinceStored + 1
    if 64 ≤ n then { j with head := t, sinceStored := 0, storedHead := t } else { j with head := t, sinceStored := n }
  readySector d

def setHeadPage (d : Dev) (p : JPage) : Dev := d.onJrn fun j => { j with pages := tabPut j.pages j.head p }

/-- The open page is sealed (R531) and the head moves (R532). -/
def sealPage (d : Dev) (kj : Bytes) : Dev :=
  match openPage d.jrn with
  | none => d
  | some p =>
    if p.slots = [] then d
    else
      let p := { p with sealTime := d.now }
      let v := pageSeal p
      let p := { p with sealed := true, sealV := v, tag := pageTag kj v p.pseq, progAt := d.clk }
      let d := setHeadPage d p
      let d := d.onJrn fun j => { j with prevSeal := v, pageSeq := p.pseq + 1, lastSealAt := d.up, sinceSeal := 0 }
      moveHead (fullWarn (d.setN O.jrnSeqSealed (p.next - 1)))

/-! Programming (R517, R518, R528). -/

/-- What is programmed next: a GAP record (its first sequence), or a record of the ring or of staging; and the device without it. -/
def nextRecord (d : Dev) : Option (Nat × Bytes × Dev) :=
  let j := d.jrn
  let gap := fun (reason a b : Nat) => jrecord 6 0xFFFF 0xFF reason d.now (leBytes 8 a ++ leBytes 8 b)
  match j.bootGap with
  | some (a, b) => some (a, gap 2 a b, { d with jrn := { j with bootGap := none } })
  | none => match j.gapRun with
    | some (a, b) => some (a, gap 1 a b, { d with jrn := { j with gapRun := none } })
    | none => match j.ring with
      | r :: rs => some (r.seq, r.bytes, { d with jrn := { j with ring := rs } }.setN O.fcrRingUsed rs.length)
      | [] => match j.staging with
        | r :: rs => some (r.seq, r.bytes, { d with jrn := { j with staging := rs } })
        | [] => none

/-- The page that takes the next record: the open one, or a new one at the head. -/
def writePage (d : Dev) (seq0 : Nat) : JPage :=
  match openPage d.jrn with
  | some p => p
  | none => { pseq := d.jrn.pageSeq, seq0 := seq0, jid := d.jrn.jid, prev := d.jrn.prevSeal }

/-- The page of a retired sector goes on at the head; its records are lost when the journal holds. (DEDUCED, log 88) -/
def carryPage (d : Dev) : Option JPage → Dev
  | none => d
  | some p => if d.jrn.holding then d.bump O.jrnLost 0 0 (pageRecords p) else setHeadPage d p

/-- The head's sector is retired and the head moves on. (DEDUCED, log 88) -/
def retireSector (d : Dev) : Dev :=
  let d := d.onJrn fun j => { j with retired := j.head :: j.retired, pages := tabDel j.pages j.head, failRun := j.failRun + 1 }
  moveHead ((d.setN O.jrnFlashRetired d.jrn.retired.length).raise 69 0 1 0)

/-- The writer cannot take a record: staging drains to the ring (R517). -/
def writerLost (d : Dev) : Dev :=
  (drainToRing ((d.onJrn fun j => { j with unavailable := true }).setN O.jrnState 2)).raise 69 0 2 0

/-- A program operation fails: the sector is retired and its page goes on in the next one; after three in a row the writer is
unavailable (R517, R532). -/
def flashFailed (d : Dev) : Dev :=
  let d := carryPage (retireSector d) (openPage d.jrn)
  if d.jrn.failRun = 3 then writerLost d else d

/-- FLASH_PROGRAM_DONE: a program completes (`ok`) or fails, and the next record is programmed. -/
def flashDone (d : Dev) (kj : Bytes) (ok : Bool) : Dev :=
  if d.nat O.jrnState = 0 ∨ d.nat O.jrnState = 4 then d
  else if !ok then flashFailed d
  else
    let d := d.onJrn fun j => { j with failRun := 0, unavailable := false, lastDoneAt := d.up }
    let d := if d.jrn.holding then readySector d else d
    if d.jrn.holding then d
    else
      let d := d.setN O.jrnState 1
      match nextRecord d with
      | none => d
      | some (seq, bytes, d) =>
        let p := writePage d seq
        let p := { p with slots := p.slots ++ [bytes], progAt := d.clk }
        let d := setHeadPage d p
        let d := d.onJrn fun j => { j with sinceSeal := j.sinceSeal + 1 }
        let d := if 62 ≤ p.slots.length then sealPage d kj else d
        markTry d

/-- FLASH_STALL: 100 ms without a completed program (R517). -/
def flashStall (d : Dev) : Dev :=
  let st := d.nat O.jrnState
  if st = 0 ∨ st = 4 ∨ d.jrn.unavailable then d
  else writerLost d

/-- SEAL_INTERVAL (R531). -/
def sealInterval (d : Dev) (kj : Bytes) : Dev :=
  match openPage d.jrn with
  | none => d
  | some p =>
    if d.jrn.sinceSeal = 0 ∨ d.jrn.unavailable then d
    else if 61 ≤ p.slots.length then sealPage d kj
    else
      let k := p.slots.length
      let d := setHeadPage d { p with slots := p.slots ++ [sealRecord kj p k d.now], progAt := d.clk }
      let d := d.onJrn fun j => { j with lastSealAt := d.up, sinceSeal := 0 }
      d.setN O.jrnSeqSealed (p.next - 1)

def sealNow (d : Dev) (kj : Bytes) : Eff := .ok (sealPage d kj)

/-! Acknowledgement, format, refresh (R533, R534, R536). -/

def ackTo (d : Dev) (v : Nat) : Eff :=
  if v < d.nat O.jrnAck ∨ d.nat O.jrnSeqSealed < v then refuse aRange
  else
    let d := d.setN O.jrnAck v
    .ok (if d.jrn.holding then readySector d else d)

/-- FORMAT; the keys partition receives the journal key at the first one (R545). (DEDUCED, log 88) -/
def journalFormat (v : Vault) (d : Dev) : Except Abort (Vault × Dev) :=
  if d.jrn.staging ≠ [] ∨ d.jrn.ring ≠ [] then .error ⟨aState, 0⟩
  else
    let n := sumI (d.jrn.pages.map fun e => (pageRecords e.2 : Int))
    let (b, d) := d.random 8
    let jid := leNat b
    let (kj, d) := if v.kj = [] then d.random 32 else (v.kj, d)
    let c0 := chainZero d jid
    let d := d.onJrn fun j => { j with pages := [], jid := jid, prevSeal := c0, gapRun := none, bootGap := none, holding := false,
                                       formatDraws := j.formatDraws + 1, sinceSeal := 0 }
    let d := d.setN O.jrnFlashPasses 0
    .ok ({ v with kj := kj }, d.station 9 0 (leInt 8 n ++ leBytes 8 jid))

/-- PAGE_REFRESH: the page in sector `s` is copied forward when it is older than `jrn.refresh_age` (R536).
(DEDUCED, log 88) -/
def pageRefresh (d : Dev) (s : Nat) : Dev :=
  match d.jrn.page s with
  | none => d
  | some p =>
    if !p.sealed ∨ s = d.jrn.head ∨ (openPage d.jrn).isSome ∨ d.jrn.holding ∨ 512 ≤ d.jrn.staging.length
        ∨ d.clk - p.progAt ≤ d.int O.jrnRefreshAge then d
    else
      let d := setHeadPage d { p with flag := 1, gen := (p.gen + 1) % 65536, progAt := d.clk }
      moveHead (d.onJrn fun j => { j with pages := tabDel j.pages s })

/-! Offload and verification (R537, R538). -/

/-- Held pages by page sequence, oldest first. -/
def insertPage (p : JPage) : List JPage → List JPage
  | [] => [p]
  | q :: qs => if p.pseq ≤ q.pseq then p :: q :: qs else q :: insertPage p qs
def heldPages (j : Jrn) : List JPage := (j.pages.map (·.2)).foldr insertPage []

/-- The page that holds journal sequence `q`, a GAP record's run included. -/
def pageOf (j : Jrn) (q : Nat) : Option JPage :=
  (j.pages.map (·.2)).find? fun p => decide (p.seq0 ≤ q ∧ q < p.next)

/-- The record of sequence `q` in a page. -/
def pageRecord (p : JPage) (q : Nat) : Option Bytes :=
  ((slotSeqs p.seq0 p.slots).zip p.slots).findSome? fun e => if e.1 = some q && !recIsGap e.2 then some e.2 else none

/-- Where the journal holds the record of sequence `q`: staging, the RAM ring or a page. -/
def journalRecord (j : Jrn) (q : Nat) : Option Bytes :=
  match (j.staging ++ j.ring).find? (fun r => r.seq == q) with
  | some r => some r.bytes
  | none => (pageOf j q).bind fun p => pageRecord p q

def oldestSeq (d : Dev) : Nat :=
  match heldPages d.jrn with
  | p :: _ => p.seq0
  | [] => match d.jrn.ring ++ d.jrn.staging with | r :: _ => r.seq | [] => d.nat O.jrnSeqNext

/-- The SEAL records of a page carry their hash and tag. -/
def sealRecsOk (kj : Bytes) (p : JPage) : Bool :=
  (List.range p.slots.length).all fun k =>
    let r := p.slots.getD k []
    if recIsSeal r then
      let h := runHash p k
      slice r 16 32 == h && slice r 48 12 == sealRecTag kj h p.pseq k
    else true

/-- One page against the seal of the page before it, when their sequences are consecutive. -/
def pageOk (kj : Bytes) (before : Option JPage) (p : JPage) : Bool :=
  let linked := match before with
    | some b => if b.sealed && b.pseq + 1 == p.pseq then p.prev == b.sealV else true
    | none => true
  let sealedOk := if p.sealed then p.sealV == pageSeal p && p.tag == pageTag kj p.sealV p.pseq else true
  linked && sealedOk && sealRecsOk kj p

def verifyFrom (kj : Bytes) : Option JPage → List JPage → Option Nat
  | _, [] => none
  | b, p :: ps => if pageOk kj b p then verifyFrom kj (some p) ps else some p.pseq

def journalVerify (d : Dev) : Eff :=
  if d.nat O.jrnVerifyState = 1 then refuse aState else .ok (d.setN O.jrnVerifyState 1)
def journalVerifyDone (d : Dev) (kj : Bytes) : Dev :=
  if d.nat O.jrnVerifyState ≠ 1 then d
  else
    match verifyFrom kj none (heldPages d.jrn) with
    | none => d.setN O.jrnVerifyState 2
    | some b => ((d.setN O.jrnVerifyState 3).setN O.jrnVerifyBad b).flag O.jrnFlags 1

/-! Start (R526, R535). -/

/-- The flash found at start: its size in bytes, and whether it has what R526 asks for. -/
def flashDiscover (d : Dev) (size : Nat) (able : Bool) : Dev :=
  let d := d.setN O.jrnFlashSize size
  if able && decide (8388608 ≤ size ∧ size ≤ 1073741824) then
    (d.onJrn fun j => { j with sectors := (size - 0x200000) / 4096, unavailable := false }).setN O.jrnState 1
  else (d.onJrn fun j => { j with unavailable := true }).setN O.jrnState 4

/-- The last sequence that a page holds. -/
def lastProgrammed (j : Jrn) : Nat := match (heldPages j).getLast? with | some p => p.next - 1 | none => 0

/-- The journal at BOOT: staging and ring are gone; the sequences assigned and never programmed form one gap. -/
def journalBoot (d : Dev) : Dev :=
  let j := d.jrn
  let next := max 1 j.reserved
  let last := lastProgrammed j
  let gap := if last + 1 < next then some (last + 1, next - 1) else none
  let d := d.onJrn fun j => { j with staging := [], ring := [], gapRun := none, bootGap := gap, failRun := 0, holding := false,
                                     lastSealAt := d.up, sinceSeal := 0 }
  (d.setN O.jrnSeqNext next).setN O.fcrRingUsed 0

/-- PD27 goes off, or is lost by a fault (R517). -/
def journalOff (d : Dev) (fault : Bool) : Dev :=
  if fault then writerLost d else d.setN O.jrnState 0

end Sys2Proof.Machine
end

