-- ==== Sys2Proof/Machine/CalProc.lean ====
section
/-! DEFINITION. The channel calibration procedure (R544, Table 21.9). -/
namespace Sys2Proof.Machine

def Dev.onProc (d : Dev) (f : CalProc → CalProc) : Dev := { d with cal := { d.cal with proc := f d.cal.proc } }
def calSt (d : Dev) : Nat := d.nat O.calChState
def calFinish (d : Dev) (st res : Nat) : Dev := ((d.onProc fun p => { p with running := 0 }).setN O.calChState st).setN O.calChResult res

def calTargetChan (d : Dev) : Nat := d.nat O.calChTarget / 256
def calTargetCur (d : Dev) : Bool := bit (d.nat O.calChTarget) 7
def calTargetRange (d : Dev) : Nat := d.nat O.calChTarget % 16

/-- The target names a range of a channel whose slice is attached. -/
def calTargetOk (d : Dev) : Bool :=
  let n := calTargetChan d
  decide (n < 96) && (match descOf d n with
    | some ds => decide (calTargetRange d < (rangesOf (some ds) (calTargetCur d)).length)
    | none => false)

/-- The block's serial is empty or that of the attached slice. -/
def calSerialOk (d : Dev) (n : Nat) : Bool :=
  let s := trimNul ((chanBlock d n).take 16)
  s == [] || (match descOf d n with | some ds => s == ds.serial | none => false)

def calEntryOf (d : Dev) : RangeEntry := rangeAt (descOf d (calTargetChan d)) (calTargetCur d) (calTargetRange d)
/-- e: the applied value in loop units of the target range (R101, R105). -/
def calApplied (d : Dev) : Int := loopOf (krOf (calEntryOf d)) (d.int O.calChApplied)

/-- A point of ZERO, MID or SPAN begins. -/
def calMeasure (d : Dev) (which : Nat) (ok : Bool) (role : Nat) : Eff :=
  let n := calTargetChan d
  if !ok ∨ ¬ calTargetOk d ∨ d.nat O.chForceLoopState n ≠ 5 ∨ ¬ calSerialOk d n ∨ d.nat O.laneState (n / 8) ≠ lsRun then refuse aState
  else
    let e := calApplied d
    let d := d.onProc fun p =>
      let p := { p with running := which, role := role, chan := n, cur := calTargetCur d, range := calTargetRange d,
                        sumN := 0, sumC := 0, count := 0, wait := 0 }
      if which = 1 then { p with e0 := e, hasMid := false } else if which = 2 then { p with e1 := e, hasMid := true } else { p with e2 := e }
    .ok (d.setN O.calChState 1)

/-- (DEDUCED, log 86) -/
def calZero (d : Dev) (role : Nat) : Eff := let s := calSt d; calMeasure d 1 (s == 0 || s == 5 || s == 6) role
def calMid (d : Dev) (role : Nat) : Eff := calMeasure d 2 (calSt d == 2) role
/-- (DEDUCED, log 86) -/
def calSpan (d : Dev) (role : Nat) : Eff := calMeasure d 3 (calSt d == 2 || calSt d == 3) role

/-- What the slot is sent while OUT holds code `c` (OCON closed, the loop off). -/
def calSend (d : Dev) (p : CalProc) (c : Int) : Dev :=
  let l := d.lane (p.chan / 8)
  let o := l.outs[p.chan % 8]?.getD {}
  let o := { o with dac := c, mode := b2n p.cur, ocon := true, scon := true,
                    irng := if p.cur then p.range else o.irng, vrng := if p.cur then o.vrng else p.range }
  d.setLane (p.chan / 8) { l with outs := l.outs.setIfInBounds (p.chan % 8) o }
/-- (DESIGN CHOICE, log 87) -/
def connectFrames (d : Dev) (n : Nat) : Nat := match descOf d n with | some ds => ds.connect | none => 0

/-- OUT (R544). -/
def calOut (d : Dev) (role : Nat) : Eff :=
  let n := calTargetChan d
  let cur := calTargetCur d
  let r := calTargetRange d
  let s := calSt d
  let ok := (s == 0 || s == 5 || s == 6) && calTargetOk d && d.nat O.chForceLoopState n == 0 && calSerialOk d n
    && d.nat O.laneState (n / 8) == lsRun && canForce (descOf d n) cur r && d.nat O.chCalState n == 0
    && !bit (d.lane (n / 8)).safed (n % 8)
  if !ok then refuse aState
  else
    let p : CalProc := { d.cal.proc with running := 4, role := role, chan := n, cur := cur, range := r, sumN := 0, sumC := 0,
                                         count := 0, wait := connectFrames d n }
    let d := { d with cal := { d.cal with proc := p } }
    .ok ((calSend d p (roundDiv (dacLimOf (calEntryOf d)) 10)).setN O.calChState 1)

/-- The channel of an OUT returns to Disabled (Table 3.5). -/
def calDisable (d : Dev) : Dev :=
  let n := d.cal.proc.chan
  let l := d.lane (n / 8)
  let o := l.outs[n % 8]?.getD {}
  (d.setLane (n / 8) { l with outs := l.outs.setIfInBounds (n % 8) { disconnected o with dac := 0 } }).toDisabled n

/-- ABORT, or the channel or lane leaves its state. -/
def calAbort (d : Dev) : Dev :=
  if calSt d ≠ 1 then d
  else calFinish (if 4 ≤ d.cal.proc.running then calDisable d else d) 6 3
def calAbortCmd (d : Dev) : Eff := .ok (calAbort d)

/-- The procedure in one controller frame: an active sample of the target range is added. -/
def calFrame (d : Dev) : Dev :=
  if calSt d ≠ 1 then d
  else
    let p := d.cal.proc
    let st := d.nat O.chForceLoopState p.chan
    if d.nat O.laneState (p.chan / 8) ≠ lsRun ∨ st ≠ (if 4 ≤ p.running then 0 else 5) then calAbort d
    else if 0 < p.wait then d.onProc fun p => { p with wait := p.wait - 1 }
    else if d.nat O.calChFrames ≤ p.count then d
    else
      match (d.chan p.chan).hist.head? with
      | none => d
      | some s =>
        match smpVal p.cur s with
        | some v =>
          if v.rng = p.range ∧ s.use = .act then
            d.onProc fun p => { p with sumN := p.sumN + v.nom, sumC := p.sumC + v.cal, count := p.count + 1 }
          else d
        | none => d

/-- The entry, the header's serial, time, role and temperature, the CRC: the block of channel `n` comes into force. -/
def calWrite (d : Dev) (entry : Bytes) (at_ : Nat) : Dev :=
  let p := d.cal.proc
  let o := 64 + 32 * entryIndex p.cur p.range + at_
  let b := splice (chanBlock d p.chan) o entry
  let b := match descOf d p.chan with | some ds => splice b 0 (padTo 16 ds.serial) | none => b
  let b := splice (splice b 16 (leInt 8 d.now)) 24 (leBytes 1 p.role)
  let b := splice b 26 (leInt 2 (dieTemp d (if p.chan < 48 then 12 else 13)))
  calReplace d p.chan (calSeal false b) p.role 1

/-- g, k2 and o through three points; two points of one mean leave g and k2 open. (DESIGN CHOICE, log 87) -/
def calThree (d : Dev) (p : CalProc) : Q32 × Q32 × Dev :=
  let n := (p.e2 - p.e0) * (p.m1 - p.m0) - (p.e1 - p.e0) * (p.m2 - p.m0)
  let den := (p.m2 - p.m0) * (p.m1 - p.m0) * (p.m2 - p.m1)
  if den = 0 then
    let f := fun (k : Nat) => (⟨narrow32 (Config.calCoefficient (d.draws + k)), 30⟩ : Q32)
    (f 0, f 1, { d with draws := d.draws + 2 })
  else
    (ratioSigned ((p.e1 - p.e0) * (p.m2 - p.m0) * (p.m2 - p.m1) - n * (p.m0 + p.m1)) den, ratioSigned (n * 2 ^ 28) den, d)

/-- COMPUTE. (DESIGN CHOICE, log 87) -/
def calCompute (d : Dev) (role : Nat) : Eff :=
  if calSt d ≠ 4 then refuse aState
  else
    let p := d.cal.proc
    if (p.m2 - p.m0).natAbs < 2 ^ 26 then .ok (calFinish d 6 2)
    else
      let (g, k2, d) := if p.hasMid then calThree d p else (ratioSigned (p.e2 - p.e0) (p.m2 - p.m0), ⟨0, 62⟩, d)
      let o := narrow32 (p.e0 - qMul g p.m0 - qMul k2 (narrow32 (roundShift (p.m0 * p.m0) 28)))
      let d := d.onProc fun p => { p with role := role }
      .ok (calFinish (calWrite d (q32Bytes g ++ q32Bytes k2 ++ leInt 4 o) 0) 5 1)

/-- The second output point is measured: g_o and o_o (Table 21.9, OUT). -/
def calOutDone (d : Dev) (yB : Int) : Dev :=
  let p := d.cal.proc
  let e := rangeAt (descOf d p.chan) p.cur p.range
  let ca := roundDiv (dacLimOf e) 10
  let cb := roundDiv (9 * dacLimOf e) 10
  let go := ratioSigned ((cb - ca) * 2 ^ 28) (e.dacFs * (yB - p.yA))
  let oo := narrow32 (roundDiv (ca * 2 ^ 28) e.dacFs - qMul go p.yA)
  calFinish (calDisable (calWrite d (q32Bytes go ++ leInt 4 oo) 20)) 5 1

/-- CAL_MEASURE_DONE: `cal.ch.frames` samples have been averaged. -/
def calMeasureDone (d : Dev) : Dev :=
  let p := d.cal.proc
  if calSt d ≠ 1 ∨ p.count < d.nat O.calChFrames then d
  else
    let m := roundDiv p.sumN p.count
    let y := roundDiv p.sumC p.count
    let next := fun (d : Dev) (st : Nat) => (d.onProc fun p => { p with running := 0 }).setN O.calChState st
    if p.running = 1 then next (d.onProc fun p => { p with m0 := m }) 2
    else if p.running = 2 then next (d.onProc fun p => { p with m1 := m }) 3
    else if p.running = 3 then next (d.onProc fun p => { p with m2 := m }) 4
    else if p.running = 4 then
      let p2 : CalProc := { p with running := 5, yA := y, sumN := 0, sumC := 0, count := 0, wait := connectFrames d p.chan }
      let e := rangeAt (descOf d p.chan) p.cur p.range
      calSend { d with cal := { d.cal with proc := p2 } } p2 (roundDiv (9 * dacLimOf e) 10)
    else calOutDone d y

end Sys2Proof.Machine
end

