-- ==== Sys2Proof/Machine/Session.lean ====
section
/-! DEFINITION. Sessions, locks and messages of the dictionary protocol, below its operations (R360-R372, R378-R383). -/
namespace Sys2Proof.Machine

def sesState (d : Dev) (k : Nat) : Nat := d.nat O.jdpSesState k
def sesRole (d : Dev) (k : Nat) : Nat := d.nat O.jdpSesRole k
/-- Binding codes of `jdp.ses.binding`. -/
def bindUdp := 1
def bindSpi := 4
def sesBinding (d : Dev) (k : Nat) : Nat := d.nat O.jdpSesBinding k

/-- Where the peer of a session is: interface × 2^48 + `jdp.ses.peer`. -/
def sesSrc (d : Dev) (k : Nat) : Nat := (d.ses k).iface * 2 ^ 48 + d.nat O.jdpSesPeer k

/-! Messages (R360, R364, R371). -/

/-- Header, body and tag under `key`. -/
def message (key : Bytes) (vf op sid cseq dseq ack : Nat) (body : Bytes) : Bytes :=
  let h := leBytes 1 vf ++ leBytes 1 op ++ leBytes 2 sid ++ leBytes 4 cseq ++ leBytes 4 dseq ++ leBytes 4 ack
  h ++ body ++ (hmacSha256 key (h ++ body)).take 16

/-- A message leaves on a binding; on the host SPI port it waits to be read. -/
def Dev.emit (d : Dev) (binding peer : Nat) (m : Bytes) : Dev :=
  if binding % 16 = bindSpi then { d with jdp := { d.jdp with spiOut := d.jdp.spiOut ++ [m] } }
  else { d with jdp := { d.jdp with sent := d.jdp.sent ++ [(binding, peer, m)] } }

/-- A message of session `k` in its present sequence state; LOSS goes out with it (R383). -/
def sesMessage (d : Dev) (k vf op cseq dseq : Nat) (body : Bytes) : Bytes :=
  let s := d.ses k
  message s.key (0x10 + vf + b2n s.loss) op (d.nat O.jdpSesId k) cseq dseq (d.nat O.jdpSesCseq k) body
def sesSend (d : Dev) (k vf op cseq dseq : Nat) (body : Bytes) : Dev :=
  let m := sesMessage d k vf op cseq dseq body
  (d.onSes k fun s => { s with loss := false }).emit (sesBinding d k) (sesSrc d k) m

/-- The body of an abort (Table 14.5). -/
def abortBody (code item detail : Nat) : Bytes := leBytes 2 code ++ leBytes 1 item ++ [0] ++ leBytes 4 detail

/-- The response of session `k` to its request `cseq` (Table 14.5): ERR marks an abort. -/
def sesRespond (d : Dev) (k op cseq : Nat) (err : Bool) (body : Bytes) : Dev :=
  sesSend d k (8 + 2 * b2n err) op cseq (d.nat O.jdpSesDseq k) body

/-- An executed request of session `k` is answered, and the answer is retained (R370). -/
def sesAnswer (d : Dev) (k op cseq : Nat) (request : Bytes) (err : Bool) (body : Bytes) : Dev :=
  let d := d.onSes k fun s => { s with kept := lastN 64 (s.kept ++ [⟨cseq, op, request, err, body⟩]) }
  sesRespond d k op cseq err body

/-- A queued notification as a message. -/
def notifMessage (d : Dev) (x : Notif) : Bytes := sesMessage d x.slot 4 0x40 0 x.dseq x.body

/-- The queued notifications of a session other than one on the host SPI port go out. -/
def drainQueue (d : Dev) (k : Nat) : Dev :=
  if sesBinding d k % 16 = bindSpi then d
  else
    let q := (d.ses k).queue
    let d := q.foldl (fun x n => (x.onSes k fun s => { s with loss := false }).emit (sesBinding x k) (sesSrc x k)
      (notifMessage x n)) d
    d.onSes k fun s => { s with queue := [] }

/-! Locks (R378-R381). -/

/-- The indices that name one object: a lane-wide trace object has eight (R420). -/
def viewIndices (l : Loc) : List Nat :=
  let own := l.o.idx + l.i * l.o.stride
  if l.o.idx = 0x3009 ∧ l.o ≠ O.chTraceProbe then (List.range 8).map fun s => 0x3009 + 0x10 * (8 * (l.i / 8) + s) else [own]

def inRanges (rs : List (Nat × Nat)) (ix : Nat) : Bool := rs.any fun r => decide (r.1 ≤ ix ∧ ix ≤ r.2)

def lockHeld (d : Dev) (k : Nat) : Bool := d.nat O.jdpLockOwner k != 0xFF
def lockCovers (d : Dev) (k : Nat) (l : Loc) : Bool :=
  lockHeld d k && d.nat O.jdpLockNode k == d.node && (viewIndices l).any (inRanges (d.lock k).ranges)

/-- The lock over an object. -/
def lockOver (d : Dev) (l : Loc) : Option Nat := (List.range 32).find? fun k => lockCovers d k l

/-- Lane trace views that ranges cover. -/
def traceLanes (rs : List (Nat × Nat)) : List Nat :=
  (List.range 12).filter fun n => (List.range 8).any fun s => inRanges rs (0x3009 + 0x10 * (8 * n + s))
/-- Two sets of ranges overlap (R378, R420). -/
def rangesOverlap (a b : List (Nat × Nat)) : Bool :=
  a.any (fun x => b.any fun y => decide (x.1 ≤ y.2 ∧ y.1 ≤ x.2)) || (traceLanes a).any (fun n => (traceLanes b).contains n)

/-- The lock is free, here and where its ranges are; the answer says how many staged writes went with it. -/
def freeLock (d : Dev) (k : Nat) : Dev × Nat :=
  let slot := d.nat O.jdpLockOwner k
  let n := (d.lock k).staged.length
  let node := d.nat O.jdpLockNode k
  let gone := (node, slot, 8, leBytes 2 (d.lock k).remote ++ ([0, 0] : Bytes))
  let d := if node = d.node then d else { d with jdp := { d.jdp with notices := d.jdp.notices ++ [gone] } }
  let d := d.setLock k {}
  let d := ((d.setN O.jdpLockOwner 0xFF k).setN O.jdpLockHandle 0 k).setN O.jdpLockNode 0 k
  let d := (d.setN O.jdpLockStaged 0 k).setN O.jdpLockStagedBytes 0 k
  (d.setN O.jdpSesLocks (d.nat O.jdpSesLocks slot - 1) slot, n)

def lockLost (d : Dev) (slot handle reason staged : Nat) : Dev :=
  if !d.sesOpen slot then d else (d.queueNotif slot 6 d.node 0 (leBytes 2 handle ++ leBytes 1 reason ++ [0] ++ leBytes 2 staged ++ [0, 0])).1

/-- Every lock of a session goes; `reason` names the notification of each, 0 none.  The answer: locks and staged writes. -/
def freeLocks (d : Dev) (slot reason : Nat) : Dev × Nat × Nat :=
  (List.range 32).foldl (fun (x : Dev × Nat × Nat) k =>
    if x.1.nat O.jdpLockOwner k = slot then
      let h := x.1.nat O.jdpLockHandle k
      let (d, n) := freeLock x.1 k
      (if reason = 0 then d else lockLost d slot h reason n, x.2.1 + 1, x.2.2 + n)
    else x) (d, 0, 0)

/-- LEASE_EXPIRY: the lease of lock `k` expires (R381). -/
def leaseExpiry (d : Dev) (k : Nat) : Dev :=
  let slot := d.nat O.jdpLockOwner k
  if slot = 0xFF then d
  else
    let h := d.nat O.jdpLockHandle k
    let (d, n) := freeLock d k
    lockLost (d.onSes slot fun s => { s with expired := s.expired ++ [h] }) slot h 1 n

/-! Sessions (R366, R368). -/

def sesObjects : List Obj :=
  [O.jdpSesState, O.jdpSesId, O.jdpSesRole, O.jdpSesBinding, O.jdpSesPeer, O.jdpSesCseq, O.jdpSesDseq, O.jdpSesAck,
   O.jdpSesLag, O.jdpSesTimeout, O.jdpSesIdle, O.jdpSesLocks, O.jdpSesSubs, O.jdpSesDropped, O.jdpSesOpened, O.jdpSesRejoins]

def countSessions (d : Dev) : Dev := d.setN O.jdpSessions ((List.range 16).countP fun k => d.sesOpen k)

/-- A session ends: locks, staged writes, subscriptions, held requests, responses and block assembly go; the slot is free. -/
def endSession (d : Dev) (k : Nat) : Dev :=
  if !d.sesOpen k then d
  else
    let d := (freeLocks d k 0).1
    let far := (((d.ses k).subs.map (·.node)).filter (· != d.node)).eraseDups
    let d := { d with jdp := { d.jdp with notices := d.jdp.notices ++ far.map fun n => (n, k, 0x0A, [3, 0, 0, 0, 0, 0, 0, 0]) } }
    let d := { d.setSes k {} with jdp := { (d.setSes k {}).jdp with
      retained := d.jdp.retained.filter (fun n => n.slot != k) } }
    countSessions (forEach sesObjects (fun o x => x.put o o.dflt k) d)

/-- Sessions whose binding code satisfies `p` end. -/
def endBinding (d : Dev) (p : Nat → Bool) : Dev :=
  forUpto 16 (fun k x => if x.sesOpen k && p (sesBinding x k) then endSession x k else x) d

def sessionTimeout (d : Dev) (k : Nat) : Dev := endSession d k
def openingTimeout (d : Dev) (k : Nat) : Dev := if sesState d k = 1 then endSession d k else d

/-- HELD_REQUEST_EXPIRY: the oldest request held by session `k` is discarded (R369). -/
def heldExpiry (d : Dev) (k : Nat) : Dev :=
  match (d.ses k).held with
  | [] => d
  | _ :: t => (d.onSes k fun s => { s with held := t }).bump O.jdpCntHeldExpired

/-- Sessions opened or rejoined under key slot `i` end (R546). -/
def endKeySessions (d : Dev) (i : Nat) : Dev :=
  forUpto 16 (fun k x => if x.sesOpen k && (x.ses k).keyId == i then endSession x k else x) d

end Sys2Proof.Machine
end

