-- ==== Sys2Proof/Machine/Security.lean ====
section
/-! DEFINITION. Keys, firmware slots and the debug lock (R545-R551). -/
namespace Sys2Proof.Machine

/-- What a command that may change the keys partition answers: an abort, or the partition and the device. -/
abbrev VEff := Except Abort (Vault × Dev)
def vrefuse (code : Nat) : VEff := .error ⟨code, 0⟩

def Vault.key (v : Vault) (i : Nat) : Option RoleKey := (v.keys[i]?).getD none
def Vault.setKey (v : Vault) (i : Nat) (k : Option RoleKey) : Vault := { v with keys := v.keys.setIfInBounds i k }
def Vault.label (v : Vault) (i : Nat) : Bytes := (v.labels[i]?).getD []
def Vault.setLabel (v : Vault) (i : Nat) (b : Bytes) : Vault := { v with labels := v.labels.setIfInBounds i b }
/-- Some slot holds an OWNER key (R546). -/
def Vault.hasOwner (v : Vault) : Bool := v.keys.toList.any fun k => match k with | some x => x.role == .owner | none => false

/-- Fingerprint of a key (R545). -/
def keyFp (k : Bytes) : Nat := leNat ((sha256 k).take 8)

/-! Keys (R546). -/

def keyRecord (d : Dev) (i role kind fp : Nat) : Dev := d.station 7 i (leBytes 1 role ++ leBytes 1 kind ++ leBytes 8 fp)

/-- The key that `wrapped` carries under a session key and the sequence of the write. -/
def unwrapKey (sesKey : Bytes) (i cseq : Nat) (wrapped : Bytes) : Bytes :=
  xorBytes wrapped (hmacSha256 sesKey (ascii "JDP-KW" ++ leBytes 1 i ++ leBytes 4 cseq))

/-- A write of `sec.key.set` of slot `i` under a session key, in the request `cseq`. -/
def keySet (v : Vault) (d : Dev) (sesKey : Bytes) (cseq i : Nat) (b : Bytes) : VEff :=
  if b.length ≠ 34 then vrefuse aLength
  else if 3 < leField b 0 1 ∨ leField b 1 1 ≠ 0 then vrefuse aRange
  else
    let role := roleOf (leField b 0 1)
    let key := unwrapKey sesKey i cseq (b.drop 2)
    let w := v.setKey i (some { role := role, key := key })
    if !w.hasOwner then vrefuse aState
    else .ok (w, keyRecord d i (roleNum role) 1 (keyFp key))

/-- `sec.key.cmd` ERASE of slot `i`. -/
def keyErase (v : Vault) (d : Dev) (i : Nat) : VEff :=
  let w := (v.setKey i none).setLabel i []
  if !w.hasOwner then vrefuse aState
  else match v.key i with
    | none => .ok (v, d)
    | some k => .ok (w, keyRecord d i (roleNum k.role) 2 (keyFp k.key))

def entropyTest (d : Dev) (fail : Bool) : Dev := d.setB O.secRngState fail

/-! Firmware (R548-R550). -/

/-- (DESIGN CHOICE, log 4) -/
def fwSlot (d : Dev) (s : Nat) : Bytes := if s = 0 then d.fw.slotA else d.fw.slotB
def setFwSlot (d : Dev) (s : Nat) (b : Bytes) : Dev :=
  { d with fw := if s = 0 then { d.fw with slotA := b } else { d.fw with slotB := b } }
def fwVersion (b : Bytes) : Nat := leField b 8 4
def fwSvn (b : Bytes) : Nat := leField b 12 4
def fwKey (b : Bytes) : Nat := leField b 5 1
def fwLength (b : Bytes) : Nat := leField b 16 4
def fwImage (b : Bytes) : Bytes := slice b 256 (fwLength b)

/-- A public key as the signature check takes it. -/
def pubBytes (k : PubKey) : Bytes := beBytes 32 k.x ++ beBytes 32 k.y

/-- `sec.fw.result` of a slot's content: 1 OK, else the first test that fails (R548). (DEDUCED, log 89) -/
def fwCheck (v : Vault) (b : Bytes) : Nat :=
  let head := decide (256 ≤ b.length) && b.take 4 == ascii "DXFW" && leField b 4 1 == 1 && decide (fwKey b ≤ 3)
    && allZero (slice b 6 2) && allZero (slice b 28 4) && allZero (slice b 64 128)
    && decide (1 ≤ fwLength b ∧ fwLength b ≤ 458752) && decide (256 + fwLength b ≤ b.length)
  if !head then 2
  else if sha256 (fwImage b) != slice b 32 32 then 3
  else if !ecdsaVerify (pubBytes (v.fw[fwKey b]?.getD {})) (b.take 192) (slice b 192 64) then 4
  else if bit v.revoked (fwKey b) then 5
  else if fwSvn b < v.minSvn then 6
  else 1
def fwValid (v : Vault) (d : Dev) (s : Nat) : Bool := fwCheck v (fwSlot d s) == 1
def fwOther (d : Dev) : Nat := 1 - d.fw.running

def fwRecord (d : Dev) (s kind : Nat) : Dev :=
  let b := fwSlot d s
  d.station 6 s (leBytes 4 (fwVersion b) ++ leBytes 4 (fwSvn b) ++ leBytes 1 kind)

/-- (DEDUCED, log 89) -/
def fwBegin (d : Dev) : Eff :=
  let st := d.nat O.secFwState
  if st = 1 ∨ st = 2 then refuse aState
  else .ok (({ setFwSlot d (fwOther d) [] with fw := { (setFwSlot d (fwOther d) []).fw with verifying := false } }).setN O.secFwState 1)

/-- A BLOCK write of `sec.fw.image`. (DEDUCED, log 22) -/
def fwImageWrite (d : Dev) (off : Nat) (b : Bytes) : Eff :=
  let s := fwOther d
  if d.nat O.secFwState ≠ 1 ∨ d.fw.verifying then refuse aState
  else if off ≠ (fwSlot d s).length ∨ 459008 < off + b.length then refuse aRange
  else .ok (setFwSlot d s (fwSlot d s ++ b))

def fwVerify (d : Dev) : Eff :=
  if d.nat O.secFwState ≠ 1 ∨ d.fw.verifying then refuse aState else .ok { d with fw := { d.fw with verifying := true } }
/-- (DEDUCED, log 89) -/
def fwVerifyDone (v : Vault) (d : Dev) : Dev :=
  if !d.fw.verifying then d
  else
    let r := fwCheck v (fwSlot d (fwOther d))
    let d := { d with fw := { d.fw with verifying := false } }
    (d.setN O.secFwResult r).setN O.secFwState (if r = 1 then 2 else 4)
def fwInstall (d : Dev) : Eff :=
  if d.nat O.secFwState ≠ 2 ∨ ¬ bit d.fw.confirmed d.fw.running then refuse aState
  else
    let s := fwOther d
    let d := { d with fw := { d.fw with preferred := s, confirmed := clrBit d.fw.confirmed s, trials := d.nat O.secFwTrials } }
    .ok ((fwRecord d s 1).setN O.secFwState 3)
/-- (DEDUCED, log 89) -/
def fwAbort (d : Dev) : Eff :=
  let st := d.nat O.secFwState
  if st ≠ 1 ∧ st ≠ 2 then refuse aState else .ok ({ d with fw := { d.fw with verifying := false } }.setN O.secFwState 0)

/-- A write of `sec.fw.revoke`. -/
def fwRevoke (v : Vault) (d : Dev) (k : Nat) : VEff :=
  if 3 < k then vrefuse aRange
  else
    let o := fwOther d
    if (fwSlot d d.fw.running ≠ [] ∧ fwKey (fwSlot d d.fw.running) = k) ∨ (fwValid v d o ∧ fwKey (fwSlot d o) = k) then vrefuse aState
    else .ok ({ v with revoked := setBit v.revoked k }, d)

/-- A slot is confirmed: `sec.fw.min_svn` rises to its security version (R494, R550). -/
def fwConfirm (v : Vault) (d : Dev) (s : Nat) : Vault × Dev :=
  let v := { v with minSvn := max v.minSvn (fwSvn (fwSlot d s)) }
  (v, fwRecord { d with fw := { d.fw with confirmed := setBit d.fw.confirmed s } } s 2)

/-! The debug lock (R551). -/

def debugRecord (d : Dev) (kind duration : Nat) : Dev := d.station 8 0 (leBytes 1 kind ++ leBytes 8 duration)
def debugUnlock (d : Dev) : Eff :=
  let t := d.nat O.secDbgDuration
  let d := { d with fw := { d.fw with dbgUntil := d.up + t } }
  .ok (debugRecord (d.setN O.dbgUnlocked 1) 1 t)
def debugRelock (d : Dev) : Dev := if d.on O.dbgUnlocked then debugRecord (d.setN O.dbgUnlocked 0) 2 0 else d
def debugLock (d : Dev) : Eff := .ok (debugRelock d)

end Sys2Proof.Machine
end

