-- ==== Sys2Proof/Machine/Check.lean ====
section
/-! DEFINITION. The tests a written value passes before it is looked at with the others of its write (R375 conditions 5 and 8,
Table 15.1), and the relations between the objects of a chapter. -/
namespace Sys2Proof.Machine

/-! UTF-8 (RFC 3629), without U+0000. -/

/-- What the decoder waits for: continuation bytes left, and the bounds of the next one. -/
structure Utf where
  left : Nat := 0
  lo : Nat := 0x80
  hi : Nat := 0xBF
  bad : Bool := false
  deriving DecidableEq, Repr

def utfByte (u : Utf) (b : Byte) : Utf :=
  let x := b.toNat
  if u.bad then u
  else if u.left = 0 then
    if 1 ≤ x ∧ x < 0x80 then u
    else if 0xC2 ≤ x ∧ x ≤ 0xDF then { left := 1 }
    else if x = 0xE0 then { left := 2, lo := 0xA0 }
    else if x = 0xED then { left := 2, hi := 0x9F }
    else if 0xE1 ≤ x ∧ x ≤ 0xEF then { left := 2 }
    else if x = 0xF0 then { left := 3, lo := 0x90 }
    else if 0xF1 ≤ x ∧ x ≤ 0xF3 then { left := 3 }
    else if x = 0xF4 then { left := 3, hi := 0x8F }
    else { bad := true }
  else if u.lo ≤ x ∧ x ≤ u.hi then { left := u.left - 1 }
  else { bad := true }
def utf8Ok (b : Bytes) : Bool := let u := b.foldl utfByte {}; !u.bad && u.left == 0

/-! Lengths (condition 5). -/

/-- Exact lengths of the DOMAIN objects that have one. -/
def domainLen (o : Obj) : Option Nat :=
  if o = O.ptRecord then some 192
  else if o = O.ermScanMap then some 256
  else if o = O.axdTable then some 512
  else if o = O.todCalSet then some 16
  else if o = O.fcrInject then some 8
  else if o = O.secKeySet then some 34
  else if o = O.chCalBlock then some 640
  else if o = O.calSam then some 944
  else if o = O.calAxd then some 80
  else if o = O.calTiu then some 128
  else none

def lengthOk (d : Dev) (l : Loc) (b : Bytes) : Bool :=
  match l.o.ty with
  | .str => decide (b.length ≤ min 64 l.o.maxLen)
  | .domain =>
    if l.o = O.chRepData then b.length == 4 * repN (d.nat O.chRepBins l.i)
    else if l.o = O.axdPush then decide (2 ≤ b.length ∧ b.length ≤ 512 ∧ b.length % 2 = 0)
    else match domainLen l.o with
      | some n => b.length == n
      | none => true
  | t => b.length == (tyLen t).getD 0

/-! Values (condition 8). -/

/-- Permitted values that are neither a range, a list nor reserved bits. -/
def specialOk (l : Loc) (n : Int) : Bool :=
  let o := l.o
  let v := n.toNat
  if o = O.laneHoldTimeout then n % 1000 == 0
  else if o = O.jdpCanBase then n % 16 == 0
  else if o = O.todSrcOrder then
    let l := ([bits v 11 8, bits v 7 4, bits v 3 0] : List Nat)
    l.all (fun x => decide (x ≤ 3)) && [1, 2, 3].all fun s => decide (l.count s ≤ 1)
  else if o = O.ermInSel then
    !selReserved v && !(decide (113 ≤ v % 256) && decide (v % 256 ≤ 127)) && !(decide (187 ≤ l.g) && v != 0)
  else if o = O.ermLutIn then (List.range 4).all fun j => !selReserved (bits v (16 * j + 15) (16 * j))
  else if o = O.ermLutClk then !selReserved v
  else if o = O.samECfg then samWordOk v
  else if o = O.clkGate ∨ o = O.pmuUnitReset then decide (v < 2 ^ 24)
  else if o = O.pmuKeep ∨ o = O.pmuPdBoot ∨ o = O.pmuPdOn ∨ o = O.pmuPdOff then !bit v 31 && !bit v 0
  else if o = O.netEthMac then decide (v < 2 ^ 48)
  else if o = O.ptBind then if bit v 7 then decide (v % 128 ≤ 15) else decide (v ≤ 95)
  else if o = O.ptPath then v % 256 == 0
  else if o = O.ptRng then
    (List.range 6).all fun k => decide (bits v (8 * k + 7) (8 * k) ≤ (if k < 3 then 12 else 6))
  else if o = O.ptAlarmMaj then
    let n := v / 16
    let m := v % 16
    decide (n ≤ 8) && (n == 0 || (decide (1 ≤ m) && decide (m ≤ n)))
  else if o = O.calChTarget then decide (bits v 15 8 ≤ 95)
  else if o = O.tiuInLatchClr ∨ o = O.tiuInLatchPeriod ∨ o = O.tiuInCmd then decide (l.i < 6) && (o != O.tiuInLatchPeriod || n % 10 == 0)
  else true

def inList (l : List Int) (n : Int) : Bool := l.any fun x => x == n
/-- (DEDUCED, log 8) -/
def numOk (l : Loc) (n : Int) : Bool :=
  (inList l.o.alts n || (decide (l.o.lo ≤ n) && decide (n ≤ l.o.hi) && n.toNat &&& l.o.rsv == 0)) && specialOk l n

/-- Abort code of a value of the right length; 0 when it is permitted. -/
def valueCode (l : Loc) (b : Bytes) : Nat :=
  match l.o.ty with
  | .str => if utf8Ok b then 0 else aRange
  | .domain => if l.o = O.ermScanMap ∧ ¬ scanMapOk b then aRange else 0
  | .bool => if numOf (decodeVal .bool b) ≤ 1 then 0 else aRange
  | .q32 => if decide (leField b 4 1 ≤ 62) && allZero (slice b 5 3) then 0 else aRange
  | .time64 => if timeValid (leSigned 8 b) then 0 else aTime
  | t => if numOk l (numOf (decodeVal t b)) then 0 else aRange

/-! Relations. -/

/-- The relation that a chapter states for an object, on the values in force after the whole write: the abort code, 0 when it
holds. -/
def relationCode (d : Dev) (l : Loc) : Nat :=
  let need := fun (b : Bool) => if b then 0 else aRange
  let i := fun (o : Obj) => d.int o l.i
  let o := l.o
  if 0x3000 ≤ o.idx ∧ o.idx ≤ 0x300F then (chanRelations d o l.i l.g).getD 0
  else if o = O.ctbLoopA ∨ o = O.ctbLoopB then need (decide (i O.ctbLoopA < i O.ctbLoopB))
  else if o = O.todLoopA ∨ o = O.todLoopB then need (decide (i O.todLoopA < i O.todLoopB))
  else if o = O.samELimLo ∨ o = O.samELimHi then need (decide (i O.samELimLo < i O.samELimHi))
  else if o = O.netCanNominal ∨ o = O.netCanData then need (decide (i O.netCanNominal ≤ i O.netCanData))
  else if o = O.ptAlarmLo ∨ o = O.ptAlarmHi then need (decide (i O.ptAlarmLo < i O.ptAlarmHi))
  else if o = O.scanList ∨ o = O.scanLen then need (decide (1 ≤ i O.scanLen ∧ i O.scanList + i O.scanLen ≤ 524288))
  else if o = O.samCalTarget ∨ o = O.samCalApplied then
    let v := d.int O.samVref
    let x := d.int O.samCalApplied
    need (if bit (d.nat O.samCalTarget) 7 then decide (-v ≤ x ∧ x ≤ v) else decide (0 ≤ x ∧ x ≤ v))
  else if o = O.todUtcOffset ∨ o = O.todLeapAt ∨ o = O.todLeapDir then
    (if leapOk d (d.int O.todLeapAt) (d.int O.todUtcOffset) then 0 else aTime)
  else 0

end Sys2Proof.Machine
end

