-- ==== Sys2Proof/Machine/Image.lean ====
section
/-! DEFINITION. The dictionary map (R414, R425), the stored image (R397-R403) and the domain that holds each object (R404). -/
namespace Sys2Proof.Machine

/-! The map. -/

/-- Largest length of a DOMAIN object. -/
def domainMax (o : Obj) : Nat :=
  if o = O.chRepData then 8192
  else if o = O.chTraceData then 131072
  else if o = O.segTable then 262144
  else if o = O.listData then 2097152
  else if o = O.fcrHistory then 131072
  else if o = O.secFwImage then 459008
  else if o = O.devCfgImage then 131072
  else if o = O.axdPush ∨ o = O.axdTable then 512
  else if o = O.jrnRdPage then 4096
  else match domainLen o with
    | some n => n
    | none => match o.dflt with
      | .bytes b => b.length
      | _ => 0

def maxLenOf (o : Obj) : Nat :=
  match o.ty with
  | .str => o.maxLen
  | .domain => domainMax o
  | t => (tyLen t).getD 0

def accCode : Access → Nat
  | .ro => 0 | .rw => 1 | .wo => 2 | .rws => 3 | .const => 4
def persCode : Pers → Nat
  | .volatile => 0 | .stored => 1 | .cal => 2 | .ident => 3

/-- A lane-wide object of the trace (R150): one object, eight views a lane. -/
def laneWide (o : Obj) : Bool := decide (o.idx = 0x3009) && decide (o ≠ O.chTraceProbe)

/-- A lane-wide object is one object, whichever view names it (R392). (DEDUCED, log 9) -/
def oneView (l : Loc) : Loc := if laneWide l.o then { l with i := 8 * (l.i / 8) } else l

/-- One entry of Table 15.10, at group field `g`. -/
def mapEntry (o : Obj) (g : Nat) : Nat × Bytes :=
  let sub := o.sub + g * o.gstride
  (o.idx * 256 + sub,
   leBytes 2 o.idx ++ leBytes 1 sub ++ leBytes 1 (tyCode o.ty) ++ leBytes 1 (accCode o.acc) ++ leBytes 1 (roleNum o.role)
   ++ leBytes 1 (persCode o.pers) ++ leBytes 1 (2 * b2n (laneWide o) + b2n (o.acc == .ro)) ++ leBytes 4 (maxLenOf o)
   ++ leBytes 2 o.cnt ++ leBytes 2 (if o.cnt = 1 then 0 else o.stride))

def insertEntry (x : Nat × Bytes) : List (Nat × Bytes) → List (Nat × Bytes)
  | [] => [x]
  | y :: ys => if x.1 ≤ y.1 then x :: y :: ys else y :: insertEntry x ys

/-- Group fields that exist: the sources F072 and above are reserved (R498). -/
def groups (o : Obj) : List Nat := (List.range o.gcnt).filter fun g => !reservedLoc ⟨o, 0, g⟩
def mapEntries : List (Nat × Bytes) := (allObjects.flatMap fun o => (groups o).map (mapEntry o)).foldr insertEntry []
def dictMap : Bytes := mapEntries.flatMap (·.2)
def dictCrc : Nat := crc32c dictMap

/-! Domains (Table 19.1). -/

/-- The switched domain that holds an object's unit; 0 for PD0, PD30 and the dictionary itself. -/
def domainOf (l : Loc) : Nat :=
  let o := l.o
  let x := o.idx
  if o = O.laneEnable then 0
  else if keptWithC o ∨ o = O.chApPending then 29
  else if 0x2700 ≤ x ∧ x ≤ 0x27BF then 1 + l.i
  else if 0x3000 ≤ x ∧ x ≤ 0x35FF then 1 + l.i / 8
  else if 0x5200 ≤ x ∧ x ≤ 0x525F then 13
  else if 0x5800 ≤ x ∧ x ≤ 0x59FF then 14
  else if 0x2200 ≤ x ∧ x ≤ 0x22FF then 15
  else if 0x2400 ≤ x ∧ x ≤ 0x24FF then 16
  else if x = 0x2600 then 17 + l.i
  else if x = 0x2620 then 17 + l.i / 32
  else if 0x2680 ≤ x ∧ x ≤ 0x268F then 19
  else if 0x2500 ≤ x ∧ x ≤ 0x25FF then 20
  else if x = 0x1200 then 23 + l.i
  else if x = 0x1230 then 23
  else if x = 0x1240 then 25
  else if 0x1300 ≤ x ∧ x ≤ 0x13FF then 26
  else if 0x7800 ≤ x ∧ x ≤ 0x78FF then 27
  else if x = 0x5000 ∨ x = 0x5100 then 28
  else if 0x4000 ≤ x ∧ x < 0x5000 then 29
  else if 0x6000 ≤ x ∧ x ≤ 0x60FF then 29
  else 0

def Dev.pdOn (d : Dev) (n : Nat) : Bool := n == 0 || bit (d.nat O.pmuPdState) n
/-- Objects whose values survive their domain's loss of power: STORED and CAL values, and what a write reaches while off. -/
def keepsOff (o : Obj) : Bool := o.pers == .stored || o.pers == .cal || o.pers == .ident

/-- Entries of a sparse store whose object satisfies `p` are dropped: they read their defaults. -/
def dropWhere (p : Loc → Bool) (t : Tab Val) : Tab Val :=
  t.filter fun e => match lookup (e.1 / 256) (e.1 % 256) with
    | some l => !p l
    | none => true

/-- The objects of domain `n` that are not kept read their defaults (R404). -/
def Dev.dropDomain (d : Dev) (n : Nat) : Dev :=
  { d with objs := dropWhere (fun l => domainOf l == n && !keepsOff l.o) d.objs }

/-! The stored image. -/

def imageEntry (e : Nat × Val) : Option Bytes :=
  match lookup (e.1 / 256) (e.1 % 256) with
  | some l =>
    if isStored l.o then
      let b := encodeVal l.o.ty e.2
      some (leBytes 2 (e.1 / 256) ++ leBytes 1 (e.1 % 256) ++ [0] ++ leBytes 2 b.length ++ b)
    else none
  | none => none
/-- The entries a STORE takes, in ascending order: the store of objects lists what differs from its default. -/
def imageBody (d : Dev) : Bytes := (d.objs.filterMap imageEntry).flatten
def imageSize (d : Dev) : Nat := 32 + (imageBody d).length

def imageOf (d : Dev) (seq : Nat) : Bytes :=
  let body := imageBody d
  let h := ascii "DXCF" ++ [1, 0, 0, 0] ++ leBytes 4 seq ++ leInt 8 d.now ++ leBytes 4 dictCrc ++ leBytes 4 (32 + body.length)
  h ++ leBytes 4 (crc32c (body ++ h)) ++ body

def imageValid (b : Bytes) : Bool :=
  decide (32 ≤ b.length) && b.take 4 == ascii "DXCF" && leField b 4 1 == 1 && leField b 24 4 == b.length
  && decide (b.length ≤ 131072) && leField b 28 4 == crc32c (b.drop 32 ++ b.take 28)
def imageSeq (b : Bytes) : Nat := leField b 8 4

/-- The active image: the valid one with the higher sequence; the flag says that it is in slot A. -/
def activeImage (c : Cfg) : Option (Bytes × Bool) :=
  let a := imageValid c.slotA
  let b := imageValid c.slotB
  if a && (!b || decide (imageSeq c.slotB < imageSeq c.slotA)) then some (c.slotA, true)
  else if b then some (c.slotB, false)
  else none

/-- Entries of an image as index, subindex and value bytes, over fuel. -/
def parseEntries : Nat → Bytes → List (Nat × Nat × Bytes)
  | 0, _ => []
  | f + 1, b =>
    if b.length < 6 then []
    else
      let n := leField b 4 2
      (leField b 0 2, leField b 2 1, slice b 6 n) :: parseEntries f (b.drop (6 + n))

/-- What an application of entries has counted. -/
structure Applied where
  d : Dev
  skipped : Nat := 0
  touched : List Loc := []
  deriving DecidableEq, Repr

/-- `pmu.pd.boot` always has bits 21, 29 and 30 set. -/
def fixedBits (o : Obj) (v : Val) : Val :=
  if o = O.pmuPdBoot then
    match v with
    | .num n => .num ((n.toNat ||| 0x60200000 : Nat) : Int)
    | x => x
  else v

def applyEntry (sel : Loc → Bool) (a : Applied) (e : Nat × Nat × Bytes) : Applied :=
  match lookup e.1 e.2.1 with
  | none => { a with skipped := a.skipped + 1 }
  | some l =>
    if !isStored l.o ∨ !lengthOk a.d l e.2.2 ∨ valueCode l e.2.2 ≠ 0 then { a with skipped := a.skipped + 1 }
    else if !sel l then a
    else { a with d := a.d.put l.o (fixedBits l.o (decodeVal l.o.ty e.2.2)) l.i l.g, touched := l :: a.touched }

def indexOfLoc (l : Loc) : Nat := l.o.idx + l.i * l.o.stride

/-- The indices whose relations fail take their defaults (R403). -/
def refuseIndices (a : Applied) : Dev × Nat :=
  let bad := ((a.touched.filter fun l => relationCode a.d l != 0).map indexOfLoc).eraseDups
  ({ a.d with objs := dropWhere (fun l => isStored l.o && bad.contains (indexOfLoc l)) a.d.objs }, bad.length)

/-- Every selected STORED object takes its default, then the entries of the active image (R402, R403). -/
def applyImage (d : Dev) (sel : Loc → Bool) : Dev :=
  let d := { d with objs := dropWhere (fun l => isStored l.o && sel l) d.objs }
  match activeImage d.cfg with
  | none => (((d.setN O.devCfgSkipped 0).setN O.devCfgRefused 0).flag O.devFlags 1)
  | some (b, _) =>
    let a := (parseEntries b.length (b.drop 32)).foldl (applyEntry sel) { d := d }
    let (d, refused) := refuseIndices a
    let d := (d.setN O.devCfgSkipped a.skipped).setN O.devCfgRefused refused
    let d := if leField b 20 4 ≠ dictCrc then d.flag O.devFlags 2 else d
    if 0 < a.skipped ∨ 0 < refused then d.flag O.devFlags 4 else d

/-- The entries of one domain, at its power-on. -/
def applyDomain (d : Dev) (n : Nat) : Dev := applyImage d fun l => domainOf l == n

/-! STORE, RESTORE, DEFAULTS and ERASE (R400-R402). -/

def cfgWriting (d : Dev) : Bool := d.nat O.devCfgState == 1

/-- CFG_STORE. -/
def cfgStore (d : Dev) : Eff :=
  let seq := match activeImage d.cfg with | some (b, _) => imageSeq b | none => 0
  if cfgWriting d ∨ seq = 0xFFFFFFFF then refuse aState
  else if 131072 < imageSize d then refuse aState (imageSize d)
  else .ok ({ d with cfg := { d.cfg with writing := some (imageOf d (seq + 1)) } }.setN O.devCfgState 1)

def cfgObjects (d : Dev) : Dev :=
  match activeImage d.cfg with
  | some (b, _) => (d.setN O.devCfgSeq (imageSeq b)).setI O.devCfgTime (leFieldI b 12 8)
  | none => (d.setN O.devCfgSeq 0).put O.devCfgTime O.devCfgTime.dflt

/-- CFG_STORE_DONE: the CRC is written and read back, or a write or a read-back fails. -/
def cfgStoreDone (d : Dev) (ok : Bool) : Dev :=
  match d.cfg.writing with
  | none => d
  | some b =>
    let toA := match activeImage d.cfg with | some (_, true) => false | _ => true
    let d := { d with cfg := { d.cfg with writing := none } }
    if ok then
      cfgObjects ({ d with cfg := if toA then { d.cfg with slotA := b } else { d.cfg with slotB := b } }.setN O.devCfgState 2)
    else (d.setN O.devCfgState 3).raise 53 0 1 2

/-- The conditions of R402. -/
def cfgIdle (d : Dev) : Bool :=
  (List.range 96).all (fun n => d.nat O.chForceLoopState n == 0 && !d.on O.chCascEngage n && apState (d.chan n) == 0
    && (d.nat O.seqState n == 0 || d.nat O.seqState n == 3))
  && d.psc.runs.isEmpty && (List.range 256).all (fun n => let s := d.nat O.scanState n; s == 0 || s == 3)
  && (List.range 8).all (fun k => !tdcBusy d k && d.nat O.tiuMState k == 0) && (List.range 4).all (fun k => d.nat O.axdState k == 0)
  && (List.range 32).all (fun k => !lockHeld d k || d.nat O.jdpLockNode k != d.node) && !cfgWriting d

def cfgErase (d : Dev) : Eff :=
  if cfgWriting d then refuse aState else .ok (cfgObjects { d with cfg := { slotA := [], slotB := [] } })

end Sys2Proof.Machine
end

