-- ==== Sys2Proof/Machine/Clocks.lean ====
section
/-! DEFINITION. The clock generation unit (chapter 18): qualification, trim, fail-over, steering, drift and clock gating. -/
namespace Sys2Proof.Machine

/-! States (Table 18.4) and sources (1 XTAL, 2 REFIN, 3 HRC). -/
def cgBypass := 0
def cgProving := 1
def cgLocking := 2
def cgLocked := 3
def cgRelock := 5
def cgBackup := 6
def cgSteer := 7
def cgLimp := 8
def cgNoclock := 9

def Dev.onClk (d : Dev) (f : Clk → Clk) : Dev := { d with clkg := f d.clkg }
def cgState (d : Dev) : Nat := d.nat O.clkState
def hrcProven (d : Dev) : Bool := bit (d.nat O.clkQualified) 2
def refQualified (d : Dev) (s : Nat) : Bool := bit (d.nat O.clkQualified) (s - 1)
def setQual (d : Dev) (k : Nat) (b : Bool) : Dev := d.setN O.clkQualified (putBit (d.nat O.clkQualified) k b)

/-- The reference that `clk.ref_sel` chooses among the qualified ones (R458); 0 none. -/
def chooseRef (d : Dev) : Nat :=
  let sel := d.nat O.clkRefSel
  if sel = 1 then (if refQualified d 1 then 1 else 0)
  else if sel = 2 then (if refQualified d 2 then 2 else 0)
  else if refQualified d 2 then 2
  else if refQualified d 1 then 1
  else 0

/-- The trim source that R460 gives. -/
def wantTrim (d : Dev) : Nat :=
  let st := cgState d
  let s := if st = cgProving ∨ st = cgLocking ∨ st = cgLocked then d.clkg.ref else 0
  if s ≠ 0 ∧ refQualified d s then s
  else if (st = cgRelock ∨ st = cgBackup ∨ st = cgSteer) ∧ d.nat O.hlRole ≠ 1 ∧ d.nat O.hlNode ≠ 0
      ∧ (d.nat O.hlState = 3 ∨ d.nat O.hlState = 4) then 3
  else 0
/-- A trim source that has gone is left at once; another change waits for the next window (R460). -/
def trimFollow (d : Dev) : Dev :=
  let t := d.nat O.clkTrimSrc
  if t = 0 ∨ ((t = 1 ∨ t = 2) ∧ ¬ refQualified d t) then d.setN O.clkTrimSrc (wantTrim d) else d

/-- `clk.mux_pending` follows the switches asked for. (DEDUCED, log 61) -/
def muxFollow (d : Dev) : Dev := d.setB O.clkMuxPending (d.clkg.pendPll.isSome || d.clkg.pendSys)

/-- An ordinary switch of the PLL input is asked for (R464). -/
def switchPll (d : Dev) (s : Nat) : Dev := muxFollow (d.onClk fun c => { c with pendPll := some s })
/-- A forced switch of the PLL input (R466): it ends a pending switch of that multiplexer. -/
def forceSwitch (d : Dev) (s : Nat) : Dev :=
  muxFollow (((d.onClk fun c => { c with pendPll := none, switchAt := d.up }).setN O.clkInput s).bump O.clkFailovers)

/-- The TIU's part of Table 18.6. -/
def coastUnits (d : Dev) : Dev := forUpto 8 (fun k x => if tdcBusy x k then tdcEnd x k 5 else x) d
/-- The converters start again at the first clock in BACKUP or LOCKED (Table 18.6, R353). -/
def samRestartAll (d : Dev) : Dev := forUpto 2 (fun v x => if x.nat O.samState v = 0 then x else samStart (samStop x v) v) d

/-- Into RELOCK on the HRC. -/
def toRelock (d : Dev) : Dev :=
  let d := (coastUnits d).onClk fun c => { c with backAt := some (c.backAt.getD d.up), driftBad := true }
  (forceSwitch d 3).setN O.clkState cgRelock

/-- Into NOCLOCK: the device goes to SAFE (R468). -/
def toNoclock (d : Dev) : Dev :=
  let d := d.setN O.clkState cgNoclock
  if d.nat O.devState = 2 ∨ d.nat O.devState = 3 then d.enterSafe 0x0203 else d

/-- Into LOCKED: the backup time returns to 0 and the backup condition of R520 ends. -/
def toLocked (d : Dev) : Dev :=
  let d := (d.onClk fun c => { c with backAt := none, driftBad := true }).setN O.clkBackupTime 0
  let d := { d with fcr := { d.fcr with holds := clrBit d.fcr.holds 3 } }
  (trimFollow (d.setN O.clkState cgLocked)).updateFallow

/-! Losses (R457, Table 18.5). -/

/-- The reference in use or being proven against is lost. (DEDUCED, log 61) -/
def refLost (d : Dev) : Dev :=
  let st := cgState d
  if st = cgProving then ((d.setN O.clkState cgLimp).flag O.clkFlags 8).raise 62 0 3 0
  else if st = cgLocking then (if hrcProven d then toRelock d else toNoclock d)
  else if st = cgLocked then
    let d := ((d.setI O.clkLastLoss d.now).flag O.clkFlags 1).raise 62 0 1 0
    if hrcProven d then toRelock d else toNoclock d
  else if st = cgSteer then trimFollow (d.setN O.clkState cgBackup)
  else d

/-- The HRC is lost or unproven. -/
def hrcLost (d : Dev) : Dev :=
  let d := (setQual d 2 false).onClk fun c => { c with hrcLost := true, run := 0 }
  let d := (d.flag O.clkFlags 4).raise 62 0 2 0
  if cgState d = cgBackup ∨ cgState d = cgSteer then toNoclock d else d

/-- CLOCK_LOSS: source 1 XTAL, 2 REFIN, 3 HRC is declared lost.  The command's operand counts them 0, 1, 2 as `clk.qualified` does.
(DEDUCED, log 20) -/
def clockLoss (d : Dev) (s : Nat) : Dev :=
  if s = 3 then hrcLost d
  else
    let was := decide (d.clkg.ref = s)
    let d := trimFollow (setQual (if s = 2 then setQual d 3 false else d) (s - 1) false)
    if was then refLost d else d

/-- A reference that `clk.ref_sel` chooses is qualified (Table 18.5, BYPASS, LIMP and NOCLOCK). (DEDUCED, log 61) -/
def refAvailable (d : Dev) : Dev :=
  let st := cgState d
  let r := chooseRef d
  if r = 0 ∨ d.pmu.held then d
  else if st = cgBypass ∨ st = cgLimp then
    let d := d.onClk fun c => { c with ref := r, coarse := 0, run := 0 }
    ((d.setN O.clkHrcTrim 2048).setN O.clkState cgProving).setN O.clkTrimSrc r
  else if st = cgNoclock then
    (forceSwitch (d.onClk fun c => { c with ref := r }) r).setN O.clkState cgLocking
  else d

/-- CLOCK_QUALIFIED: XTAL or REFIN completes its qualification; REFIN coarsely when XTAL is not qualified (R456).
(DEDUCED, log 20; DEDUCED, log 61) -/
def clockQualified (d : Dev) (s : Nat) : Dev :=
  let coarse := decide (s = 2) && !refQualified d 1
  let d := setQual d (s - 1) true
  let d := if s = 2 then setQual d 3 coarse else d
  let d := if coarse then d.flag O.clkFlags 2 else d
  refAvailable d

/-- QUAL_TIMEOUT. -/
def qualTimeout (d : Dev) : Dev :=
  if cgState d ≠ cgBypass ∨ d.pmu.held then d
  else ((d.setN O.clkState cgLimp).flag O.clkFlags 8).raise 62 0 3 0

/-! The HRC's trim (R459, R460). -/

/-- PROVING ends when the HRC is proven. -/
def provenNow (d : Dev) : Dev :=
  let d := (setQual d 2 true).onClk fun c => { c with hrcLost := false }
  if cgState d = cgProving then (d.setN O.clkInput d.clkg.ref).setN O.clkState cgLocking else d

/-- A coarse window: one bit of the code, from the most significant. (DEDUCED, log 62) -/
def coarseWindow (d : Dev) (excess : Int) : Dev :=
  let k := 11 - d.clkg.coarse
  let code := d.nat O.clkHrcTrim
  let code := if 0 < excess then clrBit code k else setBit code k
  let code := if k = 0 then code else setBit code (k - 1)
  (d.setN O.clkHrcTrim code).onClk fun c => { c with coarse := c.coarse + 1 }

/-- A fine window with an error in ppb. (DEDUCED, log 62) -/
def fineWindow (d : Dev) (err : Int) : Dev :=
  let d := d.setI O.clkHrcError (narrow32 err)
  let code := d.nat O.clkHrcTrim
  let half := Config.hrcHalfStep
  let up := decide (err < -(half : Int))
  let down := decide ((half : Int) < err)
  let rail := (up && code == 4095) || (down && code == 0)
  let d := d.setN O.clkHrcTrim (if rail then code else if up then code + 1 else if down then code - 1 else code)
  let good := decide (-20000 ≤ err ∧ err ≤ 20000)
  let beyond := decide (err < -100000 ∨ 100000 < err)
  let run := if good then d.clkg.run + 1 else 0
  let d := d.onClk fun c => { c with run := run }
  if rail ∨ (beyond ∧ hrcProven d) then (if d.clkg.hrcLost then d else hrcLost d)
  else if 4 ≤ run ∧ ¬ hrcProven d then provenNow d
  else d

/-- HRC_TRIM_WINDOW: a window ends with `excess` more HRC cycles than the source's time holds (negative: fewer).
(DEDUCED, log 20; DEDUCED, log 62) -/
def trimWindow (d : Dev) (excess : Int) : Dev :=
  if d.nat O.clkTrimSrc = 0 ∨ cgState d = cgLimp then trimFollow d
  else
    let d := if d.clkg.coarse < 12 then coarseWindow d excess else fineWindow d (excess * 10000)
    d.setN O.clkTrimSrc (wantTrim d)

/-! Locks and switches. -/

/-- What the device and its units do when the clock tree runs from the locked PLL for the first time since the reset: a device in
HEATH is taken on by the caller. -/
def lockedUnits (d : Dev) : Dev :=
  forUpto 2 (fun v x => if bit (x.nat O.pmuPdState) (17 + v) ∧ 2 ≤ x.nat O.devState ∧ x.nat O.devState ≤ 4
    then samStart x v else x) d

/-- PLL_LOCK: LOCKING goes to LOCKED and RELOCK to BACKUP. -/
def pllLock (d : Dev) : Dev :=
  let st := cgState d
  let toPll := fun (x : Dev) =>
    if x.clkg.sysPll then x else muxFollow (x.onClk fun c => { c with pendSys := true })
  if st = cgLocking then samRestartAll (toLocked (toPll d))
  else if st = cgRelock then
    let d := d.setN O.clkLastRelock (d.up - d.clkg.switchAt)
    samRestartAll (trimFollow ((toPll d).setN O.clkState cgBackup))
  else d

/-- RELOCK_TIMEOUT. -/
def relockTimeout (d : Dev) : Dev :=
  if cgState d ≠ cgRelock then d
  else toNoclock (d.raise 62 0 4 0)

/-- A clock that multiplexers switch from still toggles. -/
def sourceAlive (d : Dev) (s : Nat) : Bool :=
  s == 0 || (if s = 3 then !d.clkg.hrcLost else refQualified d s)

/-- MUX_SWITCH_DONE: an ordinary switch completes, unless the old clock has stopped (R465). -/
def muxSwitchDone (d : Dev) : Dev :=
  let d := match d.clkg.pendPll with
    | some s =>
      if sourceAlive d (d.nat O.clkInput) then (d.onClk fun c => { c with pendPll := none }).setN O.clkInput s else d
    | none => d
  let d := if d.clkg.pendSys ∧ sourceAlive d 3 then d.onClk fun c => { c with pendSys := false, sysPll := true } else d
  muxFollow d

/-! Steering (R461). -/

/-- The HRC is steered toward reference `r`. -/
def steerTo (d : Dev) (r : Nat) : Dev := (d.onClk fun c => { c with ref := r, driftBad := true }).setN O.clkState cgSteer

/-- STEER_DONE: the switch at the aligned edges.  It waits for the switch to the HRC that a change of reference asked for.
(DEDUCED, log 61) -/
def steerDone (d : Dev) : Dev :=
  let r := d.clkg.ref
  if cgState d ≠ cgSteer ∨ d.clkg.pendPll.isSome ∨ ¬ refQualified d r then d
  else toLocked ((d.setN O.clkInput r).setN O.clkTrimSrc r)

/-- REVERT. -/
def clkRevert (d : Dev) : Eff :=
  let r := chooseRef d
  if cgState d ≠ cgBackup ∨ d.clkg.pendPll.isSome ∨ r = 0 then refuse aState else .ok (steerTo d r)

/-- CLOCK_REVERT_HOLD: a reference has stayed qualified for `clk.revert_hold`. -/
def revertHold (d : Dev) : Dev :=
  let r := chooseRef d
  if cgState d ≠ cgBackup ∨ ¬ d.on O.clkRevertAuto ∨ r = 0 ∨ d.clkg.pendPll.isSome then d else steerTo d r

/-- What a write of `clk.ref_sel` starts once the value is in force: a change of the reference in use goes through STEER. -/
def refSelEffect (d : Dev) : Dev :=
  let r := chooseRef d
  if cgState d = cgLocked ∧ r ≠ 0 ∧ r ≠ d.clkg.ref then
    let d := (d.onClk fun c => { c with backAt := some d.up })
    steerTo (switchPll d 3) r
  else refAvailable d
/-- The write would ask for another switch of the PLL input multiplexer (R465). -/
def refSelRefused (d : Dev) (v : Nat) : Bool :=
  let r := chooseRef (d.setN O.clkRefSel v)
  d.clkg.pendPll.isSome && cgState d == cgLocked && r != 0 && r != d.clkg.ref

/-! Drift and time on backup (R473, R474). -/

/-- One frame of a drift window. (DEDUCED, log 63) -/
def driftFrame (d : Dev) : Dev :=
  let st := cgState d
  if (st = cgLocked ∨ st = cgBackup) ∧ todState d = tsLocked then
    d.onClk fun c => { c with driftSum := c.driftSum + todFreqAdj d, driftN := c.driftN + 1 }
  else d.onClk fun c => { c with driftBad := true }

/-- DRIFT_WINDOW. (DEDUCED, log 63) -/
def driftWindow (d : Dev) : Dev :=
  let c := d.clkg
  let fresh := fun (x : Dev) => x.onClk fun c => { c with driftSum := 0, driftN := 0, driftBad := false }
  if c.driftBad ∨ c.driftN = 0 then fresh d
  else
    let m := roundDiv c.driftSum c.driftN
    let d := fresh (d.setI O.clkDrift (narrow32 m))
    let tol := d.int O.clkDriftTol
    let lvl := if tol ≤ absI m then 2 else if tol ≤ 2 * absI m then 1 else 0
    let d := d.onClk fun c => { c with driftLevel := lvl }
    if c.driftLevel < lvl then (d.flag O.clkFlags (if lvl = 2 then 32 else 16)).raise 62 lvl 5 0
    else if lvl < 2 then { d with fcr := { d.fcr with holds := clrBit d.fcr.holds 1 } }.updateFallow
    else d

/-- `clk.backup_time`. -/
def backupTime (d : Dev) : Nat := match d.clkg.backAt with | some t => d.up - t | none => 0

/-- BACKUP_LIMIT. -/
def backupLimit (d : Dev) : Dev :=
  let st := cgState d
  if st = cgRelock ∨ st = cgBackup ∨ st = cgSteer then d.raise 62 2 6 0 else d

/-! Clock gating (R475, Table 18.7). -/

/-- The domain of a gateable unit. -/
def gateDomain (k : Nat) : Nat := if k < 20 then k + 1 else k + 3

/-- The unit's condition in Table 18.7 holds. (DEDUCED, log 64) -/
def unitIdle (d : Dev) (k : Nat) : Bool :=
  if k < 12 then d.nat O.laneState k == 1 || d.nat O.laneState k == 9 || d.nat O.laneState k == 0
  else if k = 12 then (List.range 96).all fun n => let s := d.nat O.seqState n; s == 0 || s == 3 || s == 4
  else if k = 13 then d.psc.runs.isEmpty && (List.range 256).all (fun n => d.nat O.scanState n == 0) && !d.on O.rbEnable
  else if k = 14 then ctbState d == csOff
  else if k = 15 then
    (List.range 8).all (fun n => !tdcBusy d n)
    && !((d.nat O.ctbSrc == 1 || d.nat O.ctbSrc == 3)) && !([bits (d.nat O.todSrcOrder) 11 8, bits (d.nat O.todSrcOrder) 7 4,
      bits (d.nat O.todSrcOrder) 3 0].contains 3 && (srcQualified d 3 || d.nat O.todSrc == 3))
  else if k = 16 ∨ k = 17 then true
  else if k = 18 then (List.range 4).all fun n => d.nat O.axdState n == 0
  else if k = 19 then true
  else if k = 20 then !d.on O.netEthEnable 0 && !d.on O.netPtpEnable
  else if k = 21 then !d.on O.netEthEnable 1
  else if k = 22 then !d.on O.netCanEnable 0 && !d.on O.netCanEnable 1
  else !d.on O.hlEnable

/-- An enabled function of another domain leans on the unit (R28). (DEDUCED, log 64) -/
def leansOn (d : Dev) (k : Nat) : Bool :=
  let run := fun (p : PtCfg → Bool) => d.psc.runs.any fun e => p e.2.cfg
  let ap := fun (m : Nat) => (List.range 96).any fun n => (d.chan n).ap.running && (d.chan n).ap.cfg.mode == m
  if k = 12 then
    ((List.range 96).any fun n => d.nat O.chForceLoopState n != 0 && chSrc d n == 1) || ap 2
    || run (fun c => c.useSeq || (c.apMode == 2 && c.mode != 4))
  else if k = 13 then !d.psc.runs.isEmpty || (List.range 256).any fun n => d.nat O.scanState n != 0
  else if k = 14 then
    ((List.range 96).any fun n =>
      (d.nat O.chForceLoopState n != 0 && d.nat O.chRepMode n != 0) || (d.nat O.seqState n == 1 && d.nat O.seqStartSrc n == 2)) || ap 1
    || ((List.range 256).any fun n => d.nat O.scanSrc n == 2 && (d.nat O.scanState n == 1 || d.nat O.scanState n == 2))
    || run (fun c => c.apMode == 1 && c.mode != 4)
  else if k = 15 then (List.range 8).any (tinHeld d) || run (fun c => c.mode == 4)
  else if k = 16 ∨ k = 17 then samBusy d (k - 16)
  else if k = 19 then ermBusy d
  else false

/-- Abort code of gating or switching off the unit, 0 when it may be. -/
def unitCode (d : Dev) (k : Nat) : Nat := if leansOn d k then aDepend else if unitIdle d k then 0 else aState

/-- `clk.gate` := v. -/
def gateCode (d : Dev) (v : Nat) : Nat :=
  let old := d.nat O.clkGate
  ((List.range 24).filterMap fun k =>
    if bit v k && !bit old k && unitCode d k != 0 then some (unitCode d k) else none).headD 0
/-- `pmu.pd.state` of every gateable unit follows power and gate. -/
def gateFollow (d : Dev) : Dev :=
  forUpto 24 (fun k x =>
    let n := gateDomain k
    if bit x.pmu.power n then x.setN O.pmuPdState (putBit (x.nat O.pmuPdState) n (!bit (x.nat O.clkGate) k)) else x) d

end Sys2Proof.Machine
end

