-- ==== Sys2Proof/Machine/NetBase.lean ====
section
/-! DEFINITION. Ethernet ports, interfaces and CAN ports below their received frames (R426-R429, R433, R434): what leaves a port,
the ARP cache, and how an interface, the PTP port and a CAN port start and stop. -/
namespace Sys2Proof.Machine

def Dev.onNet (d : Dev) (f : Net → Net) : Dev := { d with net := f d.net }
def Dev.iface (d : Dev) (i : Nat) : Iface := d.net.ifs[i]?.getD {}
def Dev.onIf (d : Dev) (i : Nat) (f : Iface → Iface) : Dev :=
  d.onNet fun n => { n with ifs := n.ifs.setIfInBounds i (f (n.ifs[i]?.getD {})) }
def Dev.onPtp (d : Dev) (f : Ptp → Ptp) : Dev := d.onNet fun n => { n with ptp := f n.ptp }

def prp (d : Dev) : Bool := d.nat O.netPrpMode == 1
/-- The interface of a port (R427). -/
def ifOf (d : Dev) (p : Nat) : Nat := if prp d then 0 else p
def ethOn (d : Dev) (p : Nat) : Bool := d.pdOn (23 + p) && d.on O.netEthEnable p
def linkUp (d : Dev) (p : Nat) : Bool := ethOn d p && d.nat O.netEthLink p != 0
/-- MAC address of an interface. -/
def macOf (d : Dev) (i : Nat) : Nat := let m := d.nat O.netEthMac i; if m = 0 then Config.factoryMac i % 2 ^ 48 else m
def addrNow (d : Dev) (i : Nat) : Nat := d.nat O.netIpAddrNow i
def ipDrop (d : Dev) (i : Nat) : Dev := d.bump O.netIpDropped i

def macAll : Nat := 0xFFFFFFFFFFFF
/-- Multicast addresses of PTP (Annexes C and E) and of the PRP supervision frames. -/
def ptpGroup : Nat := 0xE0000181
def ptpMac : Nat := 0x011B19000000
def prpMac : Nat := 0x01154E000100
def groupMac (ip : Nat) : Nat := 0x01005E000000 + ip % 2 ^ 23

/-! Frames out (R426, R428). -/

/-- A frame leaves port `p`, or is discarded and counted while its link is down (R429). -/
def ethOut (d : Dev) (p : Nat) (f : Bytes) : Dev :=
  if !ethOn d p then d
  else if d.nat O.netEthLink p = 0 then ipDrop d (ifOf d p)
  else (d.onNet fun n => { n with sent := n.sent ++ [(p, f)] }).bump O.netEthTxFrames p

/-- Header of a frame on port `p` with its VLAN tag (R426, IEEE 802.1Q). (PRESUMED, log 37) -/
def ethHeader (d : Dev) (p dst src typ : Nat) : Bytes :=
  let v := d.nat O.netEthVlan p
  beBytes 6 dst ++ beBytes 6 src ++ (if v = 0xFFFF then [] else beBytes 2 0x8100 ++ beBytes 2 (v % 4096)) ++ beBytes 2 typ

/-- The redundancy control trailer (IEC 62439-3): sequence, LAN and size, suffix. -/
def rct (seq p size : Nat) : Bytes := beBytes 2 seq ++ beBytes 2 ((0xA + p) * 4096 + size % 4096) ++ beBytes 2 0x88FB

/-- One frame on one port without a trailer. -/
def ethPlain (d : Dev) (p src dst typ : Nat) (payload : Bytes) : Dev :=
  ethOut d p (padMin 60 (ethHeader d p dst src typ ++ payload))

/-- A frame of interface `i`: on its port, or on both with the trailer (R428). -/
def ethSend (d : Dev) (i dst typ : Nat) (payload : Bytes) : Dev :=
  if prp d then
    let seq := tabGet 0 d.net.rct dst
    let d := d.onNet fun n => { n with rct := tabSet 0 n.rct dst ((seq + 1) % 65536) }
    forUpto 2 (fun p x =>
      let h := ethHeader x p dst (macOf x 0) typ
      let body := padMin (54 - h.length) payload
      ethOut x p (h ++ body ++ rct seq p (body.length + 6))) d
  else ethPlain d i (macOf d i) dst typ payload

/-! IPv4 and ARP (RFC 791, RFC 826). -/

/-- The Internet checksum of a list of bytes. -/
def inetSum : Bytes → Nat
  | a :: b :: t => a.toNat * 256 + b.toNat + inetSum t
  | [a] => a.toNat * 256
  | [] => 0
def fold16 (n : Nat) : Nat := let a := n % 65536 + n / 65536; a % 65536 + a / 65536
def inetCheck (b : Bytes) : Nat := 0xFFFF - fold16 (fold16 (inetSum b))

def arpFind (d : Dev) (i ip : Nat) : Option Nat :=
  ((d.iface i).arp.find? fun e => e.ip == ip && decide (d.up < e.seen + 60000000000)).map (·.mac)
/-- An address is confirmed; the cache holds 64 entries, and the oldest goes. -/
def arpLearn (d : Dev) (i ip mac : Nat) : Dev :=
  d.onIf i fun f => { f with arp := lastN 64 (f.arp.filter (fun e => e.ip != ip) ++ [⟨ip, mac, d.up⟩]) }
/-- ARP_AGEING: entries of interface `i` older than 60 s go. -/
def arpAgeing (d : Dev) (i : Nat) : Dev := d.onIf i fun f => { f with arp := f.arp.filter fun e => decide (d.up < e.seen + 60000000000) }

/-- An ARP packet: operation 1 request, 2 reply. (PRESUMED, log 37) -/
def arpPacket (op srcMac srcIp dstMac dstIp : Nat) : Bytes :=
  beBytes 2 1 ++ beBytes 2 0x0800 ++ [6, 4] ++ beBytes 2 op ++ beBytes 6 srcMac ++ beBytes 4 srcIp ++ beBytes 6 dstMac ++ beBytes 4 dstIp
def arpAsk (d : Dev) (i ip : Nat) : Dev := ethSend d i macAll 0x0806 (arpPacket 1 (macOf d i) (addrNow d i) 0 ip)
/-- The gratuitous ARP of an address acquisition. -/
def arpAnnounce (d : Dev) (i : Nat) : Dev := arpAsk d i (addrNow d i)

/-- (PRESUMED, log 37) -/
def ipPacket (src dst proto ttl : Nat) (payload : Bytes) : Bytes :=
  let opts : Bytes := if proto = 2 then [0x94, 4, 0, 0] else []
  let h (c : Nat) := beBytes 1 (0x45 + opts.length / 4) ++ [0] ++ beBytes 2 (20 + opts.length + payload.length) ++ [0, 0, 0x40, 0]
    ++ beBytes 1 ttl ++ beBytes 1 proto ++ beBytes 2 c ++ beBytes 4 src ++ beBytes 4 dst ++ opts
  h (inetCheck (h 0)) ++ payload

def ifMask (d : Dev) (i : Nat) : Nat := if d.nat O.netIpMode i = 2 then d.nat O.netIpMask i else (d.iface i).mask
def ifGate (d : Dev) (i : Nat) : Nat := if d.nat O.netIpMode i = 2 then d.nat O.netIpGateway i else (d.iface i).gw
def nextHop (d : Dev) (i ip : Nat) : Nat :=
  let m := ifMask d i
  if (ip &&& m) = (addrNow d i &&& m) then ip else ifGate d i

/-- A packet goes to its next hop, or waits for the answer of an ARP request. -/
def ipSend (d : Dev) (i dst proto : Nat) (payload : Bytes) : Dev :=
  let pkt := ipPacket (addrNow d i) dst proto (if 0xE0000000 ≤ dst ∧ dst < 0xF0000000 then 1 else 64) payload
  if dst = 0xFFFFFFFF then ethSend d i macAll 0x0800 pkt
  else if 0xE0000000 ≤ dst ∧ dst < 0xF0000000 then ethSend d i (groupMac dst) 0x0800 pkt
  else
    let hop := nextHop d i dst
    match arpFind d i hop with
    | some mac => ethSend d i mac 0x0800 pkt
    | none =>
      let d := if 64 ≤ (d.iface i).wait.length then ipDrop d i else d
      arpAsk (d.onIf i fun f => { f with wait := lastN 64 (f.wait ++ [(hop, pkt)]) }) i hop

/-- The packets that waited for an address go out. -/
def arpFlush (d : Dev) (i ip mac : Nat) : Dev :=
  let w := (d.iface i).wait
  let d := d.onIf i fun f => { f with wait := w.filter fun e => e.1 != ip }
  (w.filter fun e => e.1 == ip).foldl (fun x e => ethSend x i mac 0x0800 e.2) d

/-- A UDP datagram with its checksum (RFC 768). -/
def udpBytes (src dst sport dport : Nat) (b : Bytes) : Bytes :=
  let h (c : Nat) := beBytes 2 sport ++ beBytes 2 dport ++ beBytes 2 (8 + b.length) ++ beBytes 2 c
  let pseudo := beBytes 4 src ++ beBytes 4 dst ++ [0, 17] ++ beBytes 2 (8 + b.length)
  let c := inetCheck (pseudo ++ h 0 ++ b)
  h (if c = 0 then 0xFFFF else c) ++ b
def udpSend (d : Dev) (i dst sport dport : Nat) (b : Bytes) : Dev :=
  ipSend d i dst 17 (udpBytes (addrNow d i) dst sport dport b)

/-! DHCP (RFC 2131). -/

def dhcpOption (code : Nat) (b : Bytes) : Bytes := beBytes 1 code ++ beBytes 1 b.length ++ b
/-- A client message: type 1 DISCOVER or 3 REQUEST. (PRESUMED, log 37) -/
def dhcpBody (d : Dev) (i kind : Nat) : Bytes :=
  let f := d.iface i
  let held := f.dhcp == 4 || f.dhcp == 5
  let fixed : Bytes := [1, 1, 6, 0] ++ beBytes 4 f.xid ++ [0, 0] ++ (if held then [0, 0] else [0x80, 0])
    ++ beBytes 4 (if held then addrNow d i else 0) ++ List.replicate 12 0 ++ beBytes 6 (macOf d i) ++ List.replicate 202 0
  let opts := dhcpOption 53 (beBytes 1 kind)
    ++ (if kind = 3 ∧ !held then dhcpOption 50 (beBytes 4 f.offered) ++ dhcpOption 54 (beBytes 4 f.server) else [])
    ++ dhcpOption 55 [1, 3, 51] ++ [255]
  fixed ++ beBytes 4 0x63825363 ++ opts

def dhcpSend (d : Dev) (i kind : Nat) : Dev :=
  let b := dhcpBody d i kind
  if (d.iface i).dhcp = 4 then udpSend d i (d.iface i).server 68 67 b
  else ipSend d i 0xFFFFFFFF 17 (udpBytes (addrNow d i) 0xFFFFFFFF 68 67 b)

/-- A new exchange begins. -/
def dhcpDiscover (d : Dev) (i : Nat) : Dev :=
  let (x, d) := d.random 4
  dhcpSend (d.onIf i fun f => { f with dhcp := 1, xid := leNat x }) i 1

/-- The interface holds no address. -/
def ifClear (d : Dev) (i : Nat) : Dev := (d.onIf i fun _ => {}).setN O.netIpAddrNow 0 i

/-- PTP runs over UDP on interface `i`, and its group is joined. -/
def ptpJoin (d : Dev) (i : Nat) : Dev :=
  if d.on O.netPtpEnable ∧ d.nat O.netPtpTransport = 0 ∧ ifOf d d.net.ptp.port = i ∧ addrNow d i ≠ 0 ∧ !(d.iface i).joined then
    let h (c : Nat) : Bytes := [0x16, 0] ++ beBytes 2 c ++ beBytes 4 ptpGroup
    ipSend (d.onIf i fun f => { f with joined := true }) i ptpGroup 2 (h (inetCheck (h 0)))
  else d

/-- An address is acquired: it is announced. -/
def ifAcquire (d : Dev) (i addr : Nat) : Dev := ptpJoin (arpAnnounce (d.setN O.netIpAddrNow addr i) i) i

/-- Whether a port of interface `i` has its link. -/
def ifUp (d : Dev) (i : Nat) : Bool := if prp d then i == 0 && (linkUp d 0 || linkUp d 1) else linkUp d i

/-- The interface takes up its addressing mode (R427). -/
def ifStart (d : Dev) (i : Nat) : Dev :=
  let d := ifClear d i
  if prp d ∧ i = 1 then d
  else
    match d.nat O.netIpMode i with
    | 2 => ifAcquire d i (d.nat O.netIpAddr i)
    | 1 => if ifUp d i then dhcpDiscover d i else d
    | _ => d

/-! PTP and CAN ports. -/

/-- The PTP port starts at LISTENING, or stops. -/
def ptpStart (d : Dev) : Dev :=
  let runs := d.on O.netPtpEnable && d.pdOn 23
  let p := if d.nat O.netPtpPort = 1 then 1 else if d.nat O.netPtpPort = 0 then 0 else d.net.ptp.port
  let d := d.onPtp fun _ => { port := p }
  let d := (d.setN O.netPtpState (b2n runs)).setN O.netPtpMasterId 0
  if runs then ptpJoin (d.onIf (ifOf d p) fun f => { f with joined := false }) (ifOf d p) else d

def canFollow (d : Dev) (p : Nat) : Dev :=
  let runs := d.on O.netCanEnable p && d.pdOn 25
  if runs ∧ d.nat O.netCanState p = 0 then ((d.setN O.netCanState 1 p).setN O.netCanTec 0 p).setN O.netCanRec 0 p
  else if !runs then d.setN O.netCanState 0 p
  else d

/-- Sessions whose peer is reached through interface `i` end (R427). -/
def endIface (d : Dev) (i : Nat) : Dev :=
  forUpto 16 (fun k x => if x.sesOpen k && sesBinding x k == bindUdp && (x.ses k).iface == i then endSession x k else x) d

/-- A network domain, PD23 to PD25, is switched on. -/
def netOnDomain (d : Dev) (n : Nat) : Dev :=
  if n = 23 then ptpStart (ifStart d 0)
  else if n = 24 then (if prp d then d else ifStart d 1)
  else canFollow (canFollow d 0) 1
/-- It is switched off: the link is down, the port's state is gone. -/
def netOffDomain (d : Dev) (n : Nat) : Dev :=
  if n = 23 then (ifClear d 0).onPtp fun _ => {}
  else if n = 24 then (if prp d then d else ifClear d 1)
  else d

/-- MDIO_POLL: the PHY of port `p` shows its link (0 down) and duplex (R426). -/
def mdioPoll (d : Dev) (p link : Nat) (full : Bool) : Dev :=
  if !ethOn d p then d
  else
    let i := ifOf d p
    let was := ifUp d i
    let d := (d.setN O.netEthLink link p).setN O.netEthDuplex (b2n full) p
    let d := if was && !ifUp d i then
        (d.onIf i fun f => { f with wait := [] }).bump O.netIpDropped i 0 (d.iface i).wait.length else d
    if !was ∧ ifUp d i ∧ d.nat O.netIpMode i = 1 ∧ (d.iface i).dhcp = 0 then dhcpDiscover d i else d

end Sys2Proof.Machine
end

