-- ==== Sys2Proof/Machine/RingBase.lean ====
section
/-! DEFINITION. The Hedgerow node: packets, states, formation, membership, breaks and the system event lines (R330-R334,
R438-R454).  Frames themselves are in `Ring`. -/
namespace Sys2Proof.Machine

/-! States (Table 17.5). -/
def hsOff := 0
def hsSearch := 1
def hsForming := 2
def hsSync := 3
def hsWrapped := 4
def hsHeld := 5
def hsIsolated := 6

def Dev.onHl (d : Dev) (f : Hl → Hl) : Dev := { d with hl := f d.hl }
def Dev.port (d : Dev) (p : Nat) : HlPort := d.hl.ports[p]?.getD {}
def Dev.onPort (d : Dev) (p : Nat) (f : HlPort → HlPort) : Dev :=
  d.onHl fun h => { h with ports := h.ports.setIfInBounds p (f (h.ports[p]?.getD {})) }
def hlState (d : Dev) : Nat := d.nat O.hlState
def hlSynced (d : Dev) : Bool := hlState d == hsSync || hlState d == hsWrapped
def hlNode (d : Dev) : Nat := d.nat O.hlNode
/-- A port whose link carries frames both ways. -/
def portUp (d : Dev) (p : Nat) : Bool := d.nat O.hlPortState p != 0 && !(d.port p).txDown

/-! System event lines (R332-R334, R445-R447). -/

/-- The lines take the values `v` with stamp `t`. -/
def sysDeliver (d : Dev) (v : Nat) (t : Int) : Dev :=
  let old := d.erm.sys
  let d := forUpto 16 (fun k x =>
    if bit v k != bit old k then
      ({ x with erm := { x.erm with stamps := tabSet 0 x.erm.stamps (97 + k) t } }.bump O.ermSysChanges k).setB O.ermSysLevel (bit v k) k
    else x) d
  { d with erm := { d.erm with sys := v } }

/-- `erm.sys.stale` (R334, R446). -/
def staleFollow (d : Dev) : Dev :=
  let s := !hlSynced d || d.on O.hlLate || d.hl.breaking || d.hl.missing.isSome
  forUpto 16 (fun k x => x.setB O.ermSysStale s k) d

/-- Outside a synchronised ring every line reads 0. -/
def sysOff (d : Dev) : Dev :=
  let d := forUpto 16 (fun k x => if bit x.erm.sys k then x.setB O.ermSysLevel false k else x) d
  staleFollow { d with erm := { d.erm with sys := 0, samples := [] } }

/-- This node's gated terms at instant `s` (R447). -/
def termAt (d : Dev) (s : Int) : Nat :=
  match d.erm.termLog.reverse.find? fun e => decide (e.1 ≤ s) with
  | some e => e.2
  | none => 0xFFFF

/-- SYS_LINE_SAMPLE: the sampling instant at or before tick `t` of the present frame (R333). (DEDUCED, log 34) -/
def sysSample (d : Dev) (t : Nat) : Dev :=
  let s := ((d.clk + 2 * (t : Int)) / 40) * 40
  let v := if ermOn d then d.erm.terms else 0xFFFF
  let last := match d.erm.termLog.getLast? with | some e => e.2 | none => 0xFFFF
  if v = last then d else { d with erm := { d.erm with termLog := lastN 512 (d.erm.termLog ++ [(s, v)]) } }

/-- SYS_LINE_RELEASE: the oldest sample not yet delivered reaches its release instant.  While a break is open the samples wait. -/
def sysRelease (d : Dev) : Dev :=
  if !hlSynced d ∨ d.hl.breaking ∨ d.hl.missing.isSome then d
  else match d.erm.samples with
    | [] => d
    | (t, v) :: rest => sysDeliver { d with erm := { d.erm with samples := rest }, hl := { d.hl with lastFinal := t - 2000 } } v t

def insertSample (x : Int × Nat) : List (Int × Nat) → List (Int × Nat)
  | [] => [x]
  | y :: ys => if x.1 < y.1 then x :: y :: ys else if x.1 = y.1 then y :: ys else y :: insertSample x ys

/-- The first good final copy for instant `s` arrives at `t` (R445, R446). (DEDUCED, log 34) -/
def finalIn (d : Dev) (s : Int) (v : Nat) (t : Int) : Dev :=
  if s ≤ d.hl.lastFinal then d
  else if d.on O.hlLate then sysDeliver (d.onHl fun h => { h with lastFinal := s }) v ((t / 10) * 10)
  else { d with erm := { d.erm with samples := insertSample (s + 2000, v) d.erm.samples } }

/-- Lines recovered after a wrap or an unwrap are delivered in order, each in the cycle in which it arrives (R334, R447). -/
def sysRecover (d : Dev) (l : List (Int × Nat)) : Dev := l.foldl (fun x e => sysDeliver x e.2 ((x.clk / 10) * 10)) d

/-! Packets (R448, R449). -/

def ptReq := 1
def ptRsp := 2
def ptNotif := 3
def ptResult := 4
def ptCtl := 5
def ptLink := 6
def dstNeighbour := 0xFE
def dstAll := 0xFF

def hlPacket (typ dst src aux seq : Nat) (body : Bytes) : Bytes :=
  let h := beBytes 1 typ ++ beBytes 1 dst ++ beBytes 1 src ++ beBytes 1 aux ++ beBytes 2 seq ++ beBytes 2 body.length ++ body
  h ++ beBytes 4 (crc32c h)

/-- A packet of this node with its sequence number. -/
def ownPacket (d : Dev) (typ dst aux : Nat) (body : Bytes) : Bytes × Dev :=
  let k := dst * 8 + typ
  let n := tabGet 0 d.hl.seqOut k
  (hlPacket typ dst d.node aux n body, d.onHl fun h => { h with seqOut := tabSet 0 h.seqOut k ((n + 1) % 65536) })

/-- Position of the break seen from the head: the links up to it are reached in direction A. -/
def breakAt (d : Dev) : Option Nat := d.hl.breaks.head?.map fun e => if e.2 = 0 then e.1 else e.1 - 1

/-- The port through which a packet for `dst` leaves (R449). -/
def portFor (d : Dev) (dst : Nat) : Nat :=
  if d.hl.head then
    let p := tabGet dst d.hl.hops dst
    match (if hlState d = hsWrapped then breakAt d else none) with
    | some k => if p ≤ k then 0 else 1
    | none => if p ≤ d.nat O.hlNodes - p then 0 else 1
  else
    match (d.port 0).hopIn, (d.port 1).hopIn with
    | some a, some b => if a ≤ b then 0 else 1
    | some _, none => 0
    | none, some _ => 1
    | none, none => 0

def queueOn (d : Dev) (p : Nat) (dict : Bool) (b : Bytes) : Dev :=
  d.onPort p fun x => if dict then { x with dict := x.dict ++ [b] } else { x with ctl := x.ctl ++ [b] }

/-- A CTL packet: code, three reserved bytes, detail.  One for every node leaves the head through both ports. -/
def sendCtl (d : Dev) (dst code : Nat) (detail : Bytes) : Dev :=
  let (b, d) := ownPacket d ptCtl dst 0 (leBytes 1 code ++ [0, 0, 0] ++ detail)
  if dst = dstAll then queueOn (queueOn d 0 false b) 1 false b else queueOn d (portFor d dst) false b
def sendDict (d : Dev) (typ dst aux : Nat) (body : Bytes) : Dev :=
  let (b, d) := ownPacket d typ dst aux body
  queueOn d (portFor d dst) true b

/-! Membership at the head (R442). -/

def members (d : Dev) : Nat := leNat (d.byt O.hlMembers)
def setMembers (d : Dev) (m : Nat) : Dev := d.setBytes O.hlMembers (leBytes 8 m)

/-- What ends at the head when node `n` leaves: its locks, the requests forwarded to it (R381, R389). -/
def nodeGone (d : Dev) (n : Nat) : Dev :=
  let d := forUpto 32 (fun k x =>
    if lockHeld x k && x.nat O.jdpLockNode k == n then
      let slot := x.nat O.jdpLockOwner k
      let h := x.nat O.jdpLockHandle k
      let (x, c) := freeLock x k
      lockLost x slot h 3 c
    else x) d
  let d := forUpto 16 (fun k x =>
    match (x.ses k).awaiting with
    | some (m, _) => if m = n then x.onSes k fun s => { s with absent := true } else x
    | none => x) d
  (setMembers d (clrBit (members d) n)).onHl fun h =>
    { h with alive := tabDel h.alive n, uids := tabDel h.uids n, hops := tabDel h.hops n, linksOk := tabDel h.linksOk n,
             recovering := h.recovering.filter (· != n) }
/-- Every node leaves: a reform, or the head's own loss of the ring. -/
def nodesGone (d : Dev) : Dev := forUpto 64 (fun n x => if n ≠ 0 && bit (members x) n then nodeGone x n else x) d

/-! The circuit (R446). -/

/-- The head recomputes C from the path delays of its returned frames; LATE follows. (DEDUCED, log 35) -/
def circuit (d : Dev) : Dev :=
  let c := max (d.port 0).pathIn (d.port 1).pathIn
  let late := decide (1000000 < c)
  let was := d.on O.hlLate
  let d := (d.setN O.hlCircuit (min c 0xFFFFFFFF)).setB O.hlLate late
  let d := if late && !was then (d.flag O.hlFlags 4).raise 63 0 2 d.node else d
  staleFollow d

/-! Formation (R439-R442). -/

/-- What a node forgets when it is no longer part of a ring. -/
def ringClear (d : Dev) : Dev :=
  d.onHl fun h => { ports := h.ports.map fun p => { p with hopIn := none, pathIn := 0, rx := {}, transit := [], dict := [] },
                    formed := h.formed }

/-- The node originates: epoch + 1, FORMING, head. -/
def startForm (d : Dev) : Dev :=
  let e := (d.nat O.hlEpoch + 1) % 256
  let d := ringClear (nodesGone d)
  let d := d.onHl fun h => { h with head := true, formed := some e }
  let d := (((d.setN O.hlEpoch e).setN O.hlNode 0).setN O.hlNodes 1).setN O.hlState hsForming
  sysOff (setMembers (d.setB O.hlLate false) 1)

/-- A role that may form now, in SEARCH or ISOLATED; an AUTO node waits for ELECT_DELAY. -/
def formIfHead (d : Dev) : Dev :=
  let st := hlState d
  if (st = hsSearch ∨ st = hsIsolated) ∧ d.nat O.hlRole = 1 ∧ (d.nat O.hlPortState 0 ≠ 0 ∨ d.nat O.hlPortState 1 ≠ 0) then startForm d else d

/-- ELECT_DELAY. -/
def electDelay (d : Dev) : Dev :=
  let st := hlState d
  if (st = hsSearch ∨ st = hsIsolated) ∧ d.nat O.hlRole = 0 then startForm d else d

/-- The checks of R442. -/
def formed (d : Dev) : Bool :=
  match (d.port 0).hopIn, (d.port 1).hopIn with
  | some a, some b =>
    let n := a + 1
    a == b && decide (n ≤ 64) && !d.hl.conflict && (d.port 0).measured && (d.port 1).measured
    && d.hl.alive.length == n - 1 && d.hl.linksOk.all (fun e => e.2 == 1)
  | _, _ => false
def headCheck (d : Dev) : Dev :=
  if !d.hl.head ∨ hlState d ≠ hsForming ∨ !formed d then d
  else
    let d := d.setN O.hlNodes (d.hl.alive.length + 1)
    let d := (d.setN O.hlState hsSync).onHl fun h => { h with ringState := 1, given := d.clk, lastLines := 0xFFFF, collect := [] }
    circuit d

/-- A node enters WRAPPED. (DEDUCED, log 35) -/
def enterWrapped (d : Dev) : Dev :=
  if hlState d = hsWrapped then d else ((d.setN O.hlState hsWrapped).bump O.hlBreaks).flag O.hlFlags 1

/-- The head asks every member for its changes from the first instant without a final value (R447). -/
def askRecover (d : Dev) : Dev :=
  let from_ := d.hl.given + 40
  let ms := (List.range 64).filter fun n => n ≠ 0 && bit (members d) n
  if ms = [] then d
  else
    let d := d.onHl fun h => { h with missing := some from_, recovering := ms, recovered := [] }
    staleFollow (sendCtl d dstAll 5 (leInt 8 from_))

/-- The head declares WRAPPED (R452). -/
def headWrapped (d : Dev) (pos port : Nat) : Dev :=
  let d := d.onHl fun h => { h with
    ringState := 2, recalc := 3, ports := h.ports.map fun p => { p with pathIn := 0 },
    breaks := if h.breaks.contains (pos, port) then h.breaks else h.breaks ++ [(pos, port)] }
  if hlState d = hsWrapped then d
  else askRecover ((enterWrapped d).raise 63 0 3 (tabGet pos (d.hl.hops.map fun e => (e.2, e.1)) pos))

/-- A node whose port `p` is down in SYNC or WRAPPED loops its traffic back and tells the head (R452).
(DEDUCED, log 35) -/
def loopBack (d : Dev) (p : Nat) : Dev :=
  if (hlState d ≠ hsSync ∧ hlState d ≠ hsWrapped) ∨ bit d.hl.cut p then d
  else
    let d := d.onHl fun h => { h with cut := setBit h.cut p }
    if d.hl.head then headWrapped d 0 p
    else
      let first := hlState d == hsSync
      let d := (enterWrapped d).onHl fun h => { h with breaking := true }
      let d := if first then d.raise 63 0 3 d.node else d
      staleFollow (sendCtl d 0 3 (leBytes 1 p ++ leBytes 1 d.hl.pos))

/-- A port of this node goes down (R438, R452). -/
def portDown (d : Dev) (p : Nat) : Dev :=
  if d.nat O.hlPortState p = 0 ∨ hlState d = hsOff then d
  else
    let d := ((d.setN O.hlPortState 0 p).bump O.hlPortDowns p).onPort p fun x =>
      { x with good := 0, measured := false, hopIn := none, pathIn := 0, rx := {} }
    loopBack d p

/-- What a member holds for sessions of the head ends with it (R454). -/
def dropRemote (d : Dev) : Dev :=
  let d := forUpto 16 (fun k x => if x.sesOpen k then x else (freeLocks x k 0).1.onSes k fun _ => {}) d
  { d with jdp := { d.jdp with fwdKept := [], notices := [] } }

/-- Sessions and locks end with the head (R454). -/
def isolate (d : Dev) : Dev :=
  let d := ringClear d
  let d := (d.setN O.hlState hsIsolated).flag O.hlFlags 2
  let d := forUpto 2 (fun p x => if x.nat O.hlPortState p = 2 then x.setN O.hlPortState 1 p else x) d
  let d := dropRemote d
  formIfHead ((todSourceLoss (sysOff d) 1).raise 63 0 4 d.node)

/-- HL_ISOLATED: a member, in any state but OFF, sees no ring frame on either port for three frames. -/
def hlIsolated (d : Dev) : Dev :=
  let st := hlState d
  if d.hl.head ∨ st = hsOff ∨ st = hsSearch ∨ st = hsIsolated then d else isolate d

/-! Enabling (Table 17.5). -/

/-- The ports train with link frames. -/
def hlSearch (d : Dev) : Dev :=
  if !d.on O.hlEnable ∨ !d.pdOn 26 ∨ hlState d ≠ hsOff then d
  else
    let d := { d with hl := {} }
    forUpto 2 (fun p x => x.onPort p fun y => { y with polInForce := x.nat O.hlPortPol p }) (d.setN O.hlState hsSearch)
/-- The ports send nothing. -/
def hlOff (d : Dev) : Dev :=
  if hlState d = hsOff then d
  else
    let d := if d.hl.head then nodesGone d else d
    let d := { d with hl := {} }
    let d : Dev := forUpto 2 (fun p x => x.setN O.hlPortState 0 p) d
    let d := ((d.setN O.hlState hsOff).setN O.hlNode 0xFF).setN O.hlNodes 0
    let d : Dev := if d.nat O.todSrc = 1 then todSourceLoss d 1 else d
    sysOff ((setMembers d 0).setB O.hlLate false)
/-- The effect of a write of `hl.enable`. -/
def hlEnableEff (d : Dev) : Dev := if d.on O.hlEnable then hlSearch d else hlOff d

/-- REFORM at the head: a new epoch; every node leaves (R442). -/
def hlReform (d : Dev) : Eff := if !d.hl.head then refuse aState else .ok (startForm d)

end Sys2Proof.Machine
end

