-- ==== Sys2Proof/Machine/Cores.lean ====
section
/-! DEFINITION. The service cores (R490, R512-R514): takeover, core reset and rejoin, debug halt. -/
namespace Sys2Proof.Machine

def Dev.onFcr (d : Dev) (f : Fcr → Fcr) : Dev := { d with fcr := f d.fcr }
def coreOn (d : Dev) (c : Nat) : Bool := bit d.pmu.power (21 + c)
def coreLost (d : Dev) (c : Nat) : Bool := bit (d.nat O.fcrCoreLost) c
def coreHalted (d : Dev) (c : Nat) : Bool := bit d.fcr.halted c
def coreActive (d : Dev) : Nat := d.nat O.fcrCoreActive

/-- A core reset: the core loads and verifies its image again; a halted core waits for the end of the halt (R514). -/
def coreReset (d : Dev) (c : Nat) : Dev :=
  if !coreOn d c then d
  else if coreHalted d c then d.onFcr fun f => { f with deferred := setBit f.deferred c }
  else (if c = coreActive d then d else d.setN O.fcrCoreStandby 0).onFcr fun f =>
    { f with deferred := clrBit f.deferred c, rejoining := setBit f.rejoining c }

/-- The standby takes over from core `c` (R513, Table 20.9); the failed core rejoins unless it is declared lost (R514).
(DESIGN CHOICE, log 45) -/
def takeover (d : Dev) (c : Nat) (cause : Nat) : Dev :=
  let gap := min (Config.takeoverGap d.draws) 300000
  let d := ({ d with draws := d.draws + 1 }.setN O.fcrCoreActive (1 - c)).setN O.fcrCoreStandby 0
  let d := (d.bump O.fcrCoreTakeovers).setN O.fcrCoreLastGap gap
  let d := d.raise 68 0 cause c
  if coreLost d c then d else coreReset d c

/-- The active core is declared lost; without a ready standby nothing takes over (R514). -/
def activeLost (d : Dev) : Dev :=
  let c := coreActive d
  if d.on O.fcrCoreStandby then takeover d c (if coreHalted d c then 3 else 1) else d

/-- HEARTBEAT_MISS: the fifth heartbeat in a row is missed (R512). -/
def heartbeatMiss (d : Dev) : Dev := activeLost d

/-- CHECKPOINT (R512): the log is committed. (DESIGN CHOICE, log 45) -/
def checkpoint (d : Dev) : Dev := d.onFcr fun f => { f with ckptAt := d.up }

/-- CORE_REJOIN: core `c` has loaded its image, verified (`ok`) or not (R514). -/
def coreRejoin (d : Dev) (c : Nat) (ok : Bool) : Dev :=
  if !bit d.fcr.rejoining c then d
  else
    let d := d.onFcr fun f => { f with rejoining := clrBit f.rejoining c }
    if ok then (if c = coreActive d then d else d.setN O.fcrCoreStandby 1)
    else
      let d := d.raise 68 0 2 c
      if coreLost d c then d else (d.loseCore c).updateFallow

/-- DEBUG_HALT: needs debug unlocked (R551); a halted standby is not ready. -/
def debugHalt (d : Dev) (c : Nat) : Dev :=
  if !d.on O.dbgUnlocked ∨ coreHalted d c ∨ !coreOn d c then d
  else
    let d := d.onFcr fun f => { f with halted := setBit f.halted c }
    let d := ((d.setN O.dbgHalted d.fcr.halted).bump O.dbgHalts).setB O.dbgAttached true
    if c = coreActive d then d else d.setN O.fcrCoreStandby 0

/-- DEBUG_HALT_END: a deferred core reset is applied (R514). -/
def debugHaltEnd (d : Dev) (c : Nat) : Dev :=
  if !coreHalted d c then d
  else
    let d := d.onFcr fun f => { f with halted := clrBit f.halted c }
    let d := d.setN O.dbgHalted d.fcr.halted
    if bit d.fcr.deferred c then coreReset d c
    else if c = coreActive d ∨ bit d.fcr.rejoining c then d
    else d.setN O.fcrCoreStandby 1

/-- The core's domain is switched on: it loads its image. (DEDUCED, log 39) -/
def coreStart (d : Dev) (c : Nat) : Dev := d.onFcr fun f => { f with rejoining := setBit f.rejoining c }
/-- The core's domain is off. -/
def coreOff (d : Dev) (c : Nat) : Dev :=
  (if c = coreActive d then d else d.setN O.fcrCoreStandby 0).onFcr fun f => { f with rejoining := clrBit f.rejoining c }

/-- CORE_RESET: a write of `pmu.core_reset`, refused for the active core (Table 19.10). -/
def coreResetWrite (d : Dev) (c : Nat) : Eff := if c = coreActive d then refuse aState else .ok (coreReset d c)

end Sys2Proof.Machine
end

