-- ==== Sys2Proof/Machine/Power.lean ====
section
/-! DEFINITION. Power domains and power states (R478-R484): requests, their conditions, what a domain's units do when it comes on
and goes off. -/
namespace Sys2Proof.Machine

def Dev.onPmu (d : Dev) (f : Pmu → Pmu) : Dev := { d with pmu := f d.pmu }

/-- The bit of `clk.gate` of a domain, if it has one (Table 18.7). -/
def gateOf (n : Nat) : Option Nat := if 1 ≤ n ∧ n ≤ 20 then some (n - 1) else if 23 ≤ n ∧ n ≤ 26 then some (n - 3) else none

/-! Switching on (R46, R403, R479). -/

/-- A stored `ch.enable` enables nothing by being applied (R406). -/
def dropEnables (d : Dev) (n : Nat) : Dev := forUpto 8 (fun s x => x.setN O.chEnable 0 (8 * n + s)) d

/-- What a lane's domain holds starts cleared. -/
def laneFresh (d : Dev) (n : Nat) : Dev :=
  let d := { d with lanes := d.lanes.setIfInBounds n { autostarted := (d.lane n).autostarted },
                    traces := d.traces.setIfInBounds n {} }
  dropEnables (d.setLaneState n 1) n

def journalStart (d : Dev) : Dev :=
  let j := d.jrn
  if j.sectors = 0 then d.setN O.jrnState 4
  else (d.onJrn fun j => { j with unavailable := false, failRun := 0 }).setN O.jrnState (if j.holding then 3 else 1)

/-- The unit of domain `n` at its power-on, with the domain's entries applied. -/
def unitStart (d : Dev) (n : Nat) : Dev :=
  if 1 ≤ n ∧ n ≤ 12 then laneFresh d (n - 1)
  else if n = 13 then { d with seqs := Vector.replicate 96 {}, stDue := [] }
  else if n = 14 then
    let d := d.onRb fun b => { saved := b.saved, counts := b.saved }
    rbcStart { d with psc := { d.psc with scans := [] } }
  else if n = 15 then ctbRestart ((d.onCtb fun c => { segs := c.segs }).setI O.ctbEpoch d.now)
  else if n = 16 then { d with tins := Vector.replicate 8 {}, tdcs := Vector.replicate 8 {} }
  else if n = 17 ∨ n = 18 then
    (if (cgState d = cgLocked ∨ cgState d = cgBackup ∨ cgState d = cgSteer) ∧ 2 ≤ d.nat O.devState ∧ d.nat O.devState ≤ 4 then samStart d (n - 17) else d)
  else if n = 19 then axdPowerOn d
  else if n = 20 then ermReset d
  else if n = 21 ∨ n = 22 then coreStart d (n - 21)
  else if 23 ≤ n ∧ n ≤ 25 then netOnDomain d n
  else if n = 26 then hlSearch d
  else if n = 27 then journalStart d
  else d

/-- The domain carries power, and is ungated unless its unit is gated. -/
def powerBit (d : Dev) (n : Nat) : Dev :=
  let d := d.onPmu fun p => { p with power := setBit p.power n, onPend := clrBit p.onPend n }
  let gated := match gateOf n with | some k => bit (d.nat O.clkGate) k | none => false
  d.setN O.pmuPdState (putBit (d.nat O.pmuPdState) n !gated)

/-- The end of a switch-on: cleared, stored entries applied, running; a retained bank keeps its contents (R47). -/
def domainUp (d : Dev) (n : Nat) : Dev :=
  if bit (d.nat O.pmuPdRetain) n then
    powerBit (d.setN O.pmuPdRetain (clrBit (d.nat O.pmuPdRetain) n)) n
  else
    let d := if n = 28 then { d with bank := {} } else d
    unitStart (powerBit (applyDomain (d.dropDomain n) n) n) n

/-! Switching off. -/

/-- What goes with the power of domain `n`, from whatever state its unit is in. -/
def unitLeave (d : Dev) (n : Nat) : Dev :=
  if 1 ≤ n ∧ n ≤ 12 then cascadeSweep (d.laneOff (n - 1))
  else if n = 13 then
    forUpto 96 (fun i x => (x.setN O.chSeqState 0 i).setN O.chSeqSeg 0 i) { d with seqs := Vector.replicate 96 {}, stDue := [] }
  else if n = 14 then { rbState d false with psc := { (rbState d false).psc with scans := [], resetPend := d.psc.resetPend || !d.psc.runs.isEmpty } }
  else if n = 15 then ctbLost d
  else if n = 16 then tiuOff d
  else if n = 17 ∨ n = 18 then samStop d (n - 17)
  else if n = 19 then axdPowerOff d
  else if n = 20 then ermReset d
  else if n = 21 ∨ n = 22 then coreOff d (n - 21)
  else if 23 ≤ n ∧ n ≤ 25 then netOffDomain d n
  else if n = 26 then hlOff d
  else d

/-- The power of domain `n` is removed (R479). -/
def domainDown (d : Dev) (n : Nat) : Dev :=
  let d := (unitLeave d n).unpower n
  if n = 28 then { d with bank := {} }
  else if n = 27 then journalOff d false
  else d.dropDomain n

/-- PD28 goes into retention (R480). -/
def retain (d : Dev) (n : Nat) : Dev := (d.unpower n).setN O.pmuPdRetain (setBit (d.nat O.pmuPdRetain) n)

/-! Requests (R28, R478, R479). -/

/-- (DEDUCED, log 41) -/
def stillSwitching (d : Dev) (n : Nat) : Bool :=
  bit d.pmu.onPend n || bit d.pmu.offPend n || (decide (1 ≤ n ∧ n ≤ 12) && (d.lane (n - 1)).switchingOff)

/-- Code of a request to switch domain `n` on, 0 when accepted. (DEDUCED, log 64) -/
def onCode (d : Dev) (n : Nat) : Nat :=
  if n = 0 ∨ 31 ≤ n then aRange
  else if stillSwitching d n then aState
  else if 1 ≤ n ∧ n ≤ 12 ∧ bit (d.nat O.fallowIsolated) (n - 1) then aState
  else if (n = 21 ∨ n = 22) ∧ coreLost d (n - 21) then aState
  else 0

/-- A session of the requester's binding uses Ethernet port `p`. -/
def bindingUses (d : Dev) (binding p : Nat) : Bool :=
  binding % 16 == bindUdp && (List.range 16).any fun k =>
    d.sesOpen k && sesBinding d k % 16 == bindUdp && (prp d || (d.ses k).iface == p)

/-- An enabled function leans on the journal: relay actuation counts, or an execution or aperture whose results go to it (R28,
Table 1.1). (DEDUCED, log 64) -/
def leansOnJournal (d : Dev) : Bool :=
  d.on O.rbEnable || d.psc.runs.any (fun e => bit e.2.cfg.dest 0)
  || (List.range 96).any fun n => (d.chan n).ap.running && bit (d.chan n).ap.cfg.dest 0

/-- Code of a request to switch domain `n` off. (DEDUCED, log 64) -/
def offCode (d : Dev) (binding n : Nat) : Nat :=
  if n = 0 ∨ 31 ≤ n then aRange
  else if stillSwitching d n then aState
  else if n ≤ 12 then 0
  else if n = 21 ∨ n = 22 then (if n - 21 = coreActive d then aState else 0)
  else if n = 23 ∨ n = 24 then
    (if unitCode d (n - 3) ≠ 0 then unitCode d (n - 3) else if bindingUses d binding (n - 23) then aState else 0)
  else if n = 27 then (if leansOnJournal d then aDepend else if d.jrn.staging = [] ∧ d.jrn.ring = [] ∧ d.nat O.jrnVerifyState ≠ 1 then 0 else aState)
  else if n = 28 then (if bit d.pmu.power 13 ∨ bit d.pmu.power 14 then aState else 0)
  else if n = 29 ∨ n = 30 then aState
  else match gateOf n with
    | some k => unitCode d k
    | none => 0

def firstCode (f : Nat → Nat) (mask : Nat) : Nat :=
  ((List.range 32).filterMap fun n => if bit mask n && f n != 0 then some (f n) else none).headD 0

def askOn (d : Dev) (n : Nat) : Dev :=
  if bit d.pmu.power n then d else d.onPmu fun p => { p with onPend := setBit p.onPend n }
/-- A retained PD28 that is switched fully off loses its contents (R47). -/
def loseRetained (d : Dev) : Dev := { d.setN O.pmuPdRetain (clrBit (d.nat O.pmuPdRetain) 28) with bank := {} }
/-- A lane passes through DRAIN; its domain goes off when the drain ends. -/
def askOff (d : Dev) (n : Nat) : Dev :=
  if !bit d.pmu.power n then (if n = 28 then loseRetained d else d)
  else if 1 ≤ n ∧ n ≤ 12 then d.drainLane (n - 1) true
  else d.onPmu fun p => { p with offPend := setBit p.offPend n }

def eachBit (mask : Nat) (f : Dev → Nat → Dev) (d : Dev) : Dev := forUpto 31 (fun n x => if bit mask n then f x n else x) d

/-- DOMAIN_ON. -/
def domainOn (d : Dev) (mask : Nat) : Eff :=
  let c := firstCode (onCode d) mask
  if c ≠ 0 then refuse c else .ok (eachBit mask askOn d)
/-- DOMAIN_OFF, for a session of `binding`. -/
def domainOff (d : Dev) (binding mask : Nat) : Eff :=
  let c := firstCode (offCode d binding) mask
  if c ≠ 0 then refuse c else .ok (eachBit mask askOff d)

/-! Power states (R481). -/

/-- `pmu.pstate` is QUIET while a domain of the recorded set is off. -/
def pstateFollow (d : Dev) : Dev :=
  d.setB O.pmuPstate ((List.range 31).any fun n => bit d.pmu.quiet n && !bit d.pmu.power n)

/-- DOMAIN_SWITCH_DONE: domain `n` completes the switch asked for. -/
def domainSwitchDone (d : Dev) (n : Nat) : Dev :=
  let d :=
    if bit d.pmu.onPend n then (domainUp d n).onPmu fun p => { p with quiet := clrBit p.quiet n }
    else if bit d.pmu.offPend n then (if n = 28 ∧ bit d.pmu.quiet 28 then retain d 28 else domainDown d n)
    else d
  pstateFollow d

/-- QUIET may switch domain `n` off. -/
def quietTakes (d : Dev) (n : Nat) : Bool :=
  bit d.pmu.power n && !bit (d.nat O.pmuKeep) n && offCode d 0 n == 0
  && (match gateOf n with | some k => unitIdle d k | none => false)

def quiet (d : Dev) : Eff :=
  let set := forUpto 21 (fun n m => if 1 ≤ n && quietTakes d n then setBit m n else m) 0
  let off := fun n => bit set n || !bit d.pmu.power n
  let set := if off 13 && off 14 && bit d.pmu.power 28 && !bit (d.nat O.pmuKeep) 28 then setBit set 28 else set
  let d := d.onPmu fun p => { p with quiet := p.quiet ||| set }
  .ok (pstateFollow (eachBit set askOff d))

def pmuRun (d : Dev) : Eff :=
  .ok (eachBit d.pmu.quiet (fun x n => if onCode x n = 0 then askOn x n else x) d)

/-! Resets of one unit (Table 19.4). -/

/-- LANE_RESET: the lanes of the mask that carry power go off and on without drain. (DEDUCED, log 41) -/
def laneReset (d : Dev) (mask : Nat) : Eff :=
  if 4096 ≤ mask then refuse aRange
  else
    let one := fun (x : Dev) (n : Nat) =>
      if !bit x.pmu.power (n + 1) then x
      else
        askOn (x.laneCut n) (n + 1)
    .ok (forUpto 12 (fun n x => if bit mask n then one x n else x) d)

/-- The condition of Table 18.7 for a unit reset. -/
def resetIdle (d : Dev) (k : Nat) : Bool := if k = 16 ∨ k = 17 ∨ k = 19 then !leansOn d k else unitIdle d k

/-- The unit returns to its state at power-on and its entries are applied again. (DEDUCED, log 41) -/
def unitAgain (d : Dev) (k : Nat) : Dev :=
  let n := gateDomain k
  if !bit d.pmu.power n then d
  else
    let d := if k = 13 then relayCountSave d else d
    let d := unitLeave d n
    domainUp (d.onPmu fun p => { p with power := setBit p.power n }) n

/-- UNIT_RESET. (DEDUCED, log 41) -/
def unitReset (d : Dev) (mask : Nat) : Eff :=
  if 2 ^ 24 ≤ mask then refuse aRange
  else if (List.range 24).any (fun k => bit mask k && bit d.pmu.power (gateDomain k) && !resetIdle d k) then refuse aState
  else .ok (forUpto 24 (fun k x => if bit mask k then unitAgain x k else x) d)

end Sys2Proof.Machine
end

