-- ==== Sys2Proof/Machine/Boot.lean ====
section
/-! DEFINITION. Resets and boot (R482-R496): what each reset keeps, the RESET_N pin, straps, the choice of a firmware slot, and the
way from BOOT to service. -/
namespace Sys2Proof.Machine

/-! What a reset keeps. -/

/-- Objects that the RTC, MRAM or flash keep through every reset; the trim is the RTC's own through OFF (R289). -/
def keepsPower (o : Obj) : Bool :=
  o.pers == .cal || o.pers == .ident || [O.todRtcValid, O.todRtcTrim, O.fcrHistorySeq, O.jrnAck, O.jrnSeqSealed, O.jrnFlashSize, O.jrnFlashRetired,
    O.jrnFlashPasses].contains o
/-- Objects that PD0 keeps through a controller reset, the point records in their retained bank, and those of a CGU that runs on.
(DEDUCED, log 39) -/
def keepsReset (clk : Bool) (o : Obj) : Bool :=
  keepsPower o || (clk && decide (o.idx = 0x2010)) || decide (0x4000 ≤ o.idx ∧ o.idx < 0x5000)
  || [O.pmuPfailCount, O.pmuFlags, O.pmuResetCause, O.pmuResetTime, O.pmuResetCount, O.pmuResetStuckGuard, O.pmuResetPin, O.pmuWdtTimeout,
      O.pmuWdtExpiries, O.pmuWakeAt, O.pmuWakeSrc, O.pmuWakeDetail, O.todState, O.devState, O.devPrevState, O.devSince, O.devReason,
      O.fcrFirst, O.fcrFirstHeld, O.fcrRaises, O.fcrStatus, O.fcrSevere, O.fcrSrcCount, O.fcrSrcLast, O.fcrSrcCause, O.fcrCoreTakeovers,
      O.compatBlkStatus, O.fallowIsolated, O.fallowEntries, O.calWrites, O.dbgUnlocked].contains o

def keepObjs (p : Obj → Bool) (t : Tab Val) : Tab Val := dropWhere (fun l => !p l.o) t

/-- An unfinished STORE leaves its slot without a valid image (R400). -/
def cfgCut (c : Cfg) : Cfg :=
  match c.writing with
  | none => c
  | some _ => match activeImage c with
    | some (_, true) => { slotA := c.slotA }
    | _ => { slotB := c.slotB }

/-- What MRAM and flash keep of the journal. -/
def jrnKeep (j : Jrn) : Jrn :=
  { pages := j.pages, sectors := j.sectors, head := j.head, retired := j.retired, pageSeq := j.pageSeq, prevSeal := j.prevSeal,
    jid := j.jid, reserved := j.reserved, storedHead := j.storedHead, sinceStored := j.sinceStored, formatDraws := j.formatDraws }

/-- The clock generation unit keeps running through a controller reset (R486). -/
def clkRuns (d : Dev) : Bool := cgState d == cgLocked || cgState d == cgBackup

/-- The conditions of Table 20.12 that a controller reset leaves: all but a lost core and MRAM wear. (DEDUCED, log 39) -/
def fcrKeep (f : Fcr) (up : Nat) : Fcr :=
  { rings := f.rings, firstAt := f.firstAt, merged := f.merged, lastSafe := f.lastSafe, holds := clrBit f.holds 2, history := f.history,
    ckptAt := up }

/-- A controller reset (R486). (DEDUCED, log 39) -/
def clearReset (d : Dev) : Dev :=
  let clk := clkRuns d
  let excess := d.nat O.fcrFlags &&& 2
  let e : Dev :=
    { objs := keepObjs (keepsReset clk) d.objs, up := d.up, frame := d.frame, draws := d.draws, tods := d.tods,
      tod := { t := d.tod.t, tf := d.tod.tf, f := d.tod.f, c := d.tod.c, holdAt := d.tod.holdAt, rtcSec := d.tod.rtcSec,
               rtcSub := d.tod.rtcSub, rtcRaw := d.tod.rtcRaw, rtcLoad := d.tod.rtcLoad },
      bank := d.bank, psc := { runs := d.psc.runs, resetPend := true, rb := { saved := d.psc.rb.saved, counts := d.psc.rb.saved } },
      cfg := cfgCut d.cfg, fcr := fcrKeep d.fcr d.up, jrn := jrnKeep d.jrn, cal := { blocks := d.cal.blocks },
      fw := { d.fw with verifying := false, dbgUntil := 0 },
      erm := { pins := d.erm.pins }, clkg := if clk then d.clkg else {},
      pmu := { bootSlot := none, stuckPend := d.pmu.stuckPend, held := true, releasedAt := d.pmu.releasedAt } }
  let e := if todState d = tsLocked then { e.setN O.todState tsHoldover with tod := { e.tod with holdAt := d.up } } else e
  let e := (e.setN O.fcrFlags excess).setN O.pmuPdState 1
  let e := e.setN O.fallowLanes (d.nat O.fallowIsolated)
  let keep := 0x30000000 &&& (d.pmu.power ||| d.nat O.pmuPdRetain)
  e.setN O.pmuPdRetain keep

/-- A controller reset begins: PD1 to PD27 off, PD28 and PD29 in retention, PD30 reset (R486). -/
def resetHold (d : Dev) : Dev := ((clearReset d).bump O.pmuResetCount).setI O.pmuResetTime d.now

/-! Straps (R491). -/

/-- Digit of a pin from its three samples: no pull, pull-up, pull-down in bits 0 to 2. -/
def strapDigit (s : Nat) : Option Nat := if s = 0 then some 0 else if s = 2 then some 1 else if s = 3 then some 2 else if s = 7 then some 3 else none
/-- STRAP_READ: EVIO0 to EVIO2, three bits each. -/
def strapRead (d : Dev) (s : Nat) : Dev :=
  match strapDigit (s % 8), strapDigit (s / 8 % 8), strapDigit (s / 64 % 8) with
  | some a, some b, some c => d.setN O.pmuBootStrap (a + 4 * b + 16 * c)
  | _, _, _ => (d.setN O.pmuBootStrap 0xFF).flag O.pmuFlags 32

/-! The slot (R493). -/

/-- The boot record after the choice, the slot, and whether it was a rollback or a fallback. -/
structure Choice where
  fw : Fw
  slot : Option Nat := none
  rollback : Bool := false
  fallback : Bool := false
  deriving DecidableEq, Repr

def chooseValid (ok : Nat → Bool) (f : Fw) (p : Nat) (roll : Bool) : Choice :=
  if ok p then { fw := f, slot := some p, rollback := roll }
  else if ok (1 - p) then { fw := f, slot := some (1 - p), rollback := roll, fallback := true }
  else { fw := f, rollback := roll }
def slotChoice (ok : Nat → Bool) (f : Fw) : Choice :=
  let p := f.preferred
  if bit f.confirmed p then chooseValid ok f p false
  else if 0 < f.trials ∧ ok p then { fw := { f with trials := f.trials - 1 }, slot := some p }
  else chooseValid ok { f with preferred := 1 - p } (1 - p) true

def bootObjects (d : Dev) : Dev :=
  ((d.setN O.pmuBootPref d.fw.preferred).setN O.pmuBootConfirmed d.fw.confirmed).setN O.pmuBootTrials d.fw.trials

/-- The objects of the running image (R548). -/
def idObjects (d : Dev) (s : Nat) : Dev :=
  let b := fwSlot d s
  (((d.setN O.idFwVersion (fwVersion b)).setN O.idFwSlot s).setI O.idFwBuilt (leFieldI b 20 8)).setBytes O.idFwHash (slice b 32 32)

/-- The slot is chosen; F071 names a rollback or a fallback. (DESIGN CHOICE, log 4) -/
def chooseSlot (v : Vault) (d : Dev) : Dev :=
  let c := slotChoice (fwValid v d) d.fw
  let d := bootObjects { d with fw := c.fw, pmu := { d.pmu with bootSlot := c.slot } }
  match c.slot with
  | none => { d with replace := true }
  | some s =>
    let d := idObjects { d with fw := { d.fw with running := s } } s
    let d := if c.rollback then (d.flag O.pmuFlags 4).raise 71 0 1 s else d
    if c.fallback then (d.flag O.pmuFlags 2).raise 71 0 2 s else d

/-- The reset is released (Table 19.7, first row). -/
def resetRelease (v : Vault) (d : Dev) (cause straps : Nat) : Dev :=
  let d := (d.onPmu fun p => { p with held := false, releasedAt := d.up, power := 0x40000001 ||| (p.power % 2) })
  let d := ((journalBoot d).setN O.pmuResetCause cause).setN O.pmuPdState 0x40000001
  let d := (strapRead { d with replace := false } straps).enterState 0 (0x0100 + cause)
  let d := d.setN O.devReason (0x0100 + cause)
  refAvailable (chooseSlot v (debugRelock d))

/-- Reset and release together, for a reset that has no held time of its own. -/
def controllerReset (v : Vault) (d : Dev) (cause straps : Nat) : Dev := resetRelease v (resetHold d) cause straps

/-! From BOOT to service (Table 19.7). -/

/-- Both cores start; core A is active (R492). -/
def coresStart (d : Dev) : Dev :=
  let d := (d.setN O.fcrCoreActive 0).onPmu fun p => { p with power := setBit (setBit p.power 21) 22, onPend := 0 }
  let d := d.setN O.pmuPdState (setBit (setBit (d.nat O.pmuPdState) 21) 22)
  d.setN O.fcrCoreStandby 1

/-- `ch.enable` of the image is kept for the lanes' first entry into RUN (R406). -/
def captureEnables (d : Dev) : Dev :=
  forUpto 96 (fun n x => (x.onChan n fun c => { c with bootEnable := x.on O.chEnable n }).setN O.chEnable 0 n) d

/-- The stored image is applied at a reset (R403). -/
def bootImage (d : Dev) : Dev := cfgObjects (captureEnables (applyImage d fun _ => true))

/-- Domains that BOOT switches on. -/
def bootMask (d : Dev) : Nat :=
  let m := (d.nat O.pmuPdBoot ||| 0x60200000) % 0x80000000
  forUpto 12 (fun n m => if bit (d.nat O.fallowIsolated) n then clrBit m (n + 1) else m) m

/-- A domain that BOOT switches on; the cores run already. -/
def bootUp (d : Dev) (n : Nat) : Dev :=
  if n = 0 ∨ n = 21 ∨ n = 22 ∨ n = 30 then d
  else if bit (d.nat O.pmuPdRetain) n then powerBit (d.setN O.pmuPdRetain (clrBit (d.nat O.pmuPdRetain) n)) n
  else unitStart (powerBit d n) n

/-- Core B goes off when `pmu.pd.boot` leaves it out. -/
def bootCoreB (d : Dev) (mask : Nat) : Dev := if bit mask 22 then d else domainDown d 22

/-- The state at the end of Table 19.7: SAFE by start, cause or a held reaction, else MEADOW, or FALLOW at once (R504, R522). -/
def bootState (d : Dev) (reason : Nat) : Dev :=
  let held := d.fcr.heldAction
  let d := (d.onFcr fun f => { f with heldAction := 0 }).onPmu fun p => { p with upSince := d.up }
  if d.on O.pmuBootSafeStart ∨ d.nat O.pmuResetCause = 4 then d.enterSafe 0x0113
  else if held = 2 then d.enterSafe 0x0202
  else if d.fallowHolds ≠ 0 then ({ d with replace := true }.setN O.fallowCauses d.fallowHolds |>.setN O.fallowLost (d.fallowHolds % 64)).enterFallow 0x0201
  else d.enterState 2 reason

/-- The domains come on, the device enters service. -/
def enterService (d : Dev) (reason : Nat) : Dev :=
  let mask := bootMask d
  let d := (bootState (d.setN O.pmuBootTime (d.up - d.pmu.releasedAt)) reason)
  let d := bootCoreB (eachBit mask bootUp d) mask
  let d := pstateFollow (d.onPmu fun p => { p with quiet := 0 })
  let d := todResume d
  if d.pmu.stuckPend then (d.onPmu fun p => { p with stuckPend := false }).raise 65 0 1 0 else d

/-- BOOT_IMAGE_VERIFIED: the image of the chosen slot is loaded and verified. -/
def bootVerified (d : Dev) : Dev :=
  if d.nat O.devState ≠ 0 ∨ d.pmu.held ∨ d.pmu.bootSlot = none then d
  else if cgState d = cgLimp then
    let d := coresStart (bootImage d)
    todOnRtc ((d.setN O.pmuBootTime (d.up - d.pmu.releasedAt)).enterState 1 0x0110)
  else if cgState d = cgLocked ∨ cgState d = cgBackup then enterService (coresStart (bootImage d)) 0x0111
  else d

/-- PLL_LOCK: HEATH ends when the CGU reaches LOCKED. -/
def pllLocked (d : Dev) : Dev :=
  let d := pllLock d
  if d.nat O.devState = 1 ∧ cgState d = cgLocked then enterService d 0x0112 else d

/-! The pin (R487, Table 19.5). -/

def resetPinLow (d : Dev) : Dev :=
  if d.nat O.pmuResetPin ≠ 1 ∨ d.nat O.devState = 6 then d
  else
    let d := if d.nat O.devState = 5 then ((d.setN O.pmuWakeSrc 5).setN O.pmuWakeDetail 0).setI O.pmuWakeAt 0 else d
    (resetHold d).setN O.pmuResetPin 2
def resetPinHigh (v : Vault) (d : Dev) (straps : Nat) : Dev :=
  if d.nat O.pmuResetPin ≠ 2 then d else resetRelease v (d.setN O.pmuResetPin 1) 2 straps
/-- RESET_STUCK_GUARD. -/
def resetStuck (v : Vault) (d : Dev) (straps : Nat) : Dev :=
  if d.nat O.pmuResetPin ≠ 2 then d
  else
    let d := ((d.setN O.pmuResetPin 3).flag O.pmuFlags 8).onPmu fun p => { p with stuckPend := true }
    resetRelease v d 5 straps
/-- RESET_PIN_REARM: high for 100 ms in IGNORED. -/
def resetRearm (d : Dev) : Dev := if d.nat O.pmuResetPin = 3 then d.setN O.pmuResetPin 1 else d

/-! Power-on reset and OFF (R484, R485). -/

/-- What survives a power-on reset: the VBAT domain, MRAM and flash. -/
def clearPower (d : Dev) : Dev :=
  let e : Dev :=
    { objs := keepObjs keepsPower d.objs, draws := d.draws,
      tod := { rtcSec := d.tod.rtcSec, rtcSub := d.tod.rtcSub, rtcRaw := d.tod.rtcRaw, rtcLoad := d.tod.rtcLoad },
      psc := { rb := { saved := d.psc.rb.saved, counts := d.psc.rb.saved } },
      cfg := cfgCut d.cfg, fcr := { history := d.fcr.history }, jrn := jrnKeep d.jrn, cal := { blocks := d.cal.blocks },
      fw := { d.fw with verifying := false, dbgUntil := 0 }, erm := { pins := d.erm.pins } }
  ((e.setN O.pmuPdState 1).setN O.pmuResetPin 0).setN O.devState 0
def powerOnReset (d : Dev) : Dev := clearPower d
/-- POWER_OFF: VDD_AON is gone (R484). -/
def powerOff (d : Dev) : Dev := (clearPower d).setN O.devState 6

/-- POWER_ON_RESET_RELEASE: supplies and PWR_OK good, RESET_N high (POWERUP to ARMED); `counts` of the RTC since its last load, the
flash found on QSPI, the straps. (DESIGN CHOICE, log 4) -/
def powerRelease (v : Vault) (d : Dev) (counts size : Nat) (able : Bool) (straps : Nat) : Dev :=
  if d.nat O.pmuResetPin ≠ 0 then d
  else
    let d := (d.setN O.pmuResetPin 1).setN O.devState 0
    let d := (todPowerUp d counts).setI O.pmuResetTime d.now
    let d := (flashDiscover d size able).setN O.jrnState (if able ∧ 8388608 ≤ size ∧ size ≤ 1073741824 then 0 else 4)
    resetRelease v d 1 straps

/-! STANDBY and waking (R482, R483). -/

def standbyRefused (d : Dev) : Bool :=
  ((List.range 12).any fun n => [4, 5, 6, 8].contains (d.nat O.laneState n)) || !d.psc.runs.isEmpty
  || ((List.range 256).any fun n => let s := d.nat O.scanState n; s != 0 && s != 3)
  || ((List.range 96).any fun n => let s := d.nat O.seqState n; s != 0 && s != 3)

/-- Every record is programmed, over fuel, and the page is sealed (R531). -/
def flushJournal (kj : Bytes) : Nat → Dev → Dev
  | 0, d => sealPage d kj
  | n + 1, d => match nextRecord d with
    | none => sealPage d kj
    | some _ => if d.jrn.holding ∨ d.nat O.jrnState = 0 ∨ d.nat O.jrnState = 4 then d else flushJournal kj n (flashDone d kj true)

/-- The steps of R482 before the domains go off; `counts` of the RTC since its last load. -/
def standbyPrepare (kj : Bytes) (d : Dev) (counts : Nat) : Dev :=
  let d := d.station 1 0 (leBytes 1 5 ++ leBytes 1 (d.nat O.devState) ++ leBytes 2 0x0120)
  let d := forUpto 16 (fun k x => drainQueue x k) (d.notifyStation 1 5)
  let d := rtcLoad (relayCountSave d) counts
  let d := flushJournal kj (d.jrn.staging.length + d.jrn.ring.length + 4) d
  endBinding d fun _ => true

/-- STANDBY. (DEDUCED, log 40) -/
def standby (kj : Bytes) (d : Dev) (counts : Nat) : Eff :=
  if standbyRefused d then refuse aState
  else
    let d := todOnRtc (standbyPrepare kj d counts)
    let out := d.jdp.sent
    let old := d.nat O.devState
    let n := d.nat O.devTransitions
    let d := { clearReset (d.setN O.clkState 0) with jdp := { sent := out } }
    let d := (((d.setN O.devPrevState old).setN O.devState 5).setI O.devSince d.now).setN O.devReason 0x0120
    .ok (d.setN O.devTransitions (n + 1))

/-- WAKE: source `src` of Table 19.3 with its pin or port. (DEDUCED, log 40) -/
def wake (v : Vault) (d : Dev) (src detail straps : Nat) : Dev :=
  if d.nat O.devState ≠ 5 then d
  else
    let d := ((d.setN O.pmuWakeSrc src).setN O.pmuWakeDetail detail).setI O.pmuWakeAt 0
    controllerReset v d 6 straps

/-! Requests, watchdogs, warnings (R485, R489, R490, R494). -/

/-- RESET_REQUEST: `pmu.cmd` RESET acts 1 ms after its response; the relay counts are written first (R264). -/
def resetRequest (v : Vault) (d : Dev) (straps : Nat) : Dev :=
  let wait := match d.pmu.resetDue with | some t => t - d.up | none => 1000000
  controllerReset v { relayCountSave d with up := d.up + wait } 3 straps

/-- WATCHDOG_EXPIRY of core `c`. -/
def watchdogExpiry (v : Vault) (d : Dev) (c straps : Nat) : Dev :=
  if !coreOn d c then d
  else
    let d := ((d.bump O.pmuWdtExpiries).flag O.pmuFlags 1).raise (66 + c) 0 1 0
    if c ≠ coreActive d then coreReset d c
    else if d.on O.fcrCoreStandby then activeLost d
    else controllerReset v d 4 straps

/-- POWER_FAIL_WARNING (R489). -/
def powerFail (d : Dev) : Dev :=
  let d := relayCountSave d
  let d := if d.on O.fcrFirstHeld then d.history 1 (d.byt O.fcrFirst) else d
  ((d.flag O.pmuFlags 16).bump O.pmuPfailCount).raise 64 0 1 0

/-- CONFIRM: `pmu.cmd` CONFIRM, refused when the running slot is confirmed already. -/
def confirmSlot (v : Vault) (d : Dev) : VEff :=
  if bit d.fw.confirmed d.fw.running then vrefuse aState
  else
    let (v, d) := fwConfirm v d d.fw.running
    .ok (v, bootObjects d)
/-- BOOT_CONFIRM_TIME: the device has stayed in MEADOW or FALLOW for `pmu.boot.confirm_time`. -/
def confirmTime (v : Vault) (d : Dev) : Vault × Dev :=
  if (d.nat O.devState ≠ 2 ∧ d.nat O.devState ≠ 3) ∨ bit d.fw.confirmed d.fw.running then (v, d)
  else
    let (v, d) := fwConfirm v d d.fw.running
    (v, bootObjects d)

/-! Domains lost by a fault (R29, R192, R229). -/

/-- The lane keeps for channel `i` the last value that its sequencer delivered; a running one fails the iteration whose value was
being prepared (R229). -/
def seqKeep (d : Dev) (i : Nat) : Dev :=
  let v := ((d.chan i).seqLast).getD (d.int O.seqValue i)
  d.onChan i fun c => { c with seqLatch := some v, seqLost := if d.nat O.seqState i = 2 then some (d.frame + 1) else none }

/-- The source of the cycle time base is in domain `n` (Table 1.1). -/
def ctbLeans (d : Dev) (n : Nat) : Bool :=
  let src := d.nat O.ctbSrc
  (n == 16 && (src == 1 || src == 3)) || (src == 2 && n == 17 + d.nat O.ctbMon / 128) || (src == 4 && n == 20)

/-- What units in other domains do when domain `n`, on which they lean, is lost (R29): sequencers without their tables fail, the
cycle time base stalls, time of day loses its source. (DESIGN CHOICE, log 114) -/
def dependantsStop (d : Dev) (n : Nat) : Dev :=
  let d := if n = 28 then forUpto 96 (fun i x => let st := x.nat O.seqState i; if st = 1 ∨ st = 2 then seqFail x i 4 else x) d else d
  let d := if ctbLeans d n ∧ ctbState d ≠ csOff ∧ ctbState d ≠ csStall then ctbStallNow d else d
  if n = 16 then todSourceLoss d 3 else if n = 23 then todSourceLoss d 2 else if n = 26 then todSourceLoss d 1 else d

/-- SRAM bank 1 is lost: the result pool, the streams' counts, every C, and the point records under their executions, which end as
those found active after a reset do. (DESIGN CHOICE, log 114) -/
def bankOneLost (d : Dev) : Dev :=
  let d := forUpto 96 (fun n x => x.onChan n fun c => { c with c := none, lastRec := [] }) d
  { d with pool := [], streams := [], bank := { d.bank with oneBad := [], oneFix := [] },
           psc := { d.psc with resetPend := d.psc.resetPend || !d.psc.runs.isEmpty } }

/-- DOMAIN_SWITCHED_OFF_BY_FAULT: domain `n` is lost by a fault. -/
def domainLost (d : Dev) (n : Nat) : Dev :=
  if n = 0 ∨ !bit d.pmu.power n then d
  else if n ≤ 12 then cascadeSweep ((d.laneCut (n - 1)).flag O.fallowLanes (1 <<< (n - 1))).updateFallow
  else if n = 13 then (domainDown (forUpto 96 (fun i x => seqKeep x i) d) 13).raise 48 0 5 0
  else if n = 21 ∨ n = 22 then
    let c := n - 21
    let d := d.unpower n
    if c = coreActive d then activeLost d else coreOff d c
  else if n = 27 then journalOff (d.unpower 27) true
  else if n = 29 then bankOneLost (domainDown d 29)
  else dependantsStop (domainDown d n) n

end Sys2Proof.Machine
end

