-- ==== Sys2Proof/Machine/Faults.lean ====
section
/-! DEFINITION. Commands of the fault collector and of FALLOW (R499, R507, R509, R519, R520, R524). -/
namespace Sys2Proof.Machine

/-- The armed injection that a raise of this source stems from (Table 20.6, targets 4 and 5), and the device with it spent.
(DEDUCED, log 46) -/
def injected (d : Dev) (src cause detail : Nat) : Bool × Dev :=
  match d.fcr.inject with
  | some x =>
    if (x.target = 4 ∧ src = 70 ∧ x.unit = detail) ∨ (x.target = 5 ∧ src = 53 ∧ cause = 2 ∧ x.unit = detail) then
      let left := x.left - 1
      (true, d.onFcr fun f => { f with inject := if left = 0 then none else some { x with left := left } })
    else (false, d)
  | none => (false, d)

/-- The error line of a source. -/
def errorLine (d : Dev) (src : Nat) (b : Bool) : Dev :=
  d.setN O.fcrActive (putBit (d.nat O.fcrActive 0 (src / 32)) (src % 32) b) 0 (src / 32)

/-- FAULT_RAISE: the unit of source `src` asserts its line with a cause word; `line` says whether it stays asserted.  An uncorrectable
error in the active core's memory is a loss of the core (R512). (DEDUCED, log 42; DEDUCED, log 46) -/
def faultRaise (d : Dev) (src level cause detail : Nat) (line : Bool) : Dev :=
  let d := errorLine d src line
  let (inj, d) := injected d src cause detail
  let d := d.raise src level cause detail inj
  if (src = 51 ∨ src = 52) ∧ cause = 1 ∧ src - 51 = coreActive d ∧ coreOn d (src - 51) then activeLost d else d

/-- FAULT_ACK (R507). (DEDUCED, log 56) -/
def faultAck (d : Dev) : Dev :=
  let d := d.history 4 (if d.on O.fcrFirstHeld then d.byt O.fcrFirst else d.snapshot 0 0 0 0)
  let d := d.onFcr fun f => { f with firstAt := none, merged := 0 }
  let d := ((d.setN O.fcrFirstHeld 0).setBytes O.fcrFirst [])
  d.setN O.fcrFlags (clrBit (d.nat O.fcrFlags) 1)

/-- FCR_SAFE (Table 20.11). -/
def fcrSafe (d : Dev) : Dev := if d.nat O.devState = 2 ∨ d.nat O.devState = 3 then d.enterSafe 0x0204 else d

/-- Instances of Table 20.6. -/
def injectOk (target unit : Nat) : Bool :=
  if target = 1 ∨ target = 2 then decide (unit ≤ 13)
  else if target = 3 then decide (unit ≤ 11)
  else if target = 4 then decide (unit ≤ 23)
  else target == 5 && (unit == 1 || unit == 2 || unit == 4 || unit == 5)

/-- FAULT_INJECT (R509). (DEDUCED, log 46) -/
def faultInject (d : Dev) (b : Bytes) : Eff :=
  let t := leField b 0 1
  let u := leField b 1 1
  let n := leField b 2 2
  if b.length ≠ 8 then refuse aLength 8
  else if !injectOk t u ∨ n = 0 ∨ !allZero (b.drop 4) then refuse aRange
  else if d.fcr.inject.isSome then refuse aState
  else .ok (d.onFcr fun f => { f with inject := some ⟨t, u, n⟩ })

/-- FALLOW ends (R519, R522). -/
def leaveFallow (d : Dev) (reason : Nat) : Dev :=
  let d := ({ d with replace := false }.enterState 2 reason).onPmu fun p => { p with upSince := d.up }
  d.history 3 (d.snapshot 0 0 0 0)

/-- RECHECK. -/
def recheck (d : Dev) : Eff :=
  if d.nat O.devState ≠ 3 then refuse aState
  else
    let d := d.onFcr fun f => { f with holds := clrBit f.holds 4 }
    let h := d.fallowHolds
    let d := (d.setN O.fallowCauses (d.nat O.fallowCauses &&& h)).setN O.fallowLost (h % 64)
    .ok (if h = 0 then leaveFallow d 0x0207 else d)

/-- A source whose last raise issued SAFE has its line active. -/
def safeLine (d : Dev) : Bool := d.fcr.lastSafe.any fun s => bit (d.nat O.fcrActive 0 (s / 32)) (s % 32)

/-- LEAVE_SAFE. (DEDUCED, log 42) -/
def leaveSafe (d : Dev) : Eff :=
  if d.nat O.devState ≠ 4 ∨ (cgState d ≠ cgLocked ∧ cgState d ≠ cgBackup) ∨ safeLine d then refuse aState
  else if d.fallowHolds ≠ 0 then .ok ((d.onPmu fun p => { p with upSince := d.up }).enterFallow 0x0206)
  else .ok (leaveFallow d 0x0205)

/-- RESTORE_LANE (R524). -/
def restoreLane (d : Dev) (n : Nat) : Eff :=
  if 12 ≤ n then refuse aRange
  else if !bit (d.nat O.fallowIsolated) n then refuse aState
  else
    let d := (d.setN O.fallowIsolated (clrBit (d.nat O.fallowIsolated) n)).setN O.fallowLanes (clrBit (d.nat O.fallowLanes) n)
    .ok (askOn (d.setN O.fallowLost (d.fallowHolds % 64)) (n + 1))

/-- LANE_GRACE_EXPIRY: lane `n` has been in FAULT with its enable set for `fallow.lane_grace`. (DEDUCED, log 42) -/
def laneGrace (d : Dev) (n : Nat) : Dev :=
  if d.nat O.laneState n ≠ 9 ∨ !d.on O.laneEnable n then d else (d.flag O.fallowLanes (1 <<< n)).updateFallow

end Sys2Proof.Machine
end

