-- ==== Sys2Proof/Machine/Read.lean ====
section
/-! DEFINITION. Reading an object (R22, R375, R376, R395, R396, R404, R409, R476): who may, what it shows and what the read does. -/
namespace Sys2Proof.Machine

/-- Who reads or writes: the session slot (0xFF the debug port, or a command that names no session), its role, its binding, the
CSEQ of the request and the session key; `remote` marks a request that the head forwarded (R389). -/
structure Who where
  slot : Nat := 0xFF
  role : Nat := 3
  binding : Nat := 0
  cseq : Nat := 0
  key : Bytes := []
  remote : Bool := false
  deriving DecidableEq, Repr

/-! Gated and switched-off units (R404, R476). -/

/-- The unit of the object carries power and is gated. (DEDUCED, log 21) -/
def gatedLoc (d : Dev) (l : Loc) : Bool :=
  let n := domainOf l
  match gateOf n with
  | some k => bit (d.nat O.clkGate) k && bit d.pmu.power n
  | none => false
/-- The domain that holds the object's unit is switched off, or in retention. (DEDUCED, log 21) -/
def offLoc (d : Dev) (l : Loc) : Bool := let n := domainOf l; n != 0 && !bit d.pmu.power n

/-! The state and status words of a channel (R410, R411). -/

/-- `ch.state` (Table 15.6). (DEDUCED, log 55) -/
def chStateOf (d : Dev) (n : Nat) : Nat :=
  let st := d.nat O.laneState (n / 8)
  if st = lsOff then 0
  else if !slotPresent (descOf d n) (n % 8) then 1
  else if st = lsLost then 2
  else if st ≠ lsRun then 3
  else if bit (d.lane (n / 8)).safed (n % 8) then 4
  else if d.nat O.chForceLoopState n = 0 then 5
  else 6

/-- The data-path view of the slot's active ranges: the aux byte of the last accepted up-frame. -/
def auxOf (d : Dev) (n : Nat) : Option (Nat × Nat) :=
  match (d.lane (n / 8)).lastUp with
  | some u => match u.slots[n % 8]? with
    | some x => some (x.irng, x.vrng)
    | none => none
  | none => none
/-- Active ranges as shown: the data path's while a cause is DIVERGENT (R409). -/
def shownRange (d : Dev) (n : Nat) (cur : Bool) : Nat :=
  let own := d.nat (if cur then O.chRngIActive else O.chRngVActive) n
  if d.nat O.chDivergent n = 0 then own
  else match auxOf d n with
    | some (i, v) => if cur then i else v
    | none => own

/-- `ch.status` (Table 15.7). -/
def chStatusOf (d : Dev) (n : Nat) : Nat :=
  let flag (k : Nat) (b : Bool) := b2n b * 2 ^ k
  let chk := d.nat O.chChkState n
  flag 31 (d.nat O.chDivergent n != 0) + flag 30 (d.nat O.chCalState n != 0) + flag 29 (d.on O.chRngOverride n)
  + flag 28 (bit chk 1) + flag 27 (bit chk 0) + flag 26 (chBound d n) + flag 25 (apState (d.chan n) != 0)
  + flag 24 (d.nat O.seqState n == 2) + flag 23 (pairEngaged d n) + flag 22 (d.on O.chSsActive n)
  + (d.nat O.chForceSat n % 4) * 2 ^ 20 + (d.nat O.chLimitCompState n % 4) * 2 ^ 18 + (d.nat O.chRepState n % 8) * 2 ^ 15
  + flag 14 (d.nat O.chForceMissRun n != 0) + (shownRange d n true % 16) * 2 ^ 10 + (shownRange d n false % 8) * 2 ^ 7
  + (d.nat O.chForceLoopState n % 8) * 2 ^ 4 + chStateOf d n

def chStickyOf (d : Dev) (n : Nat) : Nat :=
  let f (k : Nat) (o : Obj) := b2n (d.nat o n != 0) * 2 ^ k
  f 5 O.chChkFlags + f 4 O.chRngFlags + f 3 O.chLimitFlags + f 2 O.chRepFlags + f 1 O.chRegionFlags + f 0 O.chForceFlags

/-- The state and status objects of channel `n` follow what they report. -/
def statusFollow (d : Dev) (n : Nat) : Dev :=
  let w := chStatusOf d n
  let d := if d.nat O.chStatus n = w then d else (d.setN O.chStatus w n).setI O.chStatusChanged d.now n
  (d.setN O.chState (chStateOf d n) n).setN O.chStatusSticky (chStickyOf d n) n

/-! Values. -/

/-- What the last mirror refresh copied (R396). -/
def Dev.mirrored (d : Dev) (o : Obj) (i : Nat := 0) (g : Nat := 0) : Val := tabGet (dfltAt o i g) d.mirror (objKey o i g)

/-- `ch.snap` (Table 15.8): every field as one refresh latched it. -/
def chSnapBytes (d : Dev) (n : Nat) : Bytes :=
  let v := fun (o : Obj) => numOf (d.mirrored o n)
  leInt 4 (v O.chStatus) ++ leInt 8 d.mirrorAt ++ leInt 4 (v O.chForceU) ++ leInt 4 (v O.chForceDac) ++ leInt 4 (v O.chForceInteg)
  ++ leInt 1 (v O.chRegionActive) ++ leInt 1 (v O.chCoefActive) ++ leInt 1 (v O.chDivergent) ++ leInt 1 (v O.chStatusSticky)
  ++ List.replicate 4 0

/-- Counters of state entries, mirrored at once (R396). -/
def entryCounters : List Obj :=
  [O.laneHoldEntries, O.laneLinkRetrains, O.chLimitCompEntries, O.ctbStalls, O.tiuInOverrates, O.netCanBusoffs, O.hlBreaks,
   O.hlPortDowns, O.devTransitions, O.fallowEntries, O.fcrCoreTakeovers]
/-- RO objects that show the hardware without waiting for a refresh. (DEDUCED, log 7) -/
def immediate (o : Obj) : Bool :=
  o.ty == .enum8 || (decide (0x3000 ≤ o.idx ∧ o.idx < 0x3600) && (o.idx % 16 == 0 || o.idx % 16 == 14)) || entryCounters.contains o

/-- Fields of a point record: object, group field, offset, length (Table 8.1). -/
def recordFields : List (Obj × Nat × Nat × Nat) :=
  [(O.ptMode, 0, 0, 1), (O.ptBind, 0, 1, 1), (O.ptChanB, 0, 2, 1), (O.ptTin, 0, 3, 1), (O.ptSeg, 0, 4, 2), (O.ptCalTag, 0, 6, 2),
   (O.ptLevel, 0, 8, 8), (O.ptPath, 0, 16, 8), (O.ptPath, 1, 24, 8), (O.ptPath, 2, 32, 8), (O.ptPath, 3, 40, 8),
   (O.ptPathSettle, 0, 48, 4), (O.ptSettle, 0, 52, 4), (O.ptVPos, 0, 56, 8), (O.ptVNeg, 0, 64, 8), (O.ptIPos, 0, 72, 8),
   (O.ptINeg, 0, 80, 8), (O.ptRng, 0, 88, 8), (O.ptApMode, 0, 96, 1), (O.ptApQty, 0, 97, 1), (O.ptApStart, 0, 98, 1),
   (O.ptDest, 0, 99, 1), (O.ptApLen, 0, 100, 4), (O.ptApPhase, 0, 104, 2), (O.ptApCount, 0, 106, 2), (O.ptAlarmMaj, 0, 108, 1),
   (O.ptPolySrc, 0, 109, 1), (O.ptPolyXs, 0, 110, 1), (O.ptPolyExp, 0, 111, 1), (O.ptPolyC0, 0, 112, 8), (O.ptPolyC0, 1, 120, 8),
   (O.ptPolyC0, 2, 128, 8), (O.ptPolyC0, 3, 136, 8), (O.ptAlarmHi, 0, 144, 8), (O.ptAlarmLo, 0, 152, 8), (O.ptAlarmHyst, 0, 160, 8),
   (O.ptWindow, 0, 168, 8), (O.ptUnit, 0, 176, 8), (O.ptListen, 0, 184, 2)]
/-- `pt.record` of point `p`. -/
def recordBytes (d : Dev) (p : Nat) : Bytes :=
  padTo 192 (recordFields.flatMap fun e => padTo e.2.2.2 (encodeVal e.1.ty (d.val e.1 p e.2.1)))

/-- 128 bytes of silent drivers; `jdp.lock.ranges` of lock `k`; `jrn.head_seal`. -/
def silentBytes (d : Dev) : Bytes := leBytes 128 d.rb.silent
def lockRangeBytes (d : Dev) (k : Nat) : Bytes := padTo 32 ((d.lock k).ranges.flatMap fun r => leBytes 2 r.1 ++ leBytes 2 r.2)
def headSealBytes (d : Dev) : Bytes :=
  match (heldPages d.jrn).reverse.find? (·.sealed) with
  | some p => leBytes 8 p.pseq ++ p.sealV
  | none => List.replicate 40 0
/-- `n` bytes of a bank of words from byte `off`. -/
def wordSlice (word : Nat → Nat) (off n : Nat) : Bytes :=
  ((List.range ((off % 4 + n + 3) / 4)).flatMap fun j => leBytes 4 (word (off / 4 + j))).drop (off % 4) |>.take n

/-- Objects that each session holds for itself. (DEDUCED, log 22) -/
def jrnSelect (d : Dev) (who : Who) : Nat := (d.ses who.slot).rdSelect

/-- Lengths of DOMAIN objects that are kept without their trailing zeros. -/
def domainFixed (o : Obj) : Nat :=
  if o = O.resLast then 64 else if o = O.seqStack then 16 else if o = O.hlMembers then 8 else if o = O.idFwHash then 32
  else if o = O.fcrFirst then 48 else 0

/-- The bytes of a DOMAIN object; the segment table and list memory are read by `domainSlice`. (DEDUCED, log 21) -/
def domainBytes (d : Dev) (who : Who) (l : Loc) : Bytes :=
  let o := l.o
  if offLoc d l ∧ ¬ keepsOff o then bytesOf o.dflt
  else if o = O.chRepData then repDataBytes d l.i
  else if o = O.chTraceData then traceData d (l.i / 8)
  else if o = O.chSnap then chSnapBytes d l.i
  else if o = O.ptRecord then recordBytes d l.i
  else if o = O.rbSilent then silentBytes d
  else if o = O.rbImage then rbBytes d.rb.coils
  else if o = O.rbReadback then rbBytes d.rb.sense
  else if o = O.rbOrphans then rbBytes d.rb.orphans
  else if o = O.rbCount then rbCountBytes d.rb.counts
  else if o = O.ctbSnap then ctbSnapBytes d
  else if o = O.todSnap then todSnapBytes d
  else if o = O.ermLevels then ermLevels d
  else if o = O.samESnap then samSnapBytes d l.i
  else if o = O.axdTable then axdTableBytes d l.i
  else if o = O.jdpLockRanges then lockRangeBytes d l.i
  else if o = O.devCfgImage then ((activeImage d.cfg).map (·.1)).getD []
  else if o = O.devDictMap then dictMap
  else if o = O.fcrHistory then padTo 131072 d.fcr.history.flatten
  else if o = O.jrnHeadSeal then headSealBytes d
  else if o = O.jrnRdPage then (match pageOf d.jrn (jrnSelect d who) with | some p => pageBytes p | none => [])
  else if o = O.chCalBlock then chanBlock d l.i
  else if o = O.calSam then calBlock d keySam
  else if o = O.calAxd then calBlock d keyAxd
  else if o = O.calTiu then calBlock d keyTiu
  else padMin (domainFixed o) (d.byt o l.i l.g)

def domainSize (d : Dev) (who : Who) (l : Loc) : Nat :=
  if l.o = O.segTable then 262144 else if l.o = O.listData then 2097152 else (domainBytes d who l).length
/-- `n` bytes from offset `off`; both banks read zero while PD28 is off. (DEDUCED, log 22) -/
def domainSlice (d : Dev) (who : Who) (l : Loc) (off n : Nat) : Bytes :=
  if l.o = O.segTable then wordSlice (fun k => if offLoc d l then 0 else segWord d k) off (min n (262144 - off))
  else if l.o = O.listData then wordSlice (fun k => if offLoc d l then 0 else listWord d k) off (min n (2097152 - off))
  else slice (domainBytes d who l) off n

/-- The value of an object that is no DOMAIN. (DEDUCED, log 7) -/
def readVal (v : Vault) (d : Dev) (who : Who) (l : Loc) : Val :=
  let l := oneView l
  let o := l.o
  if o = O.jdpSelf then .num who.slot
  else if o = O.jrnRdSelect then .num (jrnSelect d who)
  else if o = O.jrnRdPageSeq then .num (match pageOf d.jrn (jrnSelect d who) with | some p => p.pseq | none => 0)
  else if o = O.secKeyRole then .num (match v.key l.i with | some k => roleNum k.role | none => 0xFF)
  else if o = O.secKeyFp then .num (match v.key l.i with | some k => keyFp k.key | none => 0)
  else if o = O.secKeyLabel then .bytes (v.label l.i)
  else if o = O.secFwMinSvn then .num v.minSvn
  else if o = O.secFwRevoked then .num v.revoked
  else if offLoc d l then d.val o l.i l.g
  else if d.nat O.chDivergent l.i ≠ 0 ∧ o = O.chRngIActive then .num (shownRange d l.i true)
  else if d.nat O.chDivergent l.i ≠ 0 ∧ o = O.chRngVActive then .num (shownRange d l.i false)
  else if d.nat O.chDivergent l.i ≠ 0 ∧ o = O.chForceDac then d.val O.chTermDacSlice l.i
  else if (o.acc = .ro ∧ ¬ immediate o) ∨ ((o.acc = .ro ∨ o.acc = .rws) ∧ gatedLoc d l) then d.mirrored o l.i l.g
  else d.val o l.i l.g

/-! Refusals and side effects. -/

/-- Role that a read needs (R22). -/
def readRole (o : Obj) : Nat := if o.acc = .ro ∨ o.acc = .const then roleNum o.role else 0

/-! Memory words in error (R45). -/

/-- Words of a bank that `n` bytes from byte `off` take in. -/
def wordsIn (l : List Nat) (off n : Nat) : List Nat := l.filter fun k => decide (4 * k < off + n) && decide (off < 4 * k + 4)
/-- Words of SRAM in uncorrectable error that a read of `n` bytes of the object from `off` finds: fault source, detail and how
many, with the single-bit errors by store; a repetitive bin is rewritten instead (R143). -/
def readErrs (d : Dev) (l : Loc) (off n : Nat) : (Nat × Nat × Nat) × (Nat × Nat) :=
  let b := d.bank
  let k := objKey l.o l.i l.g
  let has := fun (x : List Nat) => b2n (x.contains k)
  if l.o = O.segTable then ((49, 0, (wordsIn b.segBad off n).length), (12, (wordsIn b.segOne off n).length))
  else if l.o = O.listData then ((49, 1, (wordsIn b.listBad off n).length), (12, (wordsIn b.listOne off n).length))
  else if l.o = O.chTraceData then ((36 + l.i / 8, 1, (wordsIn (traceBad d (l.i / 8)) off n).length), (l.i / 8, 0))
  else ((50, if 0x4000 ≤ l.o.idx ∧ l.o.idx < 0x5000 then 2 else 4, has b.oneBad), (13, has b.oneFix))
/-- The read delivers nothing: a word it needs is in uncorrectable error; a trace word has its own code (R575).
(DESIGN CHOICE, log 112) -/
def readLost (d : Dev) (l : Loc) (off n : Nat) : Bool := l.o != O.chTraceData && decide (0 < (readErrs d l off n).1.2.2)

/-- What refuses a read (R375). -/
def readCode (d : Dev) (who : Who) (l : Loc) : Option Abort :=
  if l.o.acc = .wo then some ⟨aNoAccess, 0⟩
  else if who.role < readRole l.o then some ⟨aRole, readRole l.o⟩
  else if l.o = O.chTraceData ∧ d.nat O.chTraceState (traceCh (l.i / 8)) ≠ 4 then some ⟨aState, 0⟩
  else if l.o = O.jrnRdPage ∧ (pageOf d.jrn (jrnSelect d who)).isNone then some ⟨aRange, 0⟩
  else none

/-- The device once a read of `n` bytes from `off` has met the words of its object: errors corrected and counted, uncorrectable
ones raised, a PEEK alike (Table 20.1). -/
def readTouch (d : Dev) (who : Who) (l : Loc) (off n : Nat) : Dev :=
  if (readCode d who l).isSome ∨ offLoc d l then d
  else if l.o = O.chRepData then (repCheckBins d l.i (List.range (repN (d.nat O.chRepBins l.i)))).1
  else
    let ((src, det, bad), (store, one)) := readErrs d l off n
    let d := if one = 0 then d else countFixed d store one
    forUpto bad (fun _ x => x.raise src 0 1 det true) d
/-- As `readTouch`, for an object read whole. -/
def touchAt (d : Dev) (who : Who) (index sub : Nat) : Dev :=
  match lookup index sub with
  | some l => if l.o.ty = .domain ∧ 1020 < domainSize d who l then d else readTouch d who l 0 1020
  | none => d
/-- As `readTouch`, for a BLOCK read. -/
def touchBlock (d : Dev) (who : Who) (index sub off len : Nat) : Dev :=
  match lookup index sub with
  | some l => if l.o.ty = .domain ∧ off < domainSize d who l then readTouch d who l off (min len 1012) else d
  | none => d

/-- What a read of an RWS object does: sticky words clear, trackers restart, the greatest occupancy starts again (R24, R206,
R313, R347). -/
def readEffect (d : Dev) (l : Loc) : Dev :=
  if l.o = O.samEMin ∨ l.o = O.samEMax then trackerRead d l.o l.i
  else if l.o = O.resPoolHiwater then d.setN O.resPoolHiwater (d.nat O.resPoolUsed)
  else d.setN l.o 0 l.i l.g

/-- A read of an RWS object has its side effect (R395, R476). -/
def hasEffect (d : Dev) (who : Who) (l : Loc) : Bool :=
  l.o.acc == .rws && decide (roleNum l.o.role ≤ who.role) && !gatedLoc d l && !offLoc d l

/-- A read or, with `peek`, a PEEK: the abort, or the wire type, the value and the device after it. -/
def readObj (v : Vault) (d : Dev) (who : Who) (peek : Bool) (l : Loc) : Except Abort (Nat × Bytes × Dev) :=
  match readCode d who l with
  | some a => .error a
  | none =>
    if l.o.ty = .domain then
      let n := domainSize d who l
      if 1020 < n then .error ⟨aLength, n⟩
      else if readLost d l 0 1020 then .error ⟨aState, 0⟩
      else .ok (tyCode .domain, domainSlice d who l 0 n, d)
    else if readLost d l 0 1020 then .error ⟨aState, 0⟩
    else
      let b := encodeVal l.o.ty (readVal v d who l)
      .ok (tyCode l.o.ty, b, if !peek && hasEffect d who l then readEffect d l else d)

/-- An object addressed by index and subindex. -/
def readAt (v : Vault) (d : Dev) (who : Who) (peek : Bool) (index sub : Nat) : Except Abort (Nat × Bytes × Dev) :=
  match lookup index sub with
  | none => .error ⟨aNoObject, 0⟩
  | some l => readObj v d who peek l

/-- A BLOCK read (R377): total size, length and data. -/
def blockRead (d : Dev) (who : Who) (index sub off len : Nat) : Except Abort Bytes :=
  match lookup index sub with
  | none => .error ⟨aNoObject, 0⟩
  | some l =>
    match readCode d who l with
    | some a => .error a
    | none =>
      if l.o.ty ≠ .domain then .error ⟨aType, 0⟩
      else
        let size := domainSize d who l
        if size ≤ off then .error ⟨aLength, size⟩
        else if readLost d l off (min len 1012) then .error ⟨aState, 0⟩
        else
          let b := domainSlice d who l off (min len 1012)
          .ok (leBytes 4 size ++ leBytes 2 b.length ++ [0, 0] ++ b)

end Sys2Proof.Machine
end

