-- ==== Sys2Proof/Machine/Write.lean ====
section
/-! DEFINITION. Writing objects (R375, R379, R392, R393, R404, R409, R421, R476): the conditions of a write in their order, what
comes into force, and what the write does. -/
namespace Sys2Proof.Machine

/-! Items and their parts. -/

/-- One object of a write: the position of its item, the value bytes, the offset of a partial DOMAIN write. -/
structure Part where
  item : Nat
  l : Loc
  data : Bytes
  offset : Option Nat := none
  deriving DecidableEq, Repr

/-- DOMAIN objects that may be written in part (R231, R549). -/
def partialObj (o : Obj) : Bool := o == O.segTable || o == O.listData || o == O.secFwImage

/-- Objects whose write is an operation, though they may be read back. -/
def operates (o : Obj) : Bool :=
  o.acc == .wo || [O.chEnable, O.chCascEngage, O.chRepData, O.axdTable, O.chCalBlock, O.calSam, O.calAxd, O.calTiu, O.chCalTag,
    O.samVref, O.samRefNominal, O.segTable, O.listData, O.jrnRdSelect, O.secKeyLabel, O.ptRecord].contains o

/-- Role that a write needs (R21, R314, R326, R368). (DEDUCED, log 14) -/
def writeRole (who : Who) (l : Loc) : Nat :=
  let o := l.o
  if o = O.ermInSel ∧ 164 ≤ l.g ∧ l.g ≤ 179 then 3
  else if [O.tiuInThresh, O.tiuInHyst, O.tiuInSlope, O.tiuInLatchClr, O.tiuInLatchPeriod, O.tiuInStuck].contains o ∧ 6 ≤ l.i then 3
  else if o = O.jdpSesCmd ∧ l.i ≠ who.slot then 3
  else roleNum o.role

def writeLength (d : Dev) (l : Loc) (off : Option Nat) (b : Bytes) : Bool :=
  if l.o = O.segTable then off.isSome || b.length == 262144
  else if l.o = O.listData then off.isSome || b.length == 2097152
  else lengthOk d l b

/-- Conditions 1 to 5 of R375. (DEDUCED, log 8) -/
def itemLoc (d : Dev) (who : Who) (x : Staged) : Except Abort Loc :=
  match lookup x.index x.sub with
  | none => .error ⟨aNoObject, 0⟩
  | some l =>
    if l.o.acc = .ro ∨ l.o.acc = .const then .error ⟨aNoAccess, 0⟩
    else if who.role < writeRole who l then .error ⟨aRole, writeRole who l⟩
    else if x.typ ≠ tyCode l.o.ty then .error ⟨aType, 0⟩
    else if !writeLength d l x.offset x.data then .error ⟨aLength, maxLenOf l.o⟩
    else .ok l

/-- The parts of an item: a point record is its fields (R421). -/
def itemParts (k : Nat) (l : Loc) (x : Staged) : List Part :=
  let p : Part := ⟨k, oneView l, x.data, x.offset⟩
  if l.o = O.ptRecord then
    p :: recordFields.map fun e =>
      let b := slice x.data e.2.2.1 e.2.2.2
      ⟨k, ⟨e.1, l.i, e.2.1⟩, if e.1.ty = .str then (b.reverse.dropWhile (· == 0)).reverse else b, none⟩
  else [p]

/-! Conditions 6 to 9. -/

def locked (d : Dev) (who : Who) (l : Loc) : Option Nat :=
  match lockOver d l with
  | some k => let s := d.nat O.jdpLockOwner k; if s = who.slot then none else some s
  | none => none

/-- R409. -/
def divergentBars (d : Dev) (p : Part) : Bool :=
  let o := p.l.o
  decide (0x3000 ≤ o.idx ∧ o.idx < 0x3010) && [0, 1, 2, 3, 7, 8].contains (o.idx % 16) && d.nat O.chDivergent p.l.i != 0
  && !(o == O.chEnable && p.data == [0])

/-- Permitted values of the Meaning entry, of a point record's reserved bytes and of the tables (R213, R231, R421, R509, R542). -/
def meaningCode (p : Part) : Nat :=
  let o := p.l.o
  let need := fun (b : Bool) => if b then 0 else aRange
  if o = O.ptRecord then need (allZero (slice p.data 186 6))
  else if o = O.segTable then
    let off := p.offset.getD 0
    need (off % 16 == 0 && p.data.length % 16 == 0 && decide (off + p.data.length ≤ 262144) && segmentsOk (words32 p.data))
  else if o = O.listData then
    let off := p.offset.getD 0
    need (off % 4 == 0 && p.data.length % 4 == 0 && decide (off + p.data.length ≤ 2097152))
  else if o = O.chCalBlock then need (calBlockOk p.l.i p.data)
  else if o = O.calSam then need (calBlockOk keySam p.data)
  else if o = O.calAxd then need (calBlockOk keyAxd p.data)
  else if o = O.calTiu then need (calBlockOk keyTiu p.data)
  else valueCode p.l p.data

def seqConfig : List Obj :=
  [O.seqFirst, O.seqStartSrc, O.seqStartLine, O.seqStartPhase, O.seqExp, O.seqInit, O.seqTrigA, O.seqTrigB, O.seqFlags]
def scanConfig : List Obj :=
  [O.scanSrc, O.scanList, O.scanLen, O.scanTStart, O.scanPeriod, O.scanCycPeriod, O.scanCycPhase, O.scanRuns, O.scanLate, O.scanLateTol]
/-- (DEDUCED, log 13) -/
def unitConfig : List Obj :=
  [O.tiuMMode, O.tiuMSlope, O.tiuMGate, O.tiuMStopTin, O.tiuMStopSlope, O.tiuMSkip, O.tiuMPeriods, O.tiuMWindow, O.tiuMTimeout]

/-- The write would end the binding of the session that makes it (R391). (DEDUCED, log 15) -/
def closesOwn (d : Dev) (who : Who) (o : Obj) (n : Nat) : Bool :=
  let b := who.binding % 16
  if o = O.jdpUdpPort then b == bindUdp && d.nat o != n
  else if o = O.jdpUdpEnable then b == bindUdp && n == 0
  else if o = O.jdpCanEnable then (b == 2 && !bit n 0) || (b == 3 && !bit n 1)
  else o == O.jdpSpiEnable && b == bindSpi && n == 0

/-- Condition 9: the unit is off or gated, or its state refuses the value; `after` holds every value of the write.
(DEDUCED, log 10) -/
def stateCode (d after : Dev) (who : Who) (l : Loc) (n : Nat) : Nat :=
  let o := l.o
  let i := l.i
  let bar := fun (b : Bool) => if b then aState else 0
  if offLoc d l ∨ gatedLoc d l then aState
  else if 0x3000 ≤ o.idx ∧ o.idx < 0x3010 then bar (chanRefused d o i)
  else if seqConfig.contains o then bar (let s := d.nat O.seqState i; s == 1 || s == 2)
  else if scanConfig.contains o then bar (let s := d.nat O.scanState i; s != 0 && s != 3)
  else if unitConfig.contains o then bar (tdcBusy d i || tinHeld d i)
  else if o = O.tiuInThresh ∨ o = O.tiuInHyst ∨ o = O.tiuInSlope then bar (tinBusy d i)
  else if o = O.ermEvioDir then bar (decide (14 ≤ i) && n != 0 && after.nat O.ctbSrc == 4)
  else if o = O.axdMode then bar (d.nat O.axdState i != 0)
  else if o = O.todUtcOffset ∨ o = O.todLeapAt ∨ o = O.todLeapDir then bar (utcFromSource d)
  else if o = O.clkRefinFreq then bar (d.clkg.ref == 2)
  else if o = O.clkRefSel then bar (refSelRefused d n)
  else if o = O.clkGate then gateCode d n
  else bar (closesOwn d who o n)

/-- A later part writes the whole value of the same object (R375, R421). (DEDUCED, log 9) -/
def superseded (p : Part) (later : List Part) : Bool := p.offset.isNone && later.any fun q => q.l == p.l

/-- `pmu.pd.off` shares a bit with `pmu.pd.on` in one write (R479). -/
def masksShared (all : List Part) (p : Part) : Bool :=
  p.l.o == O.pmuPdOff && all.any fun q => q.l.o == O.pmuPdOn && (leNat q.data &&& leNat p.data) != 0

/-- A whole record whose alarms are off may hold any limits, as the record of zeros does (Table 8.1).
(DEDUCED, log 14) -/
def alarmsOff (after : Dev) (all : List Part) (p : Part) : Bool :=
  (p.l.o == O.ptAlarmLo || p.l.o == O.ptAlarmHi) && decide (after.nat O.ptAlarmMaj p.l.i < 16)
  && all.any fun q => q.item == p.item && q.l.o == O.ptRecord

/-- The first of conditions 6 to 9 that a part fails. (DEDUCED, log 9) -/
def partCode (d after : Dev) (who : Who) (all : List Part) (skip : Bool) (p : Part) : Option Abort :=
  let l := p.l
  match locked d who l with
  | some s => some ⟨aLocked, s⟩
  | none =>
    if divergentBars d p then some ⟨aDivergent, 0⟩
    else if skip then none
    else
      let c := meaningCode p
      let c := if c ≠ 0 then c else if masksShared all p then aRange else if alarmsOff after all p then 0 else relationCode after l
      let c := if c ≠ 0 then c else stateCode d after who l (leNat p.data)
      if c = 0 then none else some ⟨c, 0⟩

/-! What comes into force. -/

def putPart (d : Dev) (p : Part) : Dev :=
  if operates p.l.o then d else d.put p.l.o (fixedBits p.l.o (decodeVal p.l.o.ty p.data)) p.l.i p.l.g

/-- The word of a plain value in bank 1 is rewritten; coefficients lie in lane memory (Table 1.4).
(DESIGN CHOICE, log 112) -/
def sharedWrite (l : Loc) (d : Dev) : Dev :=
  if l.o.idx = 0x3004 then d
  else
    let (d, sp) := memWrite d 13
    let k := objKey l.o l.i l.g
    let b := d.bank
    if sp = 0 ∧ !b.oneBad.contains k ∧ !b.oneFix.contains k then d
    else
      let set := fun (x : List Nat) (m : Nat) => if sp = m then k :: x.filter (· != k) else x.filter (· != k)
      { d with bank := { b with oneBad := set b.oneBad 2, oneFix := set b.oneFix 1 } }

/-- Fields whose write clears a point's alarm (R236). (DEDUCED, log 14) -/
def alarmFields : List Obj := [O.ptAlarmMaj, O.ptAlarmHi, O.ptAlarmLo, O.ptAlarmHyst, O.ptPolySrc, O.ptPolyXs, O.ptPolyExp, O.ptPolyC0]

/-- Sessions of a binding that has been disabled or has moved end (R391). (DEDUCED, log 15; DEDUCED, log 17) -/
def bindingEff (old d : Dev) (o : Obj) : Dev :=
  if o = O.jdpUdpPort then (if old.nat o = d.nat o then d else endBinding d fun b => b % 16 == bindUdp)
  else if o = O.jdpUdpEnable then (if d.on o then d else endBinding d fun b => b % 16 == bindUdp)
  else if o = O.jdpCanEnable then endBinding d fun b => (b % 16 == 2 && !bit (d.nat o) 0) || (b % 16 == 3 && !bit (d.nat o) 1)
  else if o = O.jdpSpiEnable then (if d.on o then d else endBinding d fun b => b % 16 == bindSpi)
  else d

/-- Network objects (R426, R427, R430, R434). -/
def netEff (d : Dev) (o : Obj) (i : Nat) : Dev :=
  if o = O.netEthEnable then (if d.on o i then d else d.setN O.netEthLink 0 i)
  else if o = O.netPrpMode then ptpStart (ifStart (ifStart (endIface (endIface d 0) 1) 0) 1)
  else if o = O.netIpMode ∨ o = O.netIpAddr ∨ o = O.netIpMask then ifStart (endIface d i) i
  else if [O.netPtpEnable, O.netPtpRole, O.netPtpTransport, O.netPtpDomain, O.netPtpPort].contains o then ptpStart d
  else if o = O.netCanEnable then canFollow d i
  else d

/-- Timing, routing and analog objects (R268, R277, R301, R326, R330, R345, R355). (DEDUCED, log 11) -/
def stationEff (old d : Dev) (o : Obj) (i g : Nat) : Dev :=
  let src := d.nat O.ctbSrc
  if o = O.ctbSrc then ctbRestart d
  else if o = O.ctbEvtEnable then (if d.on o i && !old.on o i then d.setN O.ctbEvtCount 0 i else d)
  else if (o = O.ctbTin ∧ (src = 1 ∨ src = 3)) ∨ (o = O.ctbMon ∧ src = 2) ∨ (o = O.ctbEncCpr ∧ src = 4) then ctbRestart d
  else if o = O.todSrcOrder then srcOrderEff d
  else if o = O.todUtcOffset then todChanged d 3 (old.int o) (d.int o)
  else if o = O.ermInSel then
    (if old.nat o 0 g = d.nat o 0 g then d else { d with erm := { d.erm with fresh := setBit d.erm.fresh g } })
  else if o = O.ermLutFf ∨ o = O.ermLutFilter ∨ o = O.ermLutClk then d.setLut i { d.lut i with clear := true }
  else if o = O.samECfg then
    let c := d.conv (i / 32)
    d.setConv (i / 32) (c.setEntry (i % 32) { c.entry (i % 32) with wroteAt := some (d.up / 20) })
  else if o = O.axdLevel ∨ o = O.axdMode then
    (if d.nat O.axdMode i = 0 ∧ axdOn d then axdSet d i (d.nat O.axdLevel i) (d.up + 10) else d)
  else if o = O.rbEnable then (if d.on o then rbcStart d else rbState d false)
  else d

/-- What an accepted write does beside putting its value in force; `old` is the device before the write.
(DEDUCED, log 8) -/
def writeEffect (old : Dev) (l : Loc) (d : Dev) : Dev :=
  let o := l.o
  let i := l.i
  if o = O.laneEnable then laneEnableEff d i
  else if o = O.laneHoldTimeout then holdTimeoutEff d i
  else if 0x3000 ≤ o.idx ∧ o.idx < 0x3010 then chanEffect (holdRng old o i d) o i l.g
  else if alarmFields.contains o then clearAlarm d i
  else if o = O.resStreamEnable then streamEnableEff d i
  else if 0x1100 ≤ o.idx ∧ o.idx < 0x1110 then bindingEff old d o
  else if 0x1200 ≤ o.idx ∧ o.idx < 0x1300 then netEff d o i
  else if o = O.hlEnable then hlEnableEff d
  else if o = O.hlRole then formIfHead d
  else if o = O.clkRefSel then refSelEffect d
  else if o = O.clkGate then gateFollow d
  else if o = O.fcrSrcWindow ∨ o = O.fcrSrcThresh then
    { d with fcr := { d.fcr with rings := tabSet [] d.fcr.rings (i * 128 + l.g) [] } }
  else stationEff old d o i l.g

/-! RESTORE and DEFAULTS (R402, R406). -/

/-- The effects of every value that came into force; no channel is enabled by it. (DEDUCED, log 12) -/
def restoreEffects (old d : Dev) : Dev :=
  let d := forUpto 96 (fun n x => x.setN O.chEnable 0 n) d
  let keys := ((old.objs ++ d.objs).map (·.1)).eraseDups.filter fun k => tabFind old.objs k != tabFind d.objs k
  keys.foldl (fun x k => match lookup (k / 256) (k % 256) with
    | some l => if isStored l.o then writeEffect old l x else x
    | none => x) d
/-- (DEDUCED, log 12) -/
def cfgRestore (d : Dev) : Eff :=
  if !cfgIdle d then refuse aState else .ok (restoreEffects d (applyImage d fun _ => true))
/-- (DEDUCED, log 12) -/
def cfgDefaults (d : Dev) : Eff :=
  if !cfgIdle d then refuse aState
  else .ok (restoreEffects d { d with objs := dropWhere (fun l => isStored l.o) d.objs })

/-! Operations. -/

/-- START of a scan with source 0 (R251). -/
def scanStartCmd (d : Dev) (n : Nat) : Eff :=
  if d.nat O.scanState n ≠ 1 ∨ d.nat O.scanSrc n ≠ 0 then refuse aState else .ok (scanStart d n d.clk false)

/-- CLOSE of session slot `k` (R368). (DEDUCED, log 10) -/
def sesClose (d : Dev) (k : Nat) : Eff := if d.sesOpen k then .ok (endSession d k) else refuse aState

/-- A select of a sequence that no held page holds is refused (R537). -/
def selectWrite (d : Dev) (slot q : Nat) : Eff :=
  match pageOf d.jrn q with
  | some _ => .ok (d.onSes slot fun s => { s with rdSelect := q })
  | none => refuse aRange

/-- Operations of lanes and channels. (DEDUCED, log 50) -/
def laneAct (d : Dev) (who : Who) (o : Obj) (i n : Nat) (b : Bytes) : Eff :=
  if o = O.laneCmd then laneCommand d i n
  else if o = O.chEnable then chEnableWrite d i (n != 0)
  else if o = O.chCascEngage then (if n = 0 then cascadeDisengage d i else cascadeEngage d i)
  else if o = O.chRepCmd then .ok (repClear d i)
  else if o = O.chRepData then repDataWrite d i b
  else if o = O.chTraceCmd then (if n = 1 then traceArm d (i / 8) else if n = 2 then traceForce d (i / 8) else traceStop d (i / 8))
  else if o = O.chApCmd then (if n = 1 then apertureStart d i else apertureStop d i)
  else if o = O.chCalTag then calTagWrite d i n who.role
  else if o = O.chCalBlock then calBlockWrite d i b who.role
  else if o = O.chCalCmd then calAdopt d i who.role
  else .ok d

/-- Operations of sequencers, points, scans, relays, time, inputs and the event matrix. -/
def stationAct (d : Dev) (o : Obj) (i n : Nat) (off : Nat) (b : Bytes) : Eff :=
  if o = O.seqCmd then (if n = 1 then seqArmCmd d i else if n = 2 then seqStartCmd d i else seqStopCmd d i)
  else if o = O.segTable then segTableWrite d off b
  else if o = O.listData then listWrite d off b
  else if o = O.ptCmd then .ok (if n = 1 then ptRequest d i 256 0 else if n = 2 then ptStop d i else clearAlarm d i)
  else if o = O.scanCmd then (if n = 1 then scanArm d i else if n = 2 then scanStartCmd d i else .ok (scanStop d i))
  else if o = O.rbCmd then (if n = 1 then releaseOrphans d else allOff d)
  else if o = O.rbCountClear then relayCountClear d n
  else if o = O.ctbCmd then ctbReacquire d
  else if o = O.todSet then todSet d (leSigned 8 b)
  else if o = O.todCalSet then todCalSet d b
  else if o = O.todCmd then .ok (todCancel d)
  else if o = O.tiuInCmd then tinLatchClear d i
  else if o = O.tiuMCmd then (if n = 1 then tdcArm d i 0 else tdcStop d i)
  else if o = O.ermSoft then .ok (softEvent d n)
  else .ok d

/-- Operations of the analog units, the dictionary, the clocks and the ring. -/
def serviceAct (d : Dev) (who : Who) (o : Obj) (i n : Nat) (b : Bytes) : Eff :=
  if o = O.samCmd then .ok (samRestart d i)
  else if o = O.samVref then samHeaderWrite d 12 n who.role
  else if o = O.samRefNominal then samHeaderWrite d 16 (leSigned 4 b) who.role
  else if o = O.samCalCmd then
    (if n = 1 then samCalZero d else if n = 2 then samCalSpan d else if n = 3 then samCalCompute d who.role else .ok (samCalAbort d))
  else if o = O.axdCmd then
    (if n = 1 then axdArm d i else if n = 2 then axdStart d i else if n = 3 then axdStop d i else if n = 4 then axdStep d i else axdFlush d i)
  else if o = O.axdPush then axdPush d i b
  else if o = O.axdTable then axdTableWrite d i b
  else if o = O.jdpSesCmd then sesClose d i
  else if o = O.devCfgCmd then
    (if n = 1 then cfgStore d else if n = 2 then cfgRestore d else if n = 3 then cfgDefaults d else cfgErase d)
  else if o = O.hlCmd then hlReform d
  else if o = O.clkCmd then clkRevert d
  else if o = O.calSam then calBlockWrite d keySam b who.role
  else if o = O.calAxd then calBlockWrite d keyAxd b who.role
  else if o = O.calTiu then calBlockWrite d keyTiu b who.role
  else if o = O.calChCmd then
    (if n = 1 then calZero d who.role else if n = 2 then calMid d who.role else if n = 3 then calSpan d who.role
     else if n = 4 then calCompute d who.role else if n = 5 then calOut d who.role else calAbortCmd d)
  else .ok d

/-- Operations of power, faults, FALLOW and the journal. -/
def powerAct (d : Dev) (who : Who) (o : Obj) (n : Nat) (b : Bytes) : Eff :=
  if o = O.pmuPdOn then domainOn d n
  else if o = O.pmuPdOff then domainOff d who.binding n
  else if o = O.pmuLaneReset then laneReset d n
  else if o = O.pmuUnitReset then unitReset d n
  else if o = O.pmuCoreReset then coreResetWrite d n
  else if o = O.fcrCmd then .ok (if n = 1 then faultAck d else fcrSafe d)
  else if o = O.fcrInject then faultInject d b
  else if o = O.fallowCmd then (if n = 1 then recheck d else leaveSafe d)
  else if o = O.fallowRestoreLane then restoreLane d n
  else if o = O.jrnAckTo then ackTo d n
  else if o = O.jrnRdSelect then selectWrite d who.slot n
  else if o = O.secFwImage then .ok d
  else if o = O.secDbgCmd then (if n = 1 then debugUnlock d else debugLock d)
  else .ok d

/-- `pmu.cmd`: RESET acts 1 ms after its response. (DESIGN CHOICE, log 16; DEDUCED, log 40) -/
def pmuCommand (v : Vault) (d : Dev) (n : Nat) : VEff :=
  let dev := fun (e : Eff) => e.map fun x => (v, x)
  if n = 1 then .ok (v, d.onPmu fun p => { p with resetDue := some (d.up + 1000000) })
  else if n = 2 then dev (quiet d)
  else if n = 3 then dev (pmuRun d)
  else if n = 4 then dev (standby v.kj { d with draws := d.draws + 1 } (Config.rtcCounts d.draws))
  else confirmSlot v d

/-- A write of `sec.key.set`.  A member of a ring has no session key: the key it unwraps under is a free value. -/
def keyWrite (v : Vault) (d : Dev) (who : Who) (i : Nat) (b : Bytes) : VEff :=
  let (x, y) := d.random 32
  if who.remote then keySet v y x who.cseq i b else keySet v d who.key who.cseq i b

/-- Operations that may change the keys partition. -/
def vaultAct (v : Vault) (d : Dev) (who : Who) (l : Loc) (n off : Nat) (b : Bytes) : VEff :=
  let o := l.o
  let dev := fun (e : Eff) => e.map fun x => (v, x)
  if o = O.pmuCmd then pmuCommand v d n
  else if o = O.jrnCmd then
    (if n = 1 then journalFormat v d else if n = 2 then dev (sealNow d v.kj) else dev (journalVerify d))
  else if o = O.secKeyLabel then
    .ok (v.setLabel l.i b, d)
  else if o = O.secKeySet then (keyWrite v d who l.i b).map fun s => (s.1, endKeySessions s.2 l.i)
  else if o = O.secKeyCmd then (keyErase v d l.i).map fun s => (s.1, endKeySessions s.2 l.i)
  else if o = O.secFwCmd then
    dev (if n = 1 then fwBegin d else if n = 2 then fwVerify d else if n = 3 then fwInstall d else fwAbort d)
  else if o = O.secFwImage then dev (fwImageWrite d off b)
  else if o = O.secFwRevoke then fwRevoke v d n
  else dev (powerAct d who o n b)

/-- One part comes into force, in a device that already holds every plain value of the write. -/
def partAct (old : Dev) (who : Who) (p : Part) (v : Vault) (d : Dev) : VEff :=
  let o := p.l.o
  let i := p.l.i
  let n := leNat p.data
  let dev := fun (e : Eff) => e.map fun x => (v, x)
  if !operates o then .ok (v, sharedWrite p.l (writeEffect old p.l d))
  else if (0x2700 ≤ o.idx ∧ o.idx < 0x2800) ∨ (0x3000 ≤ o.idx ∧ o.idx < 0x3010) then dev (laneAct d who o i n p.data)
  else if 0x2000 ≤ o.idx ∧ o.idx < 0x2100 then dev (serviceAct d who o i n p.data)
  else if 0x2200 ≤ o.idx ∧ o.idx < 0x2600 ∨ 0x4000 ≤ o.idx ∧ o.idx < 0x6000 then
    dev (stationAct d o i n (p.offset.getD 0) p.data)
  else if 0x2600 ≤ o.idx ∧ o.idx < 0x2700 ∨ o.idx < 0x2000 ∨ 0x8000 ≤ o.idx ∧ o.idx < 0x9000 then dev (serviceAct d who o i n p.data)
  else vaultAct v d who p.l n (p.offset.getD 0) p.data

/-- The parts in order: conditions 6 to 9, then the part's own action.  The first that fails ends the write.
(DEDUCED, log 9) -/
def runParts (old after : Dev) (who : Who) (all : List Part) : List Part → Vault → Dev → Except (Nat × Abort) (Vault × Dev)
  | [], v, d => .ok (v, d)
  | p :: rest, v, d =>
    let skip := superseded p rest
    match partCode old after who all skip p with
    | some a => .error (p.item, a)
    | none =>
      if skip then runParts old after who all rest v d
      else match partAct old who p v d with
        | .error a => .error (p.item, a)
        | .ok s => runParts old after who all rest s.1 s.2

/-- A write of parts that have passed conditions 1 to 5. (DEDUCED, log 9) -/
def writeParts (v : Vault) (d : Dev) (who : Who) (ps : List Part) : Except (Nat × Abort) (Vault × Dev) :=
  let after := ps.foldl putPart d
  runParts d after who ps ps v after

/-- The parts of the items from position `k` on, until the first that fails conditions 1 to 5. -/
def gatherParts (d : Dev) (who : Who) : Nat → List Staged → List Part × Option (Nat × Abort)
  | _, [] => ([], none)
  | k, x :: xs =>
    match itemLoc d who x with
    | .error a => ([], some (k, a))
    | .ok l =>
      let r := gatherParts d who (k + 1) xs
      (itemParts k l x ++ r.1, r.2)

/-- WRITE and WRITE_MULTI (R375): all the items, or the first that fails and nothing changed. -/
def writeItems (v : Vault) (d : Dev) (who : Who) (xs : List Staged) : Except (Nat × Abort) (Vault × Dev) :=
  let r := gatherParts d who 0 xs
  match writeParts v d who r.1, r.2 with
  | .error e, _ => .error e
  | .ok _, some e => .error e
  | .ok s, none => .ok s

/-- The write of one object by an OWNER that holds no lock, as a command that names no session.
(DESIGN CHOICE, log 18) -/
def ownerWrite (v : Vault) (d : Dev) (ps : List Part) : Vault × Dev :=
  match writeParts v d {} ps with
  | .ok s => (s.1, { s.2 with jdp := { s.2.jdp with resp := {} } })
  | .error e => (v, { d with jdp := { d.jdp with resp := { code := e.2.code, detail := e.2.detail } } })
/-- One object with one number. (DESIGN CHOICE, log 18) -/
def part1 (o : Obj) (n : Int) (i : Nat := 0) (g : Nat := 0) (item : Nat := 0) : Part :=
  ⟨item, ⟨o, i, g⟩, encodeVal o.ty (.num n), none⟩

end Sys2Proof.Machine
end

