-- ==== Sys2Proof/Machine/Mirror.lean ====
section
/-! DEFINITION. The mirror refresh (R384, R396, R401, R407-R412): the views compared, the values that are computed for it, the
copy, and the notifications of objects that changed. -/
namespace Sys2Proof.Machine

/-! Compared views (Table 15.5). -/

/-- What of a command word the views of CMD compare. -/
def cmdView (o : SlotOut) : Nat × Bool × Bool := (o.mode, o.ocon, o.scon)
/-- Slot outputs of the down-frame sent in frame `f`. -/
def sentAt (l : Link) (f s : Nat) : Option SlotOut := (l.sentLog.find? (·.1 == f)).map fun e => e.2.getD s {}

/-- RANGE: the command applied at boundary j − L − 1 against the aux byte of up-frame j; none when not compared. -/
def rangeDiffers (d : Dev) (n : Nat) : Option Bool :=
  let l := d.lane (n / 8)
  let back := latencyOf l.desc + 2
  if !l.upNew ∨ l.lastUpJ < back then none
  else match sentAt l (l.lastUpJ - back) (n % 8), auxOf d n with
    | some o, some (i, v) => some (o.irng != i || o.vrng != v)
    | _, _ => none
/-- CMD. -/
def cmdDiffers (d : Dev) (n : Nat) : Option Bool :=
  let l := d.lane (n / 8)
  match l.statusNew, l.status, l.span.map (fun e => cmdView (e.getD (n % 8) {})) with
  | true, some t, x :: xs =>
    if xs.all (· == x) then some (cmdView (outOfWord ((t.slots.getD (n % 8) ⟨0, 0, 0⟩).cmd) 0) != x) else none
  | _, _, _ => none
/-- DAC: the code in STATUS outside the least and greatest code sent. -/
def dacDiffers (d : Dev) (n : Nat) : Option Bool :=
  let l := d.lane (n / 8)
  match l.statusNew && !bit l.spanMiss (n % 8), l.status, l.span.map (fun e => (e.getD (n % 8) {}).dac) with
  | true, some t, x :: xs =>
    let c := (t.slots.getD (n % 8) ⟨0, 0, 0⟩).dac
    some (decide (c < xs.foldl min x) || decide (xs.foldl max x < c))
  | _, _, _ => none
/-- SAFE. -/
def safeDiffers (d : Dev) (n : Nat) : Option Bool :=
  let l := d.lane (n / 8)
  match l.statusNew, l.status with
  | true, some t => some (bit l.safed (n % 8) != bit (t.slots.getD (n % 8) ⟨0, 0, 0⟩).flags 3)
  | _, _ => none

/-- R408 for one cause: bit `k` of `ch.divergent`. -/
def causeStep (n k : Nat) (differs : Option Bool) (d : Dev) : Dev :=
  let run := (d.chan n).divRuns.getD k 0
  let set := fun (x : Dev) (r : Nat) => x.onChan n fun c => { c with divRuns := listSet c.divRuns k r }
  match differs with
  | none => d
  | some false => (set d 0).setN O.chDivergent (clrBit (d.nat O.chDivergent n) k) n
  | some true =>
    if run + 1 = 3 then (((set d 3).flag O.chDivergent (1 <<< k) n).flag O.devFlags 16).raise (12 + n / 8) 0 6 n
    else set d (min 3 (run + 1))

def compareChannel (n : Nat) (d : Dev) : Dev :=
  if d.nat O.laneState (n / 8) ≠ lsRun ∨ !(d.on O.chEnable n || bit (d.lane (n / 8)).safed (n % 8)) then d
  else
    let r := rangeDiffers d n
    let c := cmdDiffers d n
    let o := dacDiffers d n
    let s := safeDiffers d n
    causeStep n 3 s (causeStep n 2 o (causeStep n 1 c (causeStep n 0 r d)))

/-- A lane in RUN is asked for its STATUS unless a request is outstanding; what was compared is no longer new. -/
def compareLane (n : Nat) (d : Dev) : Dev :=
  let d := forUpto 8 (fun s x => compareChannel (8 * n + s) x) d
  let d := d.onLane n fun l => { l with upNew := false, statusNew := false }
  if d.nat O.laneState n = lsRun ∧ (d.lane n).request.isNone ∧ (d.lane n).txQueue.isEmpty then d.onLane n fun l => l.send 2 [] else d

/-! Values that a refresh computes. -/

def channelValues (n : Nat) (d : Dev) : Dev :=
  let d := match (d.chan n).seqLatch with | some v => d.setI O.chSeqValue v n | none => d
  let p := d.nat O.chCascPartner n
  let d := d.setN O.chCascLatency (if 96 ≤ p then 0 else if d.nat O.chCascRole n = 1 then pairLatency n p else pairLatency p n) n
  let d := d.setBytes O.chCalSerial (trimNul ((chanBlock d n).take 16)) n
  statusFollow d n
def sessionValues (k : Nat) (d : Dev) : Dev :=
  if !d.sesOpen k then d
  else (d.setN O.jdpSesIdle (d.up - (d.ses k).lastAt) k).setN O.jdpSesLag (dseqDist (d.nat O.jdpSesDseq k) (d.nat O.jdpSesAck k)) k
def lockValues (k : Nat) (d : Dev) : Dev := d.setN O.jdpLockRemaining (if lockHeld d k then (d.lock k).expiry - d.up else 0) k
def streamValues (s : Nat) (d : Dev) : Dev :=
  d.setN O.resStreamSubscribers ((List.range 16).countP fun k => d.sesOpen k && (d.ses k).subs.any fun u => u.kind == 0 && u.index == s) s
/-- `scan.next` of a scan on the cycle grid, predicted at the rate in force; unknown while the cycle time base does not advance.
(DESIGN CHOICE, log 116) -/
def scanValues (n : Nat) (d : Dev) : Dev :=
  let st := d.nat O.scanState n
  if d.nat O.scanSrc n ≠ 2 ∨ (st ≠ 1 ∧ st ≠ 2) then d
  else
    let rate := ctbRate d
    let v := nextPhase (max d.ctb.next (((d.scan n).cycNext.getD 0) * cycleOne)) (d.nat O.scanCycPhase n)
    scanSetNext d n (if rate = 0 then none else some (ctbStamp d + 2 * (((v - d.ctb.acc + rate - 1) / rate : Nat) : Int)))
def timeValues (d : Dev) : Dev :=
  let d := (d.setN O.ctbCycle (leField (ctbSnapBytes d) 0 8)).setN O.ctbPhase (leField (ctbSnapBytes d) 8 2)
  let d := (d.setN O.ctbFreq (ctbFreq d)).setN O.ctbPeriod (ctbPeriod d)
  forUpto 256 scanValues (((d.setI O.todTime d.now).setI O.todFreqAdj (todFreqAdj d)).setN O.todHoldoverTime (todHoldover d))
def jdpValues (d : Dev) : Dev :=
  let d := forUpto 16 streamValues (forUpto 32 lockValues (forUpto 16 sessionValues d))
  d.setN O.jdpRetSpan (match d.jdp.retained with | x :: _ => d.up - x.queuedAt | [] => 0)
def deviceValues (d : Dev) : Dev :=
  let d := ((d.setN O.devUptime d.up).setN O.devCfgSize (imageSize d)).bump O.devMirrorRefreshes
  let d := (d.setN O.devDictCrc dictCrc).setN O.devDictCount mapEntries.length
  d.setN O.devMirrorDivergent ((List.range 96).countP fun n => d.nat O.chDivergent n != 0)
def journalValues (d : Dev) : Dev :=
  let held := d.jrn.pages.length
  (d.setN O.jrnPages (held * 2 ^ 32 + (d.jrn.sectors - held - d.jrn.retired.length))).setN O.jrnSeqOldest (oldestSeq d)
def serviceValues (d : Dev) : Dev :=
  let d := (d.setN O.clkBackupTime (backupTime d)).setB O.ermState (ermOn d)
  let d := (d.setN O.fcrCoreCkptAge (d.up - d.fcr.ckptAt)).setB O.fcrInjectArmed d.fcr.inject.isSome
  let d := d.setN O.secDbgRemaining (if d.on O.dbgUnlocked then d.fw.dbgUntil - d.up else 0)
  let d := d.setN O.compatSummary (forUpto 9 (fun b m => if d.nat O.compatBlkStatus b ≠ 0 then setBit m b else m) 0)
  forUpto 2 (fun i x => x.setN O.netIpLease (if (x.iface i).leaseEnd = 0 then 0 else (x.iface i).leaseEnd - x.up) i) d
/-- What the keys partition shows. -/
def vaultValues (v : Vault) (d : Dev) : Dev :=
  let d := forUpto 16 (fun i x => match v.key i with
    | some k => (x.setN O.secKeyRole (roleNum k.role) i).setN O.secKeyFp (keyFp k.key) i
    | none => (x.setN O.secKeyRole 0xFF i).setN O.secKeyFp 0 i) d
  (d.setN O.secFwMinSvn v.minSvn).setN O.secFwRevoked v.revoked
def mirrorValues (v : Vault) (d : Dev) : Dev :=
  forUpto 96 channelValues (vaultValues v (serviceValues (journalValues (deviceValues (jdpValues (timeValues d))))))

/-! The copy and what it tells the subscribers. -/

/-- The object of a key belongs to a unit that is gated: its mirror stays as it stood (R476). -/
def gatedKey (d : Dev) (k : Nat) : Bool :=
  match lookup (k / 256) (k % 256) with | some l => gatedLoc d l | none => false
/-- (DEDUCED, log 7) -/
def mirrorCopy (d : Dev) : Tab Val :=
  if d.nat O.clkGate = 0 then d.objs
  else (d.mirror.filter fun e => gatedKey d e.1).foldl (fun t e => tabPut t e.1 e.2) (d.objs.filter fun e => !gatedKey d e.1)

/-- Objects of this node that sessions subscribe to. -/
def objectSubs (d : Dev) : List (Nat × Nat) :=
  (((List.range 16).flatMap fun k => (d.ses k).subs.filter fun u => u.kind == 3 && u.node == d.node).map fun u => (u.index, u.sub)).eraseDups

/-- The OBJECT notification of Table 14.10, where the value has changed since the refresh before. (DEDUCED, log 32) -/
def objectNotify (v : Vault) (old : Tab Val) (d : Dev) (e : Nat × Nat) : Dev :=
  match lookup e.1 e.2 with
  | none => d
  | some l =>
    let l := oneView l
    let k := objKey l.o l.i l.g
    if tabFind old k = tabFind d.mirror k then d
    else
      let b := encodeVal l.o.ty (readVal v d {} l)
      d.notify (fun u => u.kind == 3 && u.node == d.node && u.index == e.1 && u.sub == e.2) 4 d.node 0
        (leBytes 2 e.1 ++ leBytes 1 e.2 ++ leBytes 1 (tyCode l.o.ty) ++ leBytes 2 b.length ++ [0, 0] ++ padTo 8 b)

/-- The controller is neither held nor without its core supply. -/
def alive (d : Dev) : Bool := !d.pmu.held && d.nat O.devState != 5 && d.nat O.devState != 6

/-- MIRROR_REFRESH. (DEDUCED, log 7) -/
def mirrorRefresh (v : Vault) (d : Dev) : Dev :=
  if !alive d then d
  else
    let d := mirrorValues v (forUpto 12 compareLane d)
    let old := d.mirror
    let d := { d with mirror := mirrorCopy d, mirrorAt := d.now }
    let d := (objectSubs d).foldl (objectNotify v old) d
    forUpto 16 (fun k x => if x.sesOpen k then drainQueue x k else x) d

end Sys2Proof.Machine
end

