-- ==== Sys2Proof/Machine/Jdp.lean ====
section
/-! DEFINITION. The operations of the dictionary protocol at the node that executes them (R361-R363, R375-R381, R384, R385,
Table 14.5). -/
namespace Sys2Proof.Machine

/-! Operations (Table 14.2) and answers. -/

def opRead := 1
def opWrite := 2
def opReadMulti := 3
def opWriteMulti := 4
def opPeek := 5
def opLock := 6
def opRenew := 7
def opRelease := 8
def opCommit := 9
def opSubscribe := 10
def opResync := 11
def opBlock := 12
def opNop := 13

/-- What an operation comes to: its answer, the keys partition, the device and the notifications replayed after the answer (DSEQ
and body); or the node it goes to. -/
inductive OpOut where
  | done (r : Resp) (v : Vault) (d : Dev) (replay : List (Nat × Bytes))
  | forward (node : Nat)
  deriving DecidableEq, Repr

/-- An answer with a body; an abort with nothing changed. -/
def opOk (v : Vault) (d : Dev) (body : Bytes) : OpOut := .done { body := body } v d []
def opAbort (v : Vault) (d : Dev) (a : Abort) (item : Nat := 255) : OpOut := .done { code := a.code, item := item, detail := a.detail } v d []
def opBad (v : Vault) (d : Dev) : OpOut := opAbort v d ⟨aBadBody, 0⟩

/-! Addresses (Table 14.3). -/

def addrAt (b : Bytes) (off : Nat) : Addr := ⟨leField b off 2, leField b (off + 2) 1, leField b (off + 3) 1⟩
def addrBytes (a : Addr) : Bytes := leBytes 2 a.index ++ leBytes 1 a.sub ++ leBytes 1 a.node

/-- Where a node is (R361, R389). -/
inductive Place where
  | own | far | absent
  deriving DecidableEq, Repr
def place (d : Dev) (n : Nat) : Place :=
  if n = d.node then .own else if d.hl.head && bit (members d) n then .far else .absent

/-- An operation on an object of a node. -/
def atNode (v : Vault) (d : Dev) (n : Nat) (own : OpOut) : OpOut :=
  match place d n with
  | .own => own
  | .far => .forward n
  | .absent => opAbort v d ⟨aNoObject, 0⟩

/-! Reads. -/

def typed (t : Nat) (b : Bytes) : Bytes := leBytes 1 t ++ [0] ++ leBytes 2 b.length ++ b

/-- READ and PEEK of an object of this node. -/
def readOp (v : Vault) (d : Dev) (who : Who) (peek : Bool) (a : Addr) : OpOut :=
  let d := touchAt d who a.index a.sub
  match readAt v d who peek a.index a.sub with
  | .error e => opAbort v d e
  | .ok (t, b, d') => opOk v d' (typed t b)

/-- Items of a READ_MULTI answered elsewhere: abort code and typed value (R375). -/
def takeItem (b : Bytes) : Bytes × Bytes := let n := 6 + leField b 4 2; (b.take n, b.drop n)
def splitItems : Nat → Bytes → List Bytes
  | 0, _ => []
  | k + 1, b => (takeItem b).1 :: splitItems k (takeItem b).2

/-- READ_MULTI in order; `far` gives the items that other nodes answered, per node. -/
def readItems (v : Vault) (who : Who) (peek : Bool) : List Addr → List (Nat × List Bytes) → Dev → Bytes → Bytes × Dev
  | [], _, d, out => (out, d)
  | a :: as, far, d, out =>
    let room := fun (b : Bytes) => decide (out.length + b.length ≤ 1024)
    let none_ := fun (e : Abort) => leBytes 2 e.code ++ typed 0 []
    if a.node = d.node then
      let d := touchAt d who a.index a.sub
      match readAt v d who true a.index a.sub with
      | .error e => readItems v who peek as far d (out ++ none_ e)
      | .ok (t, b, _) =>
        if room (leBytes 2 0 ++ typed t b) then
          let d := match readAt v d who peek a.index a.sub with | .ok (_, _, d') => d' | .error _ => d
          readItems v who peek as far d (out ++ leBytes 2 0 ++ typed t b)
        else readItems v who peek as far d (out ++ none_ ⟨aLength, 0⟩)
    else
      match far.find? (·.1 == a.node) with
      | some (_, b :: _) =>
        let far := far.map fun e => if e.1 = a.node then (e.1, e.2.drop 1) else e
        readItems v who peek as far d (out ++ if room b then b else none_ ⟨aLength, 0⟩)
      | _ => readItems v who peek as far d (out ++ none_ ⟨aNoObject, 0⟩)

def multiAddrs (b : Bytes) : List Addr := (List.range (leField b 0 1)).map fun k => addrAt b (4 + 4 * k)
def multiOk (b : Bytes) : Bool :=
  let n := leField b 0 1
  decide (4 ≤ b.length) && decide (1 ≤ n ∧ n ≤ 32) && allZero (slice b 1 3) && b.length == 4 + 4 * n
/-- The body of the READ_MULTI that goes to node `n`. -/
def multiFor (b : Bytes) (n : Nat) : Bytes :=
  let l := (multiAddrs b).filter (·.node == n)
  leBytes 1 l.length ++ [0, 0, 0] ++ l.flatMap addrBytes
/-- The next node whose items are still to be read. -/
def nextFar (d : Dev) (b : Bytes) (got : List (Nat × Bytes)) : Option Nat :=
  ((multiAddrs b).map (·.node)).find? fun n => place d n == .far && !got.any (·.1 == n)
def readMulti (v : Vault) (d : Dev) (who : Who) (peek : Bool) (b : Bytes) (got : List (Nat × Bytes)) : OpOut :=
  let far := got.map fun e => (e.1, splitItems ((multiAddrs b).countP (·.node == e.1)) e.2)
  let r := readItems v who peek (multiAddrs b) far d []
  opOk v r.2 r.1

/-! Locks (R378-R381). -/

/-- Lock of a slot by handle. -/
def findLock (d : Dev) (slot h : Nat) : Option Nat :=
  (List.range 32).find? fun k => d.nat O.jdpLockOwner k == slot && d.nat O.jdpLockHandle k == h
/-- R381, R378: the lock an operation names, or why it does not act. -/
def namedLock (d : Dev) (slot h : Nat) : Except Abort Nat :=
  match findLock d slot h with
  | some k => if (d.lock k).expiry ≤ d.up then .error ⟨aLeaseExpired, 0⟩ else .ok k
  | none => if (d.ses slot).expired.contains h then .error ⟨aLeaseExpired, 0⟩ else .error ⟨aLockUnknown, 0⟩

/-- (DEDUCED, log 26) -/
def leaseOk (ms : Nat) : Bool := decide (10 ≤ ms ∧ ms ≤ 60000)

/-- The lock that overlaps ranges of a node. -/
def overlapping (d : Dev) (node : Nat) (rs : List (Nat × Nat)) : Option Nat :=
  (List.range 32).find? fun k => lockHeld d k && d.nat O.jdpLockNode k == node && rangesOverlap (d.lock k).ranges rs

/-- (DEDUCED, log 24) -/
def lockCode (d : Dev) (slot node lease : Nat) (rs : List (Nat × Nat)) : Option Abort :=
  if rs.any (fun r => decide (r.2 < r.1)) || !leaseOk lease then some ⟨aRange, 0⟩
  else match overlapping d node rs with
    | some k => some ⟨aLocked, d.nat O.jdpLockOwner k⟩
    | none =>
      if 4 ≤ (List.range 32).countP (fun k => d.nat O.jdpLockOwner k == slot) ∨ (List.range 32).all (lockHeld d) then some ⟨aLockLimit, 0⟩
      else none

/-- The next handle of 1 to 65,534 that names no lock. -/
def nextHandle (d : Dev) : Nat → Nat → Nat
  | 0, h => h
  | n + 1, h =>
    let h := if h + 1 ≤ 65534 then h + 1 else 1
    if (List.range 32).any (fun k => lockHeld d k && d.nat O.jdpLockHandle k == h) then nextHandle d n h else h

/-- The lock is taken; `remote` is its handle at another node. -/
def takeLock (d : Dev) (slot node lease : Nat) (rs : List (Nat × Nat)) (remote : Nat) : Nat × Dev :=
  let k := ((List.range 32).find? fun k => !lockHeld d k).getD 0
  let h := nextHandle d 33 d.jdp.lastHandle
  let d := { d with jdp := { d.jdp with lastHandle := h } }
  let d := d.setLock k { expiry := d.up + lease * 1000000, ranges := rs, remote := remote }
  let d := ((d.setN O.jdpLockOwner slot k).setN O.jdpLockHandle h k).setN O.jdpLockNode node k
  let d := d.onSes slot fun s => { s with expired := s.expired.filter (· != h) }
  (h, d.setN O.jdpSesLocks (d.nat O.jdpSesLocks slot + 1) slot)

def lockRanges (b : Bytes) : List (Nat × Nat) := (List.range (leField b 1 1)).map fun k => (leField b (8 + 4 * k) 2, leField b (10 + 4 * k) 2)
def lockOk (b : Bytes) : Bool :=
  let n := leField b 1 1
  decide (8 ≤ b.length) && decide (1 ≤ n ∧ n ≤ 8) && allZero (slice b 2 2) && b.length == 8 + 4 * n
def lockAnswer (h lease : Nat) : Bytes := leBytes 2 h ++ [0, 0] ++ leBytes 4 lease

def lockOp (v : Vault) (d : Dev) (who : Who) (b : Bytes) : OpOut :=
  if !lockOk b then opBad v d
  else if who.role < 1 then opAbort v d ⟨aRole, 1⟩
  else
    let node := leField b 0 1
    let lease := leField b 4 4
    let rs := lockRanges b
    match place d node, lockCode d who.slot node lease rs with
    | .absent, _ => opAbort v d ⟨aNoObject, 0⟩
    | _, some e => opAbort v d e
    | .far, none => .forward node
    | .own, none => let x := takeLock d who.slot node lease rs 0; opOk v x.2 (lockAnswer x.1 lease)

def renewLock (d : Dev) (k lease : Nat) : Dev := d.setLock k { d.lock k with expiry := d.up + lease * 1000000 }
/-- The node of a lock, when its ranges lie elsewhere. -/
def lockFar (d : Dev) (k : Nat) : Option Nat := let n := d.nat O.jdpLockNode k; if n = d.node then none else some n

def renewOp (v : Vault) (d : Dev) (who : Who) (b : Bytes) : OpOut :=
  if b.length ≠ 8 ∨ !allZero (slice b 2 2) then opBad v d
  else match namedLock d who.slot (leField b 0 2) with
    | .error e => opAbort v d e
    | .ok k =>
      let lease := leField b 4 4
      if !leaseOk lease then opAbort v d ⟨aRange, 0⟩
      else match lockFar d k with
        | some n => .forward n
        | none => opOk v (renewLock d k lease) (leBytes 4 lease)

def releaseOp (v : Vault) (d : Dev) (who : Who) (b : Bytes) : OpOut :=
  if b.length ≠ 4 ∨ !allZero (slice b 2 2) then opBad v d
  else if leField b 0 2 = 0xFFFF then let x := freeLocks d who.slot 0; opOk v x.1 (leBytes 2 x.2.2 ++ [0, 0])
  else match namedLock d who.slot (leField b 0 2) with
    | .error e => opAbort v d e
    | .ok k => let x := freeLock d k; opOk v x.1 (leBytes 2 x.2 ++ [0, 0])

/-! Staging (R232, R379, R380). -/

def stagedBytes (l : List Staged) : Nat := (l.map fun x => x.data.length).foldl (· + ·) 0
def setStaged (d : Dev) (k : Nat) (l : List Staged) : Dev :=
  let d := d.setLock k { d.lock k with staged := l }
  (d.setN O.jdpLockStaged l.length k).setN O.jdpLockStagedBytes (stagedBytes l) k

/-- A write of a staged object replaces its staged value in its place; a partial write is added. -/
def stageOne (x : Staged) (l : List Staged) : List Staged :=
  if x.offset.isNone && l.any (fun y => y.offset.isNone && y.index == x.index && y.sub == x.sub) then
    l.map fun y => if y.offset.isNone && y.index == x.index && y.sub == x.sub then x else y
  else l ++ [x]

/-- Conditions 1 to 5 and the permitted values of the items. -/
def stageCode (d : Dev) (who : Who) : Nat → List Staged → Except (Nat × Abort) (List Staged)
  | _, [] => .ok []
  | k, x :: xs =>
    match itemLoc d who x with
    | .error a => .error (k, a)
    | .ok l =>
      match ((itemParts k l x).map meaningCode).find? (· != 0) with
      | some c => .error (k, ⟨c, 0⟩)
      | none => (stageCode d who (k + 1) xs).map fun r => { x with index := indexOfLoc (oneView l) } :: r

def seqBytes (l : List Staged) : Nat :=
  stagedBytes (l.filter fun x => (x.index == O.segTable.idx && x.sub == O.segTable.sub) || (x.index == O.listData.idx && x.sub == O.listData.sub))

/-- The items are staged under lock `k`. -/
def stageItems (d : Dev) (who : Who) (k : Nat) (xs : List Staged) : Except (Nat × Abort) Dev :=
  match stageCode d who 0 xs with
  | .error e => .error e
  | .ok ys =>
    let l := ys.foldl (fun l x => stageOne x l) (d.lock k).staged
    if 128 < l.length ∨ 16384 < stagedBytes l then .error (255, ⟨aStageLimit, 0⟩)
    else if 4096 < seqBytes l then .error (255, ⟨aRange, 0⟩)
    else .ok (setStaged d k l)

/-- The lock of the holder, on a node, over the object of an item. -/
def holderLock (d : Dev) (slot node : Nat) (x : Staged) : Option Nat :=
  let ixs := match lookup x.index x.sub with | some l => viewIndices l | none => [x.index]
  (List.range 32).find? fun k => d.nat O.jdpLockOwner k == slot && d.nat O.jdpLockNode k == node
    && ixs.any (inRanges (d.lock k).ranges)

/-- A write of items of this node: staged, split, or at once (R379). -/
def writeOp (v : Vault) (d : Dev) (who : Who) (multi : Bool) (xs : List Staged) : OpOut :=
  let err := fun (e : Nat × Abort) => opAbort v d e.2 (if multi then e.1 else 255)
  match (xs.map (holderLock d who.slot d.node)).eraseDups with
  | [some k] =>
    match stageItems d who k xs with
    | .error e => err e
    | .ok d' => opOk v d' []
  | [none] =>
    match writeItems v d who xs with
    | .error e => err e
    | .ok s => opOk s.1 s.2 []
  | _ => opAbort v d ⟨aLockSplit, 0⟩

/-- One write item (Table 14.5): the node, the item and what follows it. -/
def writeItem (b : Bytes) : Option (Nat × Staged × Bytes) :=
  let n := leField b 6 2
  if b.length < 8 + n ∨ leField b 5 1 ≠ 0 then none
  else
    let a := addrAt b 0
    some (a.node, ⟨a.index, a.sub, leField b 4 1, none, slice b 8 n⟩, b.drop (8 + n))
def writeItemsOf : Nat → Bytes → Option (List (Nat × Staged))
  | 0, b => if b = [] then some [] else none
  | k + 1, b =>
    match writeItem b with
    | none => none
    | some (n, x, rest) => (writeItemsOf k rest).map fun l => (n, x) :: l
/-- The items of a WRITE or WRITE_MULTI body. -/
def writeBody (multi : Bool) (b : Bytes) : Option (List (Nat × Staged)) :=
  if !multi then writeItemsOf 1 b
  else
    let n := leField b 0 1
    if b.length < 4 ∨ n < 1 ∨ 32 < n ∨ !allZero (slice b 1 3) then none else writeItemsOf n (b.drop 4)

def writeRequest (v : Vault) (d : Dev) (who : Who) (multi : Bool) (b : Bytes) : OpOut :=
  match writeBody multi b with
  | some ((n, x) :: xs) =>
    if xs.any (·.1 != n) then opAbort v d ⟨aMultiNode, 0⟩ else atNode v d n (writeOp v d who multi (x :: xs.map (·.2)))
  | _ => opBad v d

def commitOp (v : Vault) (d : Dev) (who : Who) (b : Bytes) : OpOut :=
  if b.length ≠ 4 ∨ leField b 3 1 ≠ 0 then opBad v d
  else match namedLock d who.slot (leField b 0 2) with
    | .error e => opAbort v d e
    | .ok k =>
      if 1 < leField b 2 1 then opAbort v d ⟨aRange, 0⟩
      else match lockFar d k with
        | some n => .forward n
        | none =>
          let xs := (d.lock k).staged
          match writeItems v d who xs with
          | .error e => opAbort v d e.2 e.1
          | .ok s =>
            let d := if leField b 2 1 = 0 then (freeLock s.2 k).1 else setStaged s.2 k []
            opOk s.1 d (leBytes 2 xs.length ++ [0, 0])

/-! BLOCK (R377). -/

def blockKey (b : Bytes) : Nat := leField b 0 3
/-- An assembled value is written. -/
def blockApply (v : Vault) (d : Dev) (who : Who) (a : Addr) (data : Bytes) : OpOut :=
  writeOp v d who false [⟨a.index, a.sub, tyCode .domain, none, data⟩]

/-- (DEDUCED, log 24) -/
def blockPiece (v : Vault) (d : Dev) (who : Who) (b : Bytes) : OpOut :=
  let a := addrAt b 0
  let last := leField b 4 1 == 2
  let off := leField b 8 4
  let data := b.drop 12
  match lookup a.index a.sub with
  | none => opAbort v d ⟨aNoObject, 0⟩
  | some l =>
    if l.o.acc = .ro ∨ l.o.acc = .const then opAbort v d ⟨aNoAccess, 0⟩
    else if who.role < writeRole who l then opAbort v d ⟨aRole, writeRole who l⟩
    else if l.o.ty ≠ .domain then opAbort v d ⟨aType, 0⟩
    else
      let key := blockKey b
      let set := fun (x : Option (Nat × Bytes)) => d.onSes who.slot fun s => { s with block := x }
      let held := match (d.ses who.slot).block with | some (k, x) => if k = key then some x else none | none => none
      if partialObj l.o then writeOp v (set (held.map fun x => (key, x))) who false [⟨a.index, a.sub, tyCode .domain, some off, data⟩]
      else
        let buf := if off = 0 then some data else match held with | some x => if x.length = off then some (x ++ data) else none | none => none
        match buf with
        | none => opAbort v (set none) ⟨aBlockOrder, 0⟩
        | some x =>
          if 8192 < x.length then opAbort v (set none) ⟨aLength, 8192⟩
          else if last then blockApply v (set none) who a x
          else opOk v (set (some (key, x))) []

def blockOp (v : Vault) (d : Dev) (who : Who) (b : Bytes) : OpOut :=
  let dir := leField b 4 1
  let n := leField b 6 2
  if b.length < 12 ∨ 2 < dir ∨ leField b 5 1 ≠ 0 ∨ b.length ≠ (if dir = 0 then 12 else 12 + n) then opBad v d
  else
    let a := addrAt b 0
    atNode v d a.node (if dir = 0 then
        (let d := touchBlock d who a.index a.sub (leField b 8 4) n
         match blockRead d who a.index a.sub (leField b 8 4) n with | .error e => opAbort v d e | .ok x => opOk v d x)
      else blockPiece v d who b)

/-! Subscriptions (R384, Table 14.10). -/

/-- What a subscription of a kind names. -/
def subOf (kind node index sub : Nat) : Sub :=
  if kind = 0 then ⟨0, node, index, 0⟩ else if kind = 3 then ⟨3, node, index, sub⟩ else ⟨kind, node, 0, 0⟩
/-- What refuses an add. (DEDUCED, log 24) -/
def subCode (who : Who) (u : Sub) : Option Abort :=
  if u.kind = 0 then (if 15 < u.index then some ⟨aRange, 0⟩ else none)
  else if u.kind = 3 then
    match lookup u.index u.sub with
    | none => some ⟨aNoObject, 0⟩
    | some l =>
      if l.o.acc = .wo then some ⟨aNoAccess, 0⟩
      else if who.role < readRole l.o then some ⟨aRole, readRole l.o⟩
      else if l.o.ty = .domain ∨ l.o.ty = .str then some ⟨aRange, 0⟩
      else none
  else none

def setSubs (d : Dev) (slot : Nat) (l : List Sub) : Dev := (d.onSes slot fun s => { s with subs := l }).setN O.jdpSesSubs l.length slot
def subAnswer (n : Nat) : Bytes := leBytes 1 n ++ [0, 0, 0]

/-- Add or remove at the node that executes it. -/
def subApply (d : Dev) (who : Who) (action : Nat) (u : Sub) : Except Abort Dev :=
  let l := (d.ses who.slot).subs
  if action = 1 then
    match subCode who u with
    | some e => .error e
    | none =>
      if l.contains u then .ok d
      else if 48 ≤ l.length then .error ⟨aSubLimit, 0⟩
      else .ok (setSubs d who.slot (l ++ [u]))
  else if l.contains u then .ok (setSubs d who.slot (l.filter (· != u)))
  else .error ⟨aRange, 0⟩

def subOfBody (b : Bytes) : Sub := subOf (leField b 1 1) (leField b 2 1) (leField b 4 2) (leField b 3 1)
def subscribeOp (v : Vault) (d : Dev) (who : Who) (b : Bytes) : OpOut :=
  if b.length ≠ 8 ∨ !allZero (slice b 6 2) then opBad v d
  else
    let action := leField b 0 1
    let u := subOfBody b
    if action = 3 then
      let far := (((d.ses who.slot).subs.map (·.node)).filter (· != d.node)).eraseDups
      let d := { d with jdp := { d.jdp with notices := d.jdp.notices ++ far.map fun n => (n, who.slot, opSubscribe, b) } }
      opOk v (setSubs d who.slot []) (subAnswer 0)
    else if action ≠ 1 ∧ action ≠ 2 ∨ 4 < u.kind then opAbort v d ⟨aRange, 0⟩
    else match place d u.node, subApply d who action u with
      | .absent, _ => opAbort v d ⟨aNoObject, 0⟩
      | _, .error e => opAbort v d e
      | .far, .ok _ => .forward u.node
      | .own, .ok d' => opOk v d' (subAnswer (d'.ses who.slot).subs.length)

/-! Replay (R372, R385). -/

/-- The DSEQ `p` after `a`. -/
def dseqAfter (a p : Nat) : Nat := if a + p < 2 ^ 32 then a + p else a + p - 2 ^ 32 + 1
/-- `a` follows `b` (R372). -/
def dseqFollows (a b : Nat) : Bool := let n := dseqDist a b; decide (1 ≤ n ∧ n < 2 ^ 31)

/-- A stretch of the replay: a GAP over positions `lo..hi`, or a notification at its position. -/
inductive Rep where
  | gap (lo hi reason : Nat)
  | whole (p : Nat) (body : Bytes)
  deriving DecidableEq, Repr

/-- (DEDUCED, log 28) -/
def replayMark (b : Bytes) : Bytes := splice b 2 [1, 0]
/-- What a retained notification is replayed as. -/
def replayOne (d : Dev) (p : Nat) (x : Notif) : Rep :=
  if leField x.body 0 1 ≠ 1 then .whole p (replayMark x.body)
  else if x.jseq = 0 then .gap p p 2
  else if leField x.body 1 1 ≠ d.node then .whole p (replayMark x.body)
  else match journalRecord d.jrn x.jseq with
    | some r => .whole p (replayMark (splice x.body 24 r))
    | none => .gap p p 3

/-- A stretch is joined to the last when both are gaps of one reason. -/
def addRep (l : List Rep) (x : Rep) : List Rep :=
  match l, x with
  | .gap lo hi r :: t, .gap lo' hi' r' => if r = r' ∧ lo' = hi + 1 then .gap lo hi' r :: t else x :: l
  | _, _ => x :: l
/-- Positions 1 to `n` after `seen`, newest stretch first: `l` are the retained notifications, `prev` the last position done. -/
def replayFrom (d : Dev) (seen n : Nat) : List Notif → Nat → List Rep → List Rep
  | [], prev, acc => if prev < n then addRep acc (.gap (prev + 1) n 1) else acc
  | x :: xs, prev, acc =>
    let p := dseqDist x.dseq seen
    if p ≤ prev ∨ n < p then replayFrom d seen n xs prev acc
    else
      let acc := if prev + 1 < p then addRep acc (.gap (prev + 1) (p - 1) 1) else acc
      replayFrom d seen n xs p (addRep acc (replayOne d p x))

def repMessage (d : Dev) (seen : Nat) : Rep → Nat × Bytes
  | .whole p b => (dseqAfter seen p, b)
  | .gap lo hi r =>
    (dseqAfter seen lo, replayMark (notifHead 7 d.node d.now) ++ leBytes 4 (dseqAfter seen lo) ++ leBytes 4 (dseqAfter seen hi)
      ++ leBytes 1 r ++ [0, 0, 0])

/-- The notifications replayed to slot `k` after `seen`, oldest first. (DEDUCED, log 28) -/
def replay (d : Dev) (k seen : Nat) : List (Nat × Bytes) :=
  let n := dseqDist (d.nat O.jdpSesDseq k) seen
  ((replayFrom d seen n (d.jdp.retained.filter (·.slot == k)) 0 []).reverse).map (repMessage d seen)

/-- The response of Table 14.6. -/
def resyncAnswer (d : Dev) (k first locks staged : Nat) (nd : Bytes) : Bytes :=
  leBytes 2 (d.nat O.jdpSesId k) ++ leBytes 1 k ++ leBytes 1 (d.nat O.jdpSesRole k) ++ leBytes 4 first
  ++ leBytes 4 (d.nat O.jdpSesDseq k) ++ leBytes 2 locks ++ leBytes 2 staged ++ padTo 16 nd ++ leBytes 2 (d.nat O.jdpSesTimeout k) ++ [0, 0]
def firstReplayed (d : Dev) (k seen : Nat) : Nat := if dseqDist (d.nat O.jdpSesDseq k) seen = 0 then 0 else dseqAfter seen 1

/-- RESYNC with mode REPLAY. -/
def replayOp (v : Vault) (d : Dev) (who : Who) (b : Bytes) : OpOut :=
  if b.length ≠ 28 ∨ leField b 3 1 ≠ 0 ∨ !allZero (slice b 8 16) ∨ !allZero (slice b 26 2) then opBad v d
  else
    let seen := leField b 4 4
    if leField b 0 1 ≠ 2 ∨ dseqFollows seen (d.nat O.jdpSesDseq who.slot) then opAbort v d ⟨aRange, 0⟩
    else .done { body := resyncAnswer d who.slot (firstReplayed d who.slot seen) 0 0 [] } v d (replay d who.slot seen)

/-! One operation. -/

/-- An operation of a session of this node, or of the head's session that forwarded it. (DEDUCED, log 24) -/
def runOp (v : Vault) (d : Dev) (who : Who) (op : Nat) (b : Bytes) : OpOut :=
  if op = opRead ∨ op = opPeek then
    (if b.length ≠ 4 then opBad v d else let a := addrAt b 0; atNode v d a.node (readOp v d who (op == opPeek) a))
  else if op = opReadMulti then
    (if !multiOk b then opBad v d else match nextFar d b [] with | some n => .forward n | none => readMulti v d who false b [])
  else if op = opWrite then writeRequest v d who false b
  else if op = opWriteMulti then writeRequest v d who true b
  else if op = opLock then lockOp v d who b
  else if op = opRenew then renewOp v d who b
  else if op = opRelease then releaseOp v d who b
  else if op = opCommit then commitOp v d who b
  else if op = opSubscribe then subscribeOp v d who b
  else if op = opResync then replayOp v d who b
  else if op = opBlock then blockOp v d who b
  else if op = opNop then (if b = [] then opOk v d [] else opBad v d)
  else opAbort v d ⟨aBadOp, 0⟩

end Sys2Proof.Machine
end

