-- ==== Sys2Proof/Machine/Service.lean ====
section
/-! DEFINITION. Sessions at work (R364-R373, R386, R389): opening and rejoining, the order of requests, their answers, and requests
forwarded around the ring. -/
namespace Sys2Proof.Machine

/-! Who asks. -/

def whoOf (d : Dev) (k cseq : Nat) : Who :=
  { slot := k, role := sesRole d k, binding := sesBinding d k, cseq := cseq, key := (d.ses k).key }
/-- A JDP header and body without tag, as a routed packet carries them (Table 17.7). (DEDUCED, log 33) -/
def routed (vf op sid cseq : Nat) (body : Bytes) : Bytes :=
  leBytes 1 (0x10 + vf) ++ leBytes 1 op ++ leBytes 2 sid ++ leBytes 4 cseq ++ List.replicate 8 0 ++ body

/-! Answers. -/

/-- An answer as response bytes: whether it is an abort, and its body. -/
def respBytes (r : Resp) : Bool × Bytes := if r.code = 0 then (false, r.body) else (true, abortBody r.code r.item r.detail)

/-- The request `cseq` of session `k`, asked of device `d`, is answered: e advances, the answer is retained and sent, and what is
replayed follows it.  A session that the request itself ended is answered as it stood. -/
def finish (d : Dev) (k op cseq : Nat) (req : Bytes) (err : Bool) (body : Bytes) (rep : List (Nat × Bytes)) (d' : Dev) : Dev :=
  if d'.sesOpen k && d'.nat O.jdpSesId k == d.nat O.jdpSesId k then
    let x := sesAnswer (d'.setN O.jdpSesCseq cseq k) k op cseq req err body
    rep.foldl (fun y e => sesSend y k 4 0x40 0 e.1 e.2) x
  else
    d'.emit (sesBinding d k) (sesSrc d k)
      (sesMessage (d.setN O.jdpSesCseq cseq k) k (8 + 2 * b2n err) op cseq (d.nat O.jdpSesDseq k) body)

/-- A request goes to node `n` (R389): body and operation as the node is to execute them. (DEDUCED, log 33) -/
def sendFar (d : Dev) (k n op cseq : Nat) (body : Bytes) : Dev :=
  sendDict d ptReq n (16 * sesRole d k + k) (routed 0 op (d.nat O.jdpSesId k) cseq body)
/-- The body that goes: handles become those of the node, a READ_MULTI holds the node's items. (DEDUCED, log 33) -/
def farBody (d : Dev) (k n op : Nat) (b : Bytes) : Bytes :=
  if op = opRenew ∨ op = opCommit then
    match findLock d k (leField b 0 2) with | some j => splice b 0 (leBytes 2 (d.lock j).remote) | none => b
  else if op = opReadMulti then multiFor b n
  else b
def forward (d : Dev) (k n op cseq : Nat) (b : Bytes) : Dev :=
  let d := d.onSes k fun s => { s with awaiting := some (n, cseq, op, b), absent := false, block := if op = opBlock ∧ leField b 4 1 ≠ 0 then none else s.block }
  sendFar d k n op cseq (farBody d k n op b)

/-- One request is executed, or sent on (R373). -/
def execute (v : Vault) (d : Dev) (k op vf cseq src : Nat) (b : Bytes) : Vault × Dev :=
  let d := (d.onSes k fun s => { s with iface := src / 2 ^ 48 }).setN O.jdpSesPeer (src % 2 ^ 48) k
  match (if vf % 16 ≠ 0 then opBad v d else runOp v d (whoOf d k cseq) op b) with
  | .done r v' d' rep =>
    let x := respBytes r
    (v', finish d k op cseq b x.1 x.2 rep { d' with jdp := { d'.jdp with resp := r } })
  | .forward n => (v, forward d k n op cseq b)

/-- Held requests that are next in order are executed (Table 14.8). -/
def runHeld (v : Vault) (d : Dev) (k : Nat) : Nat → Vault × Dev
  | 0 => (v, d)
  | fuel + 1 =>
    let e := d.nat O.jdpSesCseq k
    if !d.sesOpen k ∨ (d.ses k).awaiting.isSome then (v, d)
    else match (d.ses k).held.find? (·.cseq == e + 1) with
      | none => (v, d)
      | some h =>
        let d := d.onSes k fun s => { s with held := s.held.filter (·.cseq != h.cseq) }
        let x := execute v d k h.op h.vf h.cseq h.src h.body
        runHeld x.1 x.2 k fuel

/-! Duplicates (R370). -/

/-- Items of a READ_MULTI read afresh, an RWS item as it was retained. -/
def againItems (v : Vault) (d : Dev) (who : Who) (as : List Addr) (kept : List Bytes) : Bytes :=
  (as.zip kept).flatMap fun e =>
    let rws := match lookup e.1.index e.1.sub with | some l => l.o.acc == .rws | none => false
    if rws || e.1.node != d.node then e.2
    else match readAt v d who true e.1.index e.1.sub with
      | .error a => leBytes 2 a.code ++ typed 0 []
      | .ok (t, x, _) => leBytes 2 0 ++ typed t x
/-- The answer of a duplicate: an abort or not, and the body. (DEDUCED, log 29) -/
def again (v : Vault) (d : Dev) (k : Nat) (x : Retained) : Bool × Bytes :=
  let who := whoOf d k x.cseq
  let a := addrAt x.request 0
  let rws := match lookup a.index a.sub with | some l => l.o.acc == .rws | none => false
  let fresh := fun (o : OpOut) => match o with | .done r _ _ _ => respBytes r | .forward _ => (x.err, x.body)
  if x.err && leField x.body 0 2 == aBadBody then (true, x.body)
  else if x.op = opRead ∨ x.op = opPeek then (if rws || a.node != d.node then (x.err, x.body) else fresh (readOp v d who true a))
  else if x.op = opReadMulti then
    (if x.err then (true, x.body)
     else (false, againItems v d who (multiAddrs x.request) (splitItems (leField x.request 0 1) x.body)))
  else if x.op = opBlock ∧ leField x.request 4 1 = 0 then
    (if a.node ≠ d.node then (x.err, x.body)
     else fresh (match blockRead d who a.index a.sub (leField x.request 8 4) (leField x.request 6 2) with | .error e => opAbort v d e | .ok y => opOk v d y))
  else (x.err, x.body)

/-! Sequence (R369, Table 14.8). -/

/-- An answer that changes nothing in the session goes to where the message came from. (DEDUCED, log 29) -/
def answerTo (d : Dev) (k src op cseq : Nat) (err : Bool) (body : Bytes) : Dev :=
  let m := sesMessage d k (8 + 2 * b2n err) op cseq (d.nat O.jdpSesDseq k) body
  (d.onSes k fun s => { s with loss := false }).emit (sesBinding d k) src m

/-- An authenticated message of session `k` whose request is no OPEN or REJOIN. (DEDUCED, log 25) -/
def accepted (v : Vault) (d : Dev) (k op vf cseq ack src : Nat) (b : Bytes) : Vault × Dev :=
  let d := (d.onSes k fun s => { s with lastAt := d.up }).setN O.jdpSesAck ack k
  let d := if sesState d k = 1 then d.setN O.jdpSesState 2 k else d
  let e := d.nat O.jdpSesCseq k
  let s := d.ses k
  let waits := match s.awaiting with | some (_, c, _) => c == cseq | none => false
  if waits || cseq == 0 || e == 0xFFFFFFFF then (v, d)
  else if cseq = e + 1 ∧ s.awaiting.isNone then
    let x := execute v d k op vf cseq src b
    runHeld x.1 x.2 k 16
  else if e < cseq ∧ cseq ≤ e + 16 then
    (v, if s.held.any (·.cseq == cseq) ∨ 15 ≤ s.held.length then d
        else d.onSes k fun s => { s with held := s.held ++ [⟨cseq, op, vf, src, b, d.up⟩] })
  else if e < cseq then (v, d.bump O.jdpCntWindow)
  else if cseq + 63 < e then (v, answerTo d k src op cseq true (abortBody aSeqStale 0xFF 0))
  else match s.kept.find? (·.cseq == cseq) with
    | some x => let r := again v d k x; (v, answerTo d k src op cseq r.1 r.2)
    | none => (v, d)

/-! OPEN and REJOIN (R364-R366, R386, R547). -/

def sesKey (roleKey : Bytes) (sid : Nat) (nc nd : Bytes) : Bytes := hmacSha256 roleKey (ascii "JDP-SK" ++ leBytes 2 sid ++ nc ++ nd)
/-- An abort under the role key. -/
def keyAbort (d : Dev) (key : Bytes) (binding src sid cseq : Nat) (a : Abort) : Dev :=
  d.emit binding src (message key 0x1A opResync sid cseq 0 0 (abortBody a.code 0xFF a.detail))

/-- The next SID that is not in use (R366). -/
def nextSid (d : Dev) : Nat → Nat → Nat
  | 0, s => s
  | n + 1, s =>
    let s := if s + 1 ≤ 65535 then s + 1 else 1
    if (List.range 16).any (fun k => d.sesOpen k && d.nat O.jdpSesId k == s) then nextSid d n s else s

/-- The lowest free slot that an OPEN of a role may take. -/
def freeSlot (d : Dev) (role : Nat) : Option Nat := (List.range (if role = 3 then 16 else 15)).find? fun k => !d.sesOpen k

/-- (DEDUCED, log 26) -/
def sessionStart (d : Dev) (k sid role keyId timeout binding src : Nat) (key nc : Bytes) : Dev :=
  let d := d.setSes k { keyId := keyId, key := key, lastAt := d.up, openedAt := d.up, nonces := [nc], iface := src / 2 ^ 48 }
  let d := (((d.setN O.jdpSesState 1 k).setN O.jdpSesId sid k).setN O.jdpSesRole role k).setN O.jdpSesBinding binding k
  let d := ((d.setN O.jdpSesPeer (src % 2 ^ 48) k).setN O.jdpSesTimeout timeout k).setI O.jdpSesOpened d.now k
  countSessions { d with jdp := { d.jdp with lastSid := sid, openNonces := lastN 64 (d.jdp.openNonces ++ [nc]) } }

/-- RESYNC with mode OPEN, its tag and nonce correct: `b` is its body. (DEDUCED, log 24) -/
def openSession (d : Dev) (rk : RoleKey) (keyId binding src sid cseq : Nat) (b : Bytes) : Dev :=
  let no := fun (a : Abort) => keyAbort d rk.key binding src sid cseq a
  let role := leField b 1 1
  if d.ringMember then no ⟨aNotHead, 0⟩
  else if b.length ≠ 28 ∨ sid ≠ 0 ∨ cseq ≠ 0 ∨ leField b 3 1 ≠ 0 ∨ leField b 4 4 ≠ 0 ∨ leField b 26 2 ≠ 0 then no ⟨aBadBody, 0⟩
  else if roleNum rk.role < role then no ⟨aRole, role⟩
  else if d.on O.secRngState then no ⟨aState, 0⟩
  else match freeSlot d role with
    | none => no ⟨aNoSlot, 0⟩
    | some k =>
      let (nd, d) := d.random 16
      let id := nextSid d 17 d.jdp.lastSid
      let nc := slice b 8 16
      let t := leField b 24 2
      let d := sessionStart d k id role keyId (if t = 0 then d.nat O.jdpTimeoutDefault else t) binding src (sesKey rk.key id nc nd) nc
      sesRespond d k opResync 0 false (resyncAnswer d k 0 0 0 nd)

/-- RESYNC with mode REJOIN of the open session `k`. (DEDUCED, log 27; DEDUCED, log 28) -/
def rejoinSession (d : Dev) (rk : RoleKey) (keyId k src cseq : Nat) (b : Bytes) : Dev :=
  let sid := d.nat O.jdpSesId k
  let no := fun (a : Abort) => keyAbort d rk.key (sesBinding d k) src sid cseq a
  let role := leField b 1 1
  let seen := leField b 4 4
  if d.ringMember then no ⟨aNotHead, 0⟩
  else if b.length ≠ 28 ∨ cseq ≠ 0 ∨ leField b 3 1 ≠ 0 ∨ leField b 26 2 ≠ 0 then no ⟨aBadBody, 0⟩
  else if role ≠ sesRole d k then no ⟨aRole, sesRole d k⟩
  else if roleNum rk.role < role then no ⟨aRole, role⟩
  else if d.on O.secRngState then no ⟨aState, 0⟩
  else if dseqFollows seen (d.nat O.jdpSesDseq k) then no ⟨aRange, 0⟩
  else
    let (nd, d) := d.random 16
    let nc := slice b 8 16
    let t := leField b 24 2
    let d := d.onSes k fun s => { s with keyId := keyId, key := sesKey rk.key sid nc nd, lastAt := d.up, held := [], kept := [], block := none,
                                         awaiting := none, absent := false, gathered := [], nonces := lastN 16 (s.nonces ++ [nc]),
                                         iface := src / 2 ^ 48 }
    let d := ((d.setN O.jdpSesCseq 0 k).setN O.jdpSesPeer (src % 2 ^ 48) k).setN O.jdpSesTimeout (if t = 0 then d.nat O.jdpTimeoutDefault else t) k
    let (d, locks, staged) := freeLocks (d.bump O.jdpSesRejoins k) k 2
    let d := sesRespond d k opResync 0 false (resyncAnswer d k (firstReplayed d k seen) locks staged nd)
    (replay d k seen).foldl (fun y e => sesSend y k 4 0x40 0 e.1 e.2) d

/-! Acceptance (R367, Table 14.7). -/

/-- The controller answers on a binding: all of them from MEADOW on, the host SPI port alone in HEATH.
(DESIGN CHOICE, log 23) -/
def served (d : Dev) (binding : Nat) : Bool :=
  let st := d.nat O.devState
  !d.pmu.held && (decide (2 ≤ st ∧ st ≤ 4) || (st == 1 && binding % 16 == bindSpi))

def sessionOf (d : Dev) (sid : Nat) : Option Nat := (List.range 16).find? fun k => d.sesOpen k && d.nat O.jdpSesId k == sid

/-- (DEDUCED, log 24) -/
def resyncMessage (v : Vault) (d : Dev) (binding src sid cseq : Nat) (head body tag : Bytes) : Vault × Dev :=
  let keyId := leField body 2 1
  let rejoin := leField body 0 1 == 1
  let ses := if rejoin then sessionOf d sid else none
  let here := match ses with | some k => sesBinding d k == binding | none => true
  match v.key keyId with
  | none => (v, d.bump O.jdpCntUnknown)
  | some rk =>
    let nc := slice body 8 16
    let used := match ses with
      | some k => (d.ses k).nonces.contains nc
      | none => !rejoin && d.jdp.openNonces.contains nc
    if !here then (v, d.bump O.jdpCntUnknown)
    else if (hmacSha256 rk.key (head ++ body)).take 16 ≠ tag then (v, d.bump O.jdpCntTag)
    else if used then (v, d.bump O.jdpCntNonce)
    else if !rejoin then (v, openSession d rk keyId binding src sid cseq body)
    else match ses with
      | some k => (v, rejoinSession d rk keyId k src cseq body)
      | none => (v, keyAbort d rk.key binding src sid cseq ⟨aSesUnknown, 0⟩)

/-- A message arrives on a binding (the code of `jdp.ses.binding`) from `src`. -/
def receive (v : Vault) (d : Dev) (binding src : Nat) (m : Bytes) : Vault × Dev :=
  if !served d binding then (v, d)
  else if m.length < 32 ∨ 1056 < m.length then (v, d.bump O.jdpCntMalformed)
  else
    let vf := leField m 0 1
    let op := leField m 1 1
    let sid := leField m 2 2
    let cseq := leField m 4 4
    let head := m.take 16
    let body := slice m 16 (m.length - 32)
    let tag := m.drop (m.length - 16)
    if vf / 16 ≠ 1 then (v, d.bump O.jdpCntVersion)
    else if op = opResync ∧ 24 ≤ body.length ∧ leField body 0 1 ≤ 1 then resyncMessage v d binding src sid cseq head body tag
    else match sessionOf d sid with
      | none => (v, d.bump O.jdpCntUnknown)
      | some k =>
        if sesBinding d k ≠ binding then (v, d.bump O.jdpCntUnknown)
        else if (hmacSha256 (d.ses k).key (head ++ body)).take 16 ≠ tag then (v, d.bump O.jdpCntTag)
        else accepted v d k op vf cseq (leField m 12 4) src body

/-- The CSEQ of the next request of session `k`. (DESIGN CHOICE, log 23) -/
def nextCseq (d : Dev) (k : Nat) : Nat :=
  let s := d.ses k
  let far := match s.awaiting with | some (_, c, _) => c | none => 0
  (s.held.map (·.cseq)).foldl max (max far (d.nat O.jdpSesCseq k)) + 1

/-- A request of session `k` arrives in order, authenticated, from its peer. (DESIGN CHOICE, log 23) -/
def request (v : Vault) (d : Dev) (k ack op : Nat) (b : Bytes) : Vault × Dev :=
  if !d.sesOpen k then (v, d.bump O.jdpCntUnknown)
  else if !served d (sesBinding d k) then (v, d)
  else accepted v d k op 0 (nextCseq d k) ack (sesSrc d k) b

/-! Requests around the ring (R389). -/

/-- An answer from node `n` comes to session `k`: what the head keeps of it, and the client's answer.
(DEDUCED, log 33) -/
def farDone (v : Vault) (d : Dev) (k n op cseq : Nat) (b : Bytes) (err : Bool) (body : Bytes) : Vault × Dev :=
  let d := d.onSes k fun s => { s with awaiting := none, absent := false }
  let who := whoOf d k cseq
  let close := fun (err : Bool) (body : Bytes) (x : Dev) =>
    runHeld v (finish d k op cseq b err body [] (x.onSes k fun s => { s with gathered := [] })) k 16
  if op = opReadMulti ∧ !err then
    let d := d.onSes k fun s => { s with gathered := s.gathered ++ [(n, body)] }
    match nextFar d b (d.ses k).gathered with
    | some m => (v, forward d k m op cseq b)
    | none =>
      match readMulti v d who false b (d.ses k).gathered with
      | .done r v' d' _ => runHeld v' (finish d k op cseq b false r.body [] (d'.onSes k fun s => { s with gathered := [] })) k 16
      | .forward _ => (v, d)
  else if err then close true body d
  else if op = opLock then
    let x := takeLock d k n (leField b 4 4) (lockRanges b) (leField body 0 2)
    close false (lockAnswer x.1 (leField body 4 4)) x.2
  else if op = opRenew then
    close false body (match findLock d k (leField b 0 2) with | some j => renewLock d j (leField b 4 4) | none => d)
  else if op = opCommit then
    match findLock d k (leField b 0 2) with
    | none => close false body d
    | some j =>
      let d' := if leField b 2 1 = 0 then (freeLock d j).1 else setStaged d j []
      close false body { d' with jdp := { d'.jdp with notices := d.jdp.notices } }
  else if op = opSubscribe then
    match subApply d who (leField b 0 1) (subOfBody b) with
    | .ok d' => close false (subAnswer (d'.ses k).subs.length) d'
    | .error _ => close false (subAnswer (d.ses k).subs.length) d
  else if op = opWrite ∨ op = opWriteMulti then
    let xs := ((writeBody (op == opWriteMulti) b).getD []).map (·.2)
    match (xs.map (holderLock d k n)).eraseDups with
    | [some j] => close false body (match stageItems d who j xs with | .ok d' => d' | .error _ => d)
    | _ => close false body d
  else close false body d

/-- DICT_RSP: the answer of node `n` for head slot `k` (Table 17.7). (DEDUCED, log 33) -/
def dictRsp (v : Vault) (d : Dev) (n k : Nat) (p : Bytes) : Vault × Dev :=
  match d.hl.head, (d.ses k).awaiting with
  | true, some (m, cseq, op, b) =>
    if m = n ∧ leField p 4 4 = cseq ∧ leField p 1 1 = op ∧ leField p 2 2 = d.nat O.jdpSesId k then
      farDone v d k n op cseq b (bit (leField p 0 1) 1) (p.drop 16)
    else (v, d)
  | _, _ => (v, d)

/-- DICT_REQ at the node it names: executed at most once (R389). (DEDUCED, log 33) -/
def dictReq (v : Vault) (d : Dev) (aux : Nat) (p : Bytes) : Vault × Dev :=
  let k := aux % 16
  let op := leField p 1 1
  let cseq := leField p 4 4
  let reply := fun (x : Dev) (a : Bytes) => sendDict x ptRsp 0 aux a
  if d.hl.head ∨ p.length < 16 then (v, d)
  else match d.jdp.fwdKept.find? fun x => x.slot == k && x.request == p with
    | some x => (v, if cseq = 0 then d else reply d x.answer)
    | none =>
      let who : Who := { slot := k, role := aux / 16 % 4, cseq := cseq, remote := true }
      match runOp v d who op (p.drop 16) with
      | .forward _ => (v, d)
      | .done r v' d' _ =>
        let x := respBytes r
        let a := routed (8 + 2 * b2n x.1) op (leField p 2 2) cseq x.2
        if cseq = 0 then (v', d')
        else
          let mine := lastN 64 ((d'.jdp.fwdKept.filter (·.slot == k)) ++ [⟨k, p, a⟩])
          (v', reply { d' with jdp := { d'.jdp with resp := r, fwdKept := d'.jdp.fwdKept.filter (·.slot != k) ++ mine } } a)

/-- A session whose awaited node has left the ring is answered NODE_ABSENT; nodes are told of sessions that ended. -/
def settleOne (k : Nat) (x : Vault × Dev) : Vault × Dev :=
  match (x.2.ses k).absent, (x.2.ses k).awaiting with
  | true, some (n, cseq, op, b) => farDone x.1 x.2 k n op cseq b true (abortBody aNodeAbsent 0xFF 0)
  | _, _ => x
/-- (DEDUCED, log 33) -/
def sendNotices (d : Dev) : Dev :=
  let l := d.jdp.notices
  l.foldl (fun x e => if place x e.1 = .far then sendDict x ptReq e.1 (48 + e.2.1) (routed 0 e.2.2.1 0 0 e.2.2.2) else x)
    { d with jdp := { d.jdp with notices := [] } }
/-- (DEDUCED, log 33) -/
def settle (v : Vault) (d : Dev) : Vault × Dev :=
  let x := forUpto 16 settleOne (v, d)
  (x.1, sendNotices x.2)
/-- The head asks again for answers that have not come. -/
def askAgain (d : Dev) : Dev :=
  forUpto 16 (fun k x => match (x.ses k).awaiting with
    | some (n, cseq, op, b) => sendFar x k n op cseq (farBody x k n op b)
    | none => x) d

/-! The debug port (R390, R551). -/

/-- DEBUG_PEEK: the answer is left in `jdp.resp`. -/
def debugPeek (v : Vault) (d : Dev) (a : Addr) : Dev :=
  if !d.on O.dbgUnlocked then d
  else
    let d := (d.bump O.dbgPeeks).setN O.dbgLastPeek (leNat (addrBytes a))
    match (if a.node = d.node then readOp v d {} true a else opAbort v d ⟨aNoObject, 0⟩) with
    | .done r _ d _ => { d with jdp := { d.jdp with resp := r } }
    | .forward _ => d

/-! Host SPI (R388, Table 14.12). -/

/-- (DEDUCED, log 31) -/
def spiUp (d : Dev) : Bool := d.on O.jdpSpiEnable && !d.pmu.held

/-- Messages in the inbound buffer are taken in order. (DEDUCED, log 31) -/
def takeInbound (v : Vault) (d : Dev) : Vault × Dev :=
  if !served d bindSpi then (v, d)
  else d.jdp.spiIn.foldl (fun x m => receive x.1 x.2 bindSpi 0 m) (v, { d with jdp := { d.jdp with spiIn := [] } })

/-- WRITE_MSG: the length field and the bytes clocked. (DESIGN CHOICE, log 19; DEDUCED, log 31) -/
def writeMsg (v : Vault) (d : Dev) (len : Nat) (m : Bytes) : Vault × Dev :=
  if !spiUp d then (v, d)
  else if len < 32 ∨ 1056 < len ∨ len ≠ m.length then (v, { d with jdp := { d.jdp with spiErr := true } }.bump O.netSpiErrors)
  else if 4 ≤ d.jdp.spiIn.length then (v, { d with jdp := { d.jdp with spiOvr := true } }.bump O.netSpiErrors)
  else takeInbound v ({ d with jdp := { d.jdp with spiIn := d.jdp.spiIn ++ [m] } }.bump O.netSpiMsgsIn)

/-- The session on the host SPI port whose notification was queued first. -/
def spiSession (d : Dev) : Option Nat :=
  (List.range 16).foldl (fun (best : Option Nat) k =>
    match d.sesOpen k && sesBinding d k % 16 == bindSpi, (d.ses k).queue.head? with
    | true, some x =>
      (match best with
       | some j => (match (d.ses j).queue.head? with | some y => if x.queuedAt < y.queuedAt then some k else best | none => some k)
       | none => some k)
    | _, _ => best) none
/-- The next outbound message, and the port with it gone. (DEDUCED, log 32) -/
def spiNext (d : Dev) : Option (Bytes × Dev) :=
  match d.jdp.spiOut with
  | m :: rest => some (m, { d with jdp := { d.jdp with spiOut := rest } })
  | [] =>
    match spiSession d with
    | none => none
    | some k =>
      match (d.ses k).queue with
      | x :: rest => some (notifMessage d x, d.onSes k fun s => { s with queue := rest, loss := false })
      | [] => none
def spiPending (d : Dev) : Nat :=
  d.jdp.spiOut.length + ((List.range 16).map fun k => if d.sesOpen k && sesBinding d k % 16 == bindSpi then (d.ses k).queue.length else 0).foldl (· + ·) 0
/-- HOST_IRQ_N is asserted while this holds. (DESIGN CHOICE, log 92) -/
def hostIrq (d : Dev) : Bool := spiUp d && decide (0 < spiPending d)

/-- READ_STATUS: the status bytes are left in `jdp.resp`. -/
def readStatus (d : Dev) : Dev :=
  if !spiUp d then d
  else
    let flag := fun (k : Nat) (b : Bool) => b2n b * 2 ^ k
    let s := flag 7 (served d bindSpi) + flag 6 (decide (4 ≤ d.jdp.spiIn.length)) + flag 5 d.jdp.spiOvr + flag 4 d.jdp.spiErr + min 15 (spiPending d)
    let n := match spiNext d with | some (m, _) => m.length | none => 0
    { d with jdp := { d.jdp with spiOvr := false, spiErr := false, resp := { body := [0] ++ leBytes 1 s ++ leBytes 2 n } } }

/-- READ_MSG that clocks `n` bytes of the message: the bytes are left in `jdp.resp`. -/
def readMsg (d : Dev) (n : Nat) : Dev :=
  if !spiUp d then d
  else match spiNext d with
    | none => { d with jdp := { d.jdp with resp := {} } }
    | some (m, d') =>
      let d' := if m.length ≤ n then d'.bump O.netSpiMsgsOut else d
      { d' with jdp := { d'.jdp with resp := { body := [0] ++ m.take n } } }
/-- A transaction with a command byte that Table 14.12 does not name. (DESIGN CHOICE, log 19) -/
def spiUnknown (d : Dev) : Dev := if !spiUp d then d else { d with jdp := { d.jdp with spiErr := true } }.bump O.netSpiErrors

/-! CAN FD framing (R388). -/

/-- The smallest CAN FD data length of at least `n` bytes. (DEDUCED, log 30) -/
def canLength (n : Nat) : Nat := (([0, 1, 2, 3, 4, 5, 6, 7, 8, 12, 16, 20, 24, 32, 48, 64] : List Nat).find? fun x => decide (n ≤ x)).getD 64
def canSegments : Nat → Nat → Bytes → List Bytes
  | 0, _, _ => []
  | fuel + 1, k, m =>
    let last := decide (m.length ≤ 63)
    let f := leBytes 1 ((if k = 0 then 128 else 0) + (if last then 64 else 0) + k) ++ m.take 63
    padTo (canLength f.length) f :: (if last then [] else canSegments fuel (k + 1) (m.drop 63))

/-- The key under which a message claims to be tagged. -/
def claimedKey (v : Vault) (d : Dev) (m : Bytes) : Option Bytes :=
  if leField m 1 1 = opResync ∧ leField m 16 1 ≤ 1 then (v.key (leField m 18 1)).map (·.key)
  else (sessionOf d (leField m 2 2)).map fun k => (d.ses k).key
/-- (DEDUCED, log 30) -/
def tagHolds (v : Vault) (d : Dev) (m : Bytes) : Bool :=
  match claimedKey v d m with
  | some k => (hmacSha256 k (m.take (m.length - 16))).take 16 == m.drop (m.length - 16)
  | none => false
/-- Length of the message whose last frame of `last` bytes may be padded with zeros: the length at which its tag holds.
(DEDUCED, log 30) -/
def canTrim (v : Vault) (d : Dev) (m : Bytes) (last : Nat) : Nat :=
  let fits := fun (k : Nat) => canLength (last - k) == last && allZero (m.drop (m.length - k))
  match (List.range 16).find? fun k => fits k && tagHolds v d (m.take (m.length - k)) with
  | some k => m.length - k
  | none => m.length

/-- A CAN frame of the JDP range on port `p`, channel `c`: the frames of a message are put together. -/
def canSegment (v : Vault) (d : Dev) (p c : Nat) (f : Bytes) : Vault × Dev :=
  let h := leField f 0 1
  let seg := h % 64
  let key := p * 8 + c
  let set := fun (x : Option CanAsm) => { d with jdp := { d.jdp with can := match x with | some y => tabPut d.jdp.can key y | none => tabDel d.jdp.can key } }
  let before := match tabFind d.jdp.can key with
    | some y => if d.up - y.lastAt ≤ 100000000 then some y else none
    | none => none
  let body := f.drop 1
  let got := if bit h 7 then (if seg = 0 then some body else none)
    else match before with | some y => if y.next = seg then some (y.bytes ++ body) else none | none => none
  match got with
  | none => (v, set none)
  | some m =>
    if bit h 6 then
      let b := 16 * c + 2 + p
      receive v (set none) b 0 (m.take (canTrim v d m f.length))
    else (v, set (some ⟨seg + 1, m, d.up⟩))

/-- CAN_REASSEMBLY_TIMEOUT. -/
def canTimeout (d : Dev) (p c : Nat) : Dev := { d with jdp := { d.jdp with can := tabDel d.jdp.can (p * 8 + c) } }

end Sys2Proof.Machine
end

