-- ==== Sys2Proof/Machine/Net.lean ====
section
/-! DEFINITION. What Ethernet and CAN ports receive, the PTP port, and the messages of the dictionary protocol that leave through
them (R426-R434). -/
namespace Sys2Proof.Machine

/-! Messages out (R388). -/

/-- A CAN frame as `Net.sent` lists it: the identifier in two bytes, then the data. -/
def canOut (d : Dev) (p id : Nat) (f : Bytes) : Dev :=
  let st := d.nat O.netCanState p
  if st = 0 ∨ st = 3 then d
  else (d.onNet fun n => { n with sent := n.sent ++ [(2 + p, beBytes 2 id ++ f)] }).setN O.netCanTec (d.nat O.netCanTec p - 1) p

/-- One message of a session leaves through its binding. -/
def sendOut (d : Dev) (e : Nat × Nat × Bytes) : Dev :=
  let (b, src, m) := e
  if b % 16 = bindUdp then udpSend d (src / 2 ^ 48) (src / 65536 % 2 ^ 32) (d.nat O.jdpUdpPort) (src % 65536) m
  else if b % 16 = 2 ∨ b % 16 = 3 then
    (canSegments 17 0 m).foldl (fun x f => canOut x (b % 16 - 2) (x.nat O.jdpCanBase + 2 * (b / 16) + 1) f) d
  else d
/-- Every message that the command sent leaves. (DEDUCED, log 32) -/
def flushOut (d : Dev) : Dev := d.jdp.sent.foldl sendOut d

/-! PTP (R430-R433, IEEE 1588-2019). -/

def ptpRuns (d : Dev) (p : Nat) : Bool := d.nat O.netPtpState != 0 && d.net.ptp.port == p
/-- EUI-64 of a MAC address. -/
def clockId (d : Dev) : Nat := let m := macOf d (ifOf d d.net.ptp.port); (m / 2 ^ 24) * 2 ^ 40 + 0xFFFE * 2 ^ 24 + m % 2 ^ 24
def ptpEpoch : Nat := 946684800
/-- Ten bytes of a PTP timestamp, and the instant that they give. -/
def ptpStamp (t : Int) : Bytes := let n := (t + ptpEpoch * 1000000000).toNat; beBytes 6 (n / 1000000000) ++ beBytes 4 (n % 1000000000)
def ptpSec (b : Bytes) (off : Nat) : Nat := beField b off 6
def ptpNs (b : Bytes) (off : Nat) : Nat := beField b (off + 6) 4
def ptpTime (b : Bytes) (off : Nat) : Int := ((ptpSec b off : Int) - ptpEpoch) * 1000000000 + ptpNs b off
/-- The correction field in ns. -/
def ptpCorr (b : Bytes) : Int := roundShift (toSigned 64 (beField b 8 8)) 16

/-- A message of type `t`: the header of IEEE 1588-2019 and the body behind it. -/
def ptpBytes (d : Dev) (t seq flags control : Nat) (interval : Int) (corr : Nat) (body : Bytes) : Bytes :=
  beBytes 1 t ++ [2] ++ beBytes 2 (34 + body.length) ++ beBytes 1 (d.nat O.netPtpDomain) ++ [0] ++ beBytes 2 flags ++ beBytes 8 corr
  ++ [0, 0, 0, 0] ++ beBytes 8 (clockId d) ++ beBytes 2 1 ++ beBytes 2 seq ++ beBytes 1 control ++ beBytes 1 (ofSigned 8 interval) ++ body

/-- It leaves on the PTP port without a trailer (R428). -/
def ptpOut (d : Dev) (event : Bool) (m : Bytes) : Dev :=
  let p := d.net.ptp.port
  let i := ifOf d p
  if d.nat O.netPtpTransport = 1 then ethPlain d p (macOf d i) ptpMac 0x88F7 m
  else
    let port := if event then 319 else 320
    ethPlain d p (macOf d i) (groupMac ptpGroup) 0x0800 (ipPacket (addrNow d i) ptpGroup 17 1 (udpBytes (addrNow d i) ptpGroup port port m))

/-- Time of day as a PTP port stamps what it sends and receives at tick `t` of the frame. -/
def txStamp (d : Dev) (t : Nat) : Int := d.clk + 2 * (t : Int) + d.nat O.netPtpLatTx
def rxStamp (d : Dev) (t : Nat) : Int := d.clk + 2 * (t : Int) - d.nat O.netPtpLatRx

/-! The dataset (R432). -/

def ppsLocked (d : Dev) : Bool := todState d == tsLocked && d.nat O.todSrc == 3
def ptpClass (d : Dev) : Nat :=
  if d.nat O.netPtpRole = 0 then 255 else if ppsLocked d then 6 else if todState d = tsHoldover ∧ d.tod.holdSrc = 3 then 7 else 248
def ptpAccuracy (d : Dev) : Nat := if ppsLocked d then 0x21 else 0xFE
def ptpSource (d : Dev) : Nat := if d.nat O.todSrc = 3 then 0x20 else 0xA0
/-- Flags of an Announce: leap61, leap59, offset valid, PTP timescale. -/
def ptpFlags (d : Dev) : Nat :=
  let today := leapAt d != 0 && decide (leapAt d - 86400 * oneSecond ≤ d.clk ∧ d.clk < leapAt d)
  b2n (today && !leapNeg d) + 2 * b2n (today && leapNeg d) + 4 * b2n (decide (2 ≤ todState d)) + 8
/-- This clock as the comparison takes it: priority 1, class, accuracy, variance, priority 2, grandmaster, steps, sender. -/
def ownSet (d : Dev) : List Nat :=
  [d.nat O.netPtpPriority1, ptpClass d, ptpAccuracy d, 0xFFFF, d.nat O.netPtpPriority2, clockId d, 0, clockId d, 1]
def masterSet (m : Master) : List Nat := [m.prio1, m.cls, m.acc, m.var, m.prio2, m.gm, m.steps, m.id, m.portId]
def listLt : List Nat → List Nat → Bool
  | a :: as, b :: bs => decide (a < b) || (a == b && listLt as bs)
  | _, _ => false

/-! States. -/

def psListening := 1
def psUncalibrated := 2
def psSlave := 3
def psMaster := 4
def psPassive := 5
def ptpState (d : Dev) : Nat := d.nat O.netPtpState
def ptpGo (d : Dev) (st : Nat) : Dev := d.setN O.netPtpState st

/-- A master is followed from the beginning. -/
def ptpFollow (d : Dev) (m : Master) : Dev :=
  let d := d.onPtp fun p => { p with master := some m, pend := none, haveSync := false, req := none, haveDelay := false }
  (ptpGo d psUncalibrated).setN O.netPtpMasterId m.id
/-- MASTER, unless time of day is UNKNOWN (R432). -/
def ptpMaster (d : Dev) (other : Nat) : Dev := (ptpGo d (if todState d = tsUnknown then other else psMaster)).setN O.netPtpMasterId 0

/-- State decision on the best master (IEEE 1588-2019 9.3.3). (PRESUMED, log 37) -/
def ptpDecide (d : Dev) (m : Master) (fresh : Bool) : Dev :=
  let d := d.onPtp fun p => { p with master := some m }
  let follow := if fresh || !(ptpState d == psUncalibrated || ptpState d == psSlave) then ptpFollow d m else d
  if d.nat O.netPtpRole = 0 then follow
  else if listLt (ownSet d) (masterSet m) then ptpMaster d psPassive
  else if ptpClass d < 128 then (ptpGo d psPassive).setN O.netPtpMasterId m.id
  else follow

def announceOf (p : Nat) (b : Bytes) : Master :=
  let f := beField b 7 1
  { port := p, id := beField b 20 8, portId := beField b 28 2, prio1 := beField b 47 1, cls := beField b 48 1, acc := beField b 49 1,
    var := beField b 50 2, prio2 := beField b 52 1, gm := beField b 53 8, steps := beField b 61 2,
    utc := if bit f 2 then some (toSigned 16 (beField b 44 2)) else none, leap := if bit f 0 then 1 else if bit f 1 then 2 else 0,
    traceable := bit f 4 }

/-- ns of an interval given by its logarithm. -/
def logInterval (l : Int) : Nat := if 0 ≤ l then 1000000000 * 2 ^ l.toNat else 1000000000 / 2 ^ (-l).toNat

/-- An Announce: a master that has been heard twice within four intervals is compared. -/
def ptpAnnounce (d : Dev) (p : Nat) (b : Bytes) : Dev :=
  let m := announceOf p b
  let key := m.id * 65536 + m.portId
  let heard := d.net.ptp.foreign.any fun e => e.1 == key && decide (d.up - e.2 ≤ 4 * logInterval (d.int O.netPtpLogAnnounce))
  let d := d.onPtp fun x => { x with foreign := lastN 5 (x.foreign.filter (·.1 != key) ++ [(key, d.up)]) }
  if 255 ≤ m.steps ∨ m.id = clockId d then d
  else
    let same : Bool := match d.net.ptp.master with | some o => o.id == m.id && o.portId == m.portId | none => false
    let d := if same then ptpDecide d m false
      else match heard, d.net.ptp.master with
        | true, some o => if listLt (masterSet m) (masterSet o) then ptpDecide d m true else d
        | true, none => ptpDecide d m true
        | false, _ => d
    if same && ptpState d == psSlave && d.nat O.todSrc == 2 then utcAdopt d m.utc m.leap else d

/-- A message comes from the master that is followed. -/
def fromMaster (d : Dev) (b : Bytes) : Bool :=
  (ptpState d == psUncalibrated || ptpState d == psSlave)
  && match d.net.ptp.master with | some m => m.id == beField b 20 8 && m.portId == beField b 28 2 | none => false

/-- t1 and t2 of a Sync are known (R431): in SLAVE with a delay measurement it gives a sample. -/
def ptpSync (d : Dev) (b : Bytes) (corr t2 : Int) : Dev :=
  let d := d.onPtp fun p => { p with t1 := ptpTime b 34 + corr, t2 := t2, haveSync := true, pend := none }
  if ptpState d = psSlave ∧ d.net.ptp.haveDelay then
    todSample d (.ptp (ptpSec b 34) (ptpNs b 34) (t2 - d.int O.netPtpPathDelay - corr))
  else d

/-- Delay_Resp: the mean path delay; the port becomes SLAVE. -/
def ptpDelayResp (d : Dev) (b : Bytes) : Dev :=
  let p := d.net.ptp
  match p.req with
  | some (seq, t3) =>
    if seq = beField b 30 2 ∧ beField b 44 8 = clockId d ∧ beField b 52 2 = 1 ∧ p.haveSync then
      let delay := ((p.t2 - t3) + (ptpTime b 34 - ptpCorr b - p.t1)) / 2
      let d := (d.onPtp fun p => { p with req := none, haveDelay := true }).setI O.netPtpPathDelay delay
      if ptpState d = psUncalibrated then ptpGo d psSlave else d
    else d
  | none => d

/-- Delay_Req at a master. -/
def ptpDelayReq (d : Dev) (t : Nat) (b : Bytes) : Dev :=
  if ptpState d ≠ psMaster then d
  else ptpOut d false (ptpBytes d 9 (beField b 30 2) 0 3 (d.int O.netPtpLogDelay) (beField b 8 8)
    (ptpStamp (rxStamp d t) ++ slice b 20 10))

/-- The message lies in the subset of Table 17.2. -/
def ptpTaken (d : Dev) (b : Bytes) : Bool :=
  decide (34 ≤ b.length) && beField b 0 1 / 16 == 0 && beField b 1 1 % 16 == 2 && beField b 4 1 == d.nat O.netPtpDomain
  && !bit (beField b 6 1) 0 && !bit (beField b 6 1) 2

/-- PTP_MESSAGE on port `p`, received at tick `t` of the frame. (PRESUMED, log 37) -/
def ptpMessage (d : Dev) (p t : Nat) (b : Bytes) : Dev :=
  if !ptpRuns d p || !ptpTaken d b then d
  else
    let typ := beField b 0 1 % 16
    if typ = 11 then (if 64 ≤ b.length ∧ bit (beField b 7 1) 3 then ptpAnnounce d p b else d)
    else if typ = 1 then (if 44 ≤ b.length then ptpDelayReq d t b else d)
    else if !fromMaster d b then d
    else if typ = 0 ∧ 44 ≤ b.length then
      (if bit (beField b 6 1) 1 then d.onPtp fun x => { x with pend := some (beField b 30 2, rxStamp d t, ptpCorr b) }
       else ptpSync d b (ptpCorr b) (rxStamp d t))
    else if typ = 8 ∧ 44 ≤ b.length then
      match d.net.ptp.pend with
      | some (seq, t2, c) => if seq = beField b 30 2 then ptpSync d b (c + ptpCorr b) t2 else d
      | none => d
    else if typ = 9 ∧ 54 ≤ b.length then ptpDelayResp d b
    else d

def ptpSendSync (d : Dev) (t : Nat) : Dev :=
  let s := d.net.ptp.seqSync
  let i := d.int O.netPtpLogSync
  let d := ptpOut d true (ptpBytes d 0 s 0x0200 0 i 0 (List.replicate 10 0))
  (ptpOut d false (ptpBytes d 8 s 0 2 i 0 (ptpStamp (txStamp d t)))).onPtp fun p => { p with seqSync := (s + 1) % 65536 }
def ptpSendAnnounce (d : Dev) : Dev :=
  let s := d.net.ptp.seqAnn
  let body := List.replicate 10 0 ++ beBytes 2 (ofSigned 16 (d.int O.todUtcOffset)) ++ [0] ++ beBytes 1 (d.nat O.netPtpPriority1)
    ++ beBytes 1 (ptpClass d) ++ beBytes 1 (ptpAccuracy d) ++ beBytes 2 0xFFFF ++ beBytes 1 (d.nat O.netPtpPriority2)
    ++ beBytes 8 (clockId d) ++ [0, 0] ++ beBytes 1 (ptpSource d)
  (ptpOut d false (ptpBytes d 11 s (ptpFlags d) 5 (d.int O.netPtpLogAnnounce) 0 body)).onPtp fun p => { p with seqAnn := (s + 1) % 65536 }
def ptpSendDelay (d : Dev) (t : Nat) : Dev :=
  let s := d.net.ptp.seqReq
  let d := d.onPtp fun p => { p with seqReq := (s + 1) % 65536, req := some (s, txStamp d t) }
  ptpOut d true (ptpBytes d 1 s 0 1 0x7F 0 (List.replicate 10 0))

/-- PTP_INTERVAL: an interval, or the announce receipt timeout, runs out at tick `t`. -/
def ptpInterval (d : Dev) (k : PtpTimer) (t : Nat) : Dev :=
  let st := ptpState d
  match k with
  | .sync => if st = psMaster then ptpSendSync d t else d
  | .announce => if st = psMaster then ptpSendAnnounce d else d
  | .delay => if (st = psUncalibrated ∨ st = psSlave) ∧ d.net.ptp.haveSync then ptpSendDelay d t else d
  | .receipt =>
    if st = 0 ∨ st = psMaster then d
    else
      let d := (d.onPtp fun p => { p with master := none, haveSync := false, haveDelay := false, pend := none, req := none }).setN O.netPtpMasterId 0
      if d.nat O.netPtpRole = 0 then ptpGo d psListening else ptpMaster d psListening

/-- PTP_PORT_FAILOVER (R433): E0 has been down for 1 s, or up for 10 s. -/
def ptpFailover (d : Dev) : Dev :=
  let p := d.net.ptp.port
  if d.nat O.netPtpPort ≠ 2 ∨ d.nat O.netPtpState = 0 ∨ (p = 0) = linkUp d 0 then d
  else ptpStart (d.onPtp fun x => { x with port := 1 - p })

/-! IPv4 (R426, R429). -/

/-- The value of a DHCP option. -/
def dhcpFind (code : Nat) : Nat → Bytes → Option Bytes
  | 0, _ => none
  | fuel + 1, b =>
    match b with
    | [] => none
    | x :: t =>
      if x.toNat = 255 then none
      else if x.toNat = 0 then dhcpFind code fuel t
      else
        let n := leField t 0 1
        if x.toNat = code then some (slice t 1 n) else dhcpFind code fuel (t.drop (1 + n))
def dhcpOpt (b : Bytes) (code : Nat) : Nat := match dhcpFind code 400 (b.drop 240) with | some x => beNat (x.take 4) | none => 0

/-- A lease is granted or extended. -/
def dhcpAck (d : Dev) (i : Nat) (b : Bytes) : Dev :=
  let a := beField b 16 4
  let was := addrNow d i
  let srv := dhcpOpt b 54
  let d := d.onIf i fun f => { f with dhcp := 3, mask := dhcpOpt b 1, gw := dhcpOpt b 3, server := if srv = 0 then f.server else srv,
                                       leaseEnd := d.up + dhcpOpt b 51 * 1000000000 }
  if was = a then d else ifAcquire d i a
/-- A DHCP message for interface `i` (RFC 2131). -/
def dhcpIn (d : Dev) (i : Nat) (b : Bytes) : Dev :=
  let f := d.iface i
  let kind := dhcpOpt b 53
  if d.nat O.netIpMode i ≠ 1 ∨ b.length < 240 ∨ beField b 0 1 ≠ 2 ∨ beField b 4 4 ≠ f.xid ∨ beField b 236 4 ≠ 0x63825363 then ipDrop d i
  else if kind = 2 ∧ f.dhcp = 1 then
    dhcpSend (d.onIf i fun f => { f with dhcp := 2, offered := beField b 16 4, server := dhcpOpt b 54 }) i 3
  else if kind = 5 ∧ (f.dhcp = 2 ∨ f.dhcp = 4 ∨ f.dhcp = 5) then dhcpAck d i b
  else if kind = 6 ∧ (f.dhcp = 2 ∨ f.dhcp = 4 ∨ f.dhcp = 5) then dhcpDiscover (ifClear d i) i
  else ipDrop d i

/-- DHCP_RENEW, DHCP_REBIND and DHCP_LEASE_EXPIRY. -/
def dhcpRenew (d : Dev) (i : Nat) : Dev :=
  if (d.iface i).dhcp ≠ 3 then d else dhcpSend (d.onIf i fun f => { f with dhcp := 4 }) i 3
def dhcpRebind (d : Dev) (i : Nat) : Dev :=
  if (d.iface i).dhcp ≠ 4 then d else dhcpSend (d.onIf i fun f => { f with dhcp := 5 }) i 3
def dhcpExpiry (d : Dev) (i : Nat) : Dev :=
  let s := (d.iface i).dhcp
  if s = 3 ∨ s = 4 ∨ s = 5 then (if ifUp d i then dhcpDiscover (ifClear d i) i else ifClear d i) else d

/-- An echo request is answered, at most 100 times in one second (Table 17.1). -/
def icmpIn (d : Dev) (i src : Nat) (b : Bytes) : Dev :=
  let f := d.iface i
  let fresh := decide (f.icmpAt + 1000000000 ≤ d.up)
  let n := if fresh then 0 else f.icmpN
  if b.length < 8 ∨ 1480 < b.length ∨ beField b 0 2 ≠ 0x0800 ∨ inetCheck b ≠ 0 ∨ 100 ≤ n then ipDrop d i
  else
    let d := d.onIf i fun f => { f with icmpAt := if fresh then d.up else f.icmpAt, icmpN := n + 1 }
    let r := fun (c : Nat) => [0, 0] ++ beBytes 2 c ++ b.drop 4
    ipSend d i src 1 (r (inetCheck (r 0)))

/-- A UDP datagram of interface `i` from `src`. -/
def udpIn (v : Vault) (d : Dev) (i p t src dst : Nat) (b : Bytes) : Vault × Dev :=
  let n := beField b 4 2
  let port := beField b 2 2
  let pseudo := beBytes 4 src ++ beBytes 4 dst ++ [0, 17] ++ beBytes 2 n
  let drop := (v, ipDrop d i)
  if b.length < 8 ∨ n < 8 ∨ b.length < n ∨ (beField b 6 2 ≠ 0 ∧ inetCheck (pseudo ++ b.take n) ≠ 0) then drop
  else
    let data := slice b 8 (n - 8)
    if port = 68 then (v, dhcpIn d i data)
    else if addrNow d i = 0 then drop
    else if (port = 319 ∨ port = 320) ∧ ptpRuns d p ∧ d.nat O.netPtpTransport = 0 then (v, ptpMessage d p t data)
    else if port = d.nat O.jdpUdpPort ∧ d.on O.jdpUdpEnable then
      receive v d bindUdp (i * 2 ^ 48 + src * 65536 + beField b 0 2) data
    else drop

/-- An IPv4 packet that interface `i` takes. -/
def ipIn (v : Vault) (d : Dev) (i p t : Nat) (b : Bytes) : Vault × Dev :=
  let hl := 4 * (beField b 0 1 % 16)
  let n := beField b 2 2
  let src := beField b 12 4
  let dst := beField b 16 4
  let own := addrNow d i
  let proto := beField b 9 1
  let bcast := dst == 0xFFFFFFFF || (own != 0 && dst == (own ||| (0xFFFFFFFF - ifMask d i)))
  let mine := (own != 0 && dst == own) || bcast || (dst == ptpGroup && (d.iface i).joined)
    || (own == 0 && d.nat O.netIpMode i == 1 && proto == 17)
  let drop := (v, ipDrop d i)
  if b.length < 20 ∨ beField b 0 1 / 16 ≠ 4 ∨ hl < 20 ∨ n < hl ∨ b.length < n ∨ inetCheck (b.take hl) ≠ 0 ∨ beField b 6 2 % 0x4000 ≠ 0 then drop
  else if !mine then drop
  else
    let data := slice b hl (n - hl)
    if proto = 17 then udpIn v d i p t src dst data
    else if own = 0 then drop
    else if proto = 1 then (v, icmpIn d i src data)
    else if proto = 2 ∧ beField data 0 1 = 0x11 ∧ (d.iface i).joined then (v, ptpJoin (d.onIf i fun f => { f with joined := false }) i)
    else drop

/-- ARP (RFC 826). -/
def arpIn (d : Dev) (i : Nat) (b : Bytes) : Dev :=
  let own := addrNow d i
  let smac := beField b 8 6
  let sip := beField b 14 4
  if b.length < 28 ∨ beField b 0 2 ≠ 1 ∨ beField b 2 2 ≠ 0x0800 then ipDrop d i
  else if own = 0 ∨ beField b 24 4 ≠ own then d
  else
    let d := arpFlush (arpLearn d i sip smac) i sip smac
    if beField b 6 2 = 1 then ethSend d i smac 0x0806 (arpPacket 2 (macOf d i) own smac sip) else d

/-! Frames in (R426, R428). -/

/-- The redundancy control trailer of a frame: sequence and LAN. -/
def rctOf (f : Bytes) : Option (Nat × Nat) :=
  let n := f.length
  let lan := beField f (n - 4) 2 / 4096
  if beField f (n - 2) 2 = 0x88FB ∧ (lan = 0xA ∨ lan = 0xB) ∧ 20 ≤ n then some (beField f (n - 6) 2, lan - 0xA) else none

/-- Frames whose pair has not come within the window are counted; `lan` 2 marks a pair. -/
def prpAge (d : Dev) : Dev :=
  let old := d.net.seen.filter fun e => decide (e.at_ + d.nat O.netPrpWindow < d.up)
  let d := d.onNet fun n => { n with seen := n.seen.filter fun e => !decide (e.at_ + d.nat O.netPrpWindow < d.up) }
  (d.bump O.netPrpOnlyA 0 0 (old.countP (·.lan == 0))).bump O.netPrpOnlyB 0 0 (old.countP (·.lan == 1))

/-- R428: whether the frame is delivered, and the device. (PRESUMED, log 37) -/
def prpIn (d : Dev) (src : Nat) (f : Bytes) : Bool × Dev :=
  match rctOf f with
  | none => (true, d)
  | some (seq, lan) =>
    let d := prpAge d
    if d.net.seen.any fun e => e.src == src && e.seq == seq then
      (false, (d.onNet fun n => { n with seen := n.seen.map fun e => if e.src = src ∧ e.seq = seq ∧ e.lan ≠ lan then { e with lan := 2 } else e }).bump
        O.netPrpDupDiscarded)
    else (true, d.onNet fun n => { n with seen := n.seen ++ [⟨src, seq, d.up, lan⟩] })

/-- Addresses that a port takes. -/
def macTaken (d : Dev) (i dst : Nat) : Bool :=
  dst == macOf d i || dst == macAll || dst == ptpMac || dst == groupMac ptpGroup || dst == prpMac || dst == 0x01005E000001

/-- ETH_FRAME: a frame without its check sequence is received on port `p` from tick `t` of the frame; `good`: the PHY and the check
sequence found no error. -/
def ethFrame (v : Vault) (d : Dev) (p t : Nat) (good : Bool) (f : Bytes) : Vault × Dev :=
  let i := ifOf d p
  let tagged := beField f 12 2 == 0x8100
  let vid := beField f 14 2 % 4096
  if !linkUp d p then (v, d)
  else if !good || decide (f.length < 60) || decide (1518 < f.length) || (tagged && vid != d.nat O.netEthVlan p) then (v, d.bump O.netEthRxErrors p)
  else if !macTaken d i (beField f 0 6) then (v, d)
  else
    let d := d.bump O.netEthRxFrames p
    let (new, d) := if prp d then prpIn d (beField f 6 6) f else (true, d)
    let off := if tagged then 16 else 12
    let typ := beField f off 2
    let body := f.drop (off + 2)
    if !new then (v, d)
    else if typ = 0x0800 then ipIn v d i p t body
    else if typ = 0x0806 then (v, arpIn d i body)
    else if typ = 0x88F7 ∧ d.nat O.netPtpTransport = 1 then (v, ptpMessage d p t body)
    else if typ = 0x8808 ∨ typ = 0x88FB then (v, d)
    else (v, d.bump O.netEthRxErrors p)

/-- PRP_SUPERVISION (IEC 62439-3): the frame on both ports. -/
def prpSupervision (d : Dev) : Dev :=
  if !prp d then d
  else
    let d := prpAge d
    let s := d.net.supSeq
    let d := d.onNet fun n => { n with supSeq := (s + 1) % 65536 }
    ethSend d 0 prpMac 0x88FB ([0, 1] ++ beBytes 2 s ++ [20, 6] ++ beBytes 6 (macOf d 0) ++ [0, 0])

/-! CAN ports (R434). -/

/-- Error confinement of ISO 11898-1. -/
def canConfine (d : Dev) (p tec rec_ : Nat) : Dev :=
  let d := (d.setN O.netCanTec (min 255 tec) p).setN O.netCanRec (min 255 rec_) p
  if 255 < tec then (d.setN O.netCanState 3 p).bump O.netCanBusoffs p
  else d.setN O.netCanState (if 127 < tec ∨ 127 < rec_ then 2 else 1) p

/-- CAN_FRAME: a frame without error is received. -/
def canFrame (v : Vault) (d : Dev) (p id : Nat) (extended : Bool) (f : Bytes) : Vault × Dev :=
  let st := d.nat O.netCanState p
  if st = 0 ∨ st = 3 then (v, d)
  else
    let r := d.nat O.netCanRec p
    let d := canConfine d p (d.nat O.netCanTec p) (if 127 < r then 120 else r - 1)
    let base := d.nat O.jdpCanBase
    if extended || decide (id < base) || decide (base + 15 < id) || id % 2 == 1 || !bit (d.nat O.jdpCanEnable) p || f.isEmpty then (v, d)
    else canSegment v d p ((id - base) / 2) f

/-- CAN_BUS_ERROR: an error while this port transmits, or receives; `heavy` where the standard adds 8 to the receive counter. -/
def canBusError (d : Dev) (p : Nat) (transmit heavy : Bool) : Dev :=
  let st := d.nat O.netCanState p
  if st = 0 ∨ st = 3 then d
  else
    let t := d.nat O.netCanTec p
    let r := d.nat O.netCanRec p
    if transmit then canConfine d p (t + 8) r else canConfine d p t (r + if heavy then 8 else 1)

/-- CAN_BUS_OFF_RECOVERY. -/
def canRecover (d : Dev) (p : Nat) : Dev := if d.nat O.netCanState p = 3 then canConfine d p 0 0 else d

end Sys2Proof.Machine
end

