-- ==== Sys2Proof/Machine/Ring.lean ====
section
/-! DEFINITION. Hedgerow frames: cells, headers and packets, as ports receive them, forward them and originate them (R435-R454). -/
namespace Sys2Proof.Machine

/-! Cells (R437, Tables 17.3 and 17.4). -/

def crc16Bit (c : Nat) : Nat := if 0x8000 ≤ c then (2 * c % 65536) ^^^ 0x1021 else 2 * c
def crc16Byte (c : Nat) (b : Byte) : Nat :=
  crc16Bit (crc16Bit (crc16Bit (crc16Bit (crc16Bit (crc16Bit (crc16Bit (crc16Bit (c ^^^ (b.toNat * 256)))))))))
/-- The CRC-16 of R437. -/
def crc16 (b : Bytes) : Nat := b.foldl crc16Byte 0xFFFF

/-- A frame header.  `dir`: 0 A, 1 B, 2 link frame. -/
structure Header where
  dir : Nat
  ring : Nat
  late : Bool
  remote : Bool
  hop : Nat
  nodes : Nat
  epoch : Nat
  mark : Int
  acc : Nat
  deriving DecidableEq, Repr

def headerBytes (h : Header) : Bytes :=
  let b := beBytes 1 (16 + 4 * h.dir) ++ beBytes 1 (32 * h.ring + 16 * b2n h.late + 8 * b2n h.remote) ++ beBytes 1 h.hop
    ++ beBytes 1 h.nodes ++ beBytes 1 h.epoch ++ beBytes 8 (ofSigned 64 h.mark) ++ beBytes 4 h.acc ++ [0, 0, 0, 0]
  b ++ beBytes 4 (crc32c b)
/-- The header of a cell 0; none where its CRC is bad or its version another. -/
def headerOf (c : Bytes) : Option Header :=
  let b := slice c 23 25
  if c.length ≠ 50 ∨ leField c 0 1 ≠ 0xBC ∨ beField b 21 4 ≠ crc32c (b.take 21) ∨ beField b 0 1 / 16 ≠ 1 then none
  else
    let x := beField b 1 1
    some { dir := beField b 0 1 / 4 % 4, ring := x / 32, late := bit x 4, remote := bit x 3, hop := beField b 2 1,
           nodes := beField b 3 1, epoch := beField b 4 1, mark := toSigned 64 (beField b 5 8), acc := beField b 13 4 }

def samplesBytes (l : List Nat) : Bytes := l.flatMap fun v => beBytes 2 v
/-- A cell: collect and final samples, and what follows its CRC, which a forwarding node inverts for a cell that came in bad. -/
def cellBytes (k : Nat) (collect final : List Nat) (good : Bool) (rest : Bytes) : Bytes :=
  let f := samplesBytes collect ++ samplesBytes final
  let c := crc16 f
  (if k = 0 then 0xBC else 0x3C) :: f ++ beBytes 2 (if good then c else 0xFFFF - c) ++ padTo 27 rest
/-- Cell 0: the header and the fill symbols. -/
def headCell (collect final : List Nat) (good : Bool) (h : Header) : Bytes := cellBytes 0 collect final good (headerBytes h ++ [0x7C, 0x7C])
def collectOf (c : Bytes) : List Nat := (List.range 5).map fun j => beField c (1 + 2 * j) 2
def finalOf (c : Bytes) : List Nat := (List.range 5).map fun j => beField c (11 + 2 * j) 2
def cellGood (c : Bytes) : Bool := crc16 (slice c 1 20) == beField c 21 2
/-- Sampling instants of sample `j` of cell `k` (R445). -/
def collectAt (m : Int) (k j : Nat) : Int := m + 200 * k - 200 + 40 * j
def finalAt (m : Int) (k j : Nat) : Int := m + 200 * k - 1400 + 40 * j

/-- In COAST and RELOCK the ports send nothing (Table 18.6). (DEDUCED, log 34) -/
def sendCell (d : Dev) (p k : Nat) (b : Bytes) : Dev := if d.coasting then d else d.onHl fun h => { h with sent := h.sent ++ [(p, k, b)] }

/-! Payload (R448-R450). -/

/-- As many packets from the front of a queue as fit in `room` bytes. -/
def takeFit : Nat → List Bytes → Bytes × List Bytes
  | _, [] => ([], [])
  | room, b :: t =>
    if b.length ≤ room then
      let r := takeFit (room - b.length) t
      (b ++ r.1, r.2)
    else ([], b :: t)

/-- `hl.res_share` or its default. -/
def resShare (d : Dev) : Nat := if d.nat O.hlResShare = 0 then 1800 / (d.nat O.hlNodes - 1) else d.nat O.hlResShare

/-- Own NOTIF and RESULT packets within the credit and within `room` bytes. -/
def takeAwaiting : Nat → Dev → Nat → Bytes → Bytes × Dev
  | 0, d, _, out => (out, d)
  | fuel + 1, d, room, out =>
    match d.hl.awaiting with
    | [] => (out, d)
    | x :: rest =>
      let body := if x.result then leBytes 2 d.hl.droppedRes ++ [0, 0] ++ x.body else leBytes 2 x.aux ++ leBytes 2 d.hl.dropped ++ x.body
      let size := body.length + 12
      if room < size ∨ d.hl.credit < size then (out, d)
      else
        let r := ownPacket d (if x.result then ptResult else ptNotif) 0 (if x.result then x.aux else 0) body
        let d := r.2.onHl fun h => { h with awaiting := rest, credit := h.credit - size,
                                            dropped := if x.result then h.dropped else 0, droppedRes := if x.result then 0 else h.droppedRes }
        takeAwaiting fuel d (room - size) (out ++ r.1)

/-- The payload of the frame that leaves through port `p` next. -/
def composePayload (d : Dev) (p : Nat) : Bytes × Dev :=
  let x := d.port p
  let a := takeFit 1053 x.ctl
  let b := takeFit (1053 - a.1.length) x.transit
  let c := takeFit (1053 - a.1.length - b.1.length) x.dict
  let out := a.1 ++ b.1 ++ c.1
  let d := d.onPort p fun y => { y with ctl := a.2, transit := b.2, dict := c.2 }
  if !d.hl.head && hlSynced d && portFor d 0 == p then takeAwaiting 256 d (1053 - out.length) out else (out, d)

/-! Packets received. -/

/-- A transit packet waits at the port it leaves through, within 8 KiB (R449). -/
def transit (d : Dev) (p : Nat) (b : Bytes) : Dev :=
  let held := ((d.port p).transit.map (·.length)).foldl (· + ·) 0
  if 8192 < held + b.length then d.bump O.hlTransitDropped else d.onPort p fun x => { x with transit := x.transit ++ [b] }

/-- Packets of a class from `n` that never came: the gap in SEQ and the number that the sender dropped (R451). -/
def gapIn (d : Dev) (n typ seq dropped : Nat) : Nat × Dev :=
  let k := n * 8 + typ
  let gap := match tabFind d.hl.seqIn k with | some s => (seq + 65535 - s) % 65536 | none => 0
  (gap + dropped, d.onHl fun h => { h with seqIn := tabPut h.seqIn k seq })
/-- They are counted in the sessions they could have reached. -/
def notifLost (d : Dev) (p : Sub → Bool) (count : Nat) : Dev :=
  if count = 0 then d
  else forUpto 16 (fun k x =>
    if x.sesOpen k && (x.ses k).subs.any p then (x.onSes k fun s => { s with loss := true }).bump O.jdpSesDropped k 0 count else x) d

/-- A subscription that a notification of node `n` answers (Table 14.10). -/
def subMeets (n : Nat) (b : Bytes) (s : Sub) : Bool :=
  let kind := leField b 0 1
  s.node == n && s.kind + 1 == kind && (kind != 4 || (s.index == leField b 12 2 && s.sub == leField b 14 1))

/-- NOTIF_PACKET from node `n` at the head (R451): session mask, dropped count, notification body. -/
def notifPacket (d : Dev) (n seq : Nat) (b : Bytes) : Dev :=
  if !d.hl.head then d
  else
    let x := gapIn d n ptNotif seq (leField b 2 2)
    let d := notifLost x.2 (fun s => s.node == n && s.kind != 0) x.1
    let m := leField b 0 2
    let body := b.drop 4
    forUpto 16 (fun k y =>
      if bit m k && y.sesOpen k && (y.ses k).subs.any (subMeets n body) then
        (y.queueNotif k (leField body 0 1) n 0 (body.drop 12)).1
      else y) d

/-- Entries of a RESULT packet: journal sequence and record. -/
def resultEntries : Nat → Bytes → List (Nat × Bytes)
  | 0, _ => []
  | n + 1, b => if b.length < 72 then [] else (leField b 0 8, slice b 8 64) :: resultEntries n (b.drop 72)
/-- RESULT_PACKET of stream `s` from node `n` at the head (R450, R451). -/
def resultPacket (d : Dev) (n s seq : Nat) (b : Bytes) : Dev :=
  if !d.hl.head then d
  else
    let x := gapIn d n ptResult seq (leField b 0 2)
    let d := notifLost x.2 (fun u => u.node == n && u.kind == 0) x.1
    (resultEntries 14 (b.drop 4)).foldl (fun y e => deliverResult y s n e.1 e.2) d

/-! Control packets. -/

/-- A head stops originating and becomes a member (R439). (DEDUCED, log 35) -/
def resign (d : Dev) : Dev :=
  let d := (ringClear (nodesGone d)).onHl fun h => { h with formed := none }
  sysOff ((((setMembers d 0).setN O.hlState hsSearch).setN O.hlNode 0xFF).setN O.hlNodes 0)

/-- FORM: priority, role and uid of another head. (DESIGN CHOICE, log 36) -/
def formPacket (d : Dev) (prio role uid : Nat) : Dev :=
  let mine := d.nat O.idUid
  if !d.hl.head ∨ uid = mine then d
  else
    let a := [1 - b2n (role == 1), prio, uid]
    let b := [1 - b2n (d.nat O.hlRole == 1), d.nat O.hlPriority, mine]
    if listLt a b then resign d else d

/-- ALIVE at the head: uid, hops in direction A and whether every link delay of the node is measured (R442).
(DESIGN CHOICE, log 36) -/
def alivePacket (d : Dev) (n uid pos links : Nat) : Dev :=
  if !d.hl.head ∨ 64 ≤ n then d
  else
    let other := n == 0 || (tabFind d.hl.alive n).isSome && tabGet uid d.hl.uids n != uid
    if other then
      if d.hl.conflict then d
      else ((d.onHl fun h => { h with conflict := true }).flag O.hlFlags 8).raise 63 0 1 n
    else
      let d := d.onHl fun h => { h with alive := tabPut h.alive n d.up, uids := tabPut h.uids n uid, hops := tabPut h.hops n pos,
                                        linksOk := tabPut h.linksOk n links }
      headCheck (setMembers d (setBit (members d) n))

/-- (DESIGN CHOICE, log 36) -/
def breakPacket (d : Dev) (pos port : Nat) : Dev := if d.hl.head && hlSynced d then headWrapped d pos port else d

/-- (DEDUCED, log 35) -/
def unwrapPacket (d : Dev) (m : Int) : Dev := if d.hl.head then d else d.onHl fun h => { h with unwrapAt := some m }

def lineEntries (l : List (Int × Nat)) : Bytes := l.flatMap fun e => leInt 8 e.1 ++ leBytes 2 e.2
def entriesOf : Nat → Bytes → List (Int × Nat)
  | 0, _ => []
  | n + 1, b => if b.length < 10 then [] else (leFieldI b 0 8, leField b 8 2) :: entriesOf n (b.drop 10)
/-- Entries in packets of at most 103, each with the number of packets that follow it. -/
def sendEntries (d : Dev) (dst : Nat) : Nat → List (Int × Nat) → Dev
  | 0, _ => d
  | n + 1, l => sendEntries (sendCtl d dst 6 (leBytes 1 n ++ lineEntries (l.take 103))) dst n (l.drop 103)

/-- RECOVER_REQUEST at a member: its term at `from_` and its changes since (R447). (DESIGN CHOICE, log 36) -/
def recoverRequest (d : Dev) (from_ : Int) : Dev :=
  if d.hl.head then d
  else
    let l := (from_, termAt d from_) :: d.erm.termLog.filter fun e => decide (from_ < e.1)
    sendEntries d 0 ((l.length + 102) / 103) l

/-- Instants in rising order, each once. -/
def insertInstant (t : Int) : List Int → List Int
  | [] => [t]
  | y :: ys => if t < y then t :: y :: ys else if t = y then y :: ys else y :: insertInstant t ys
/-- Terms of node `n` at instant `s` among the changes recovered. -/
def recoveredAt (l : List (Nat × Int × Nat)) (n : Nat) (s : Int) : Nat :=
  (l.foldl (fun (b : Int × Nat) e => if e.1 = n ∧ e.2.1 ≤ s ∧ b.1 ≤ e.2.1 then e.2 else b) (i64Min, 0xFFFF)).2
/-- Changes of a list of values by instant, after `v`. -/
def changesAfter (v : Nat) : List (Int × Nat) → List (Int × Nat)
  | [] => []
  | e :: t => if e.2 = v then changesAfter v t else e :: changesAfter e.2 t

/-- `erm.sys.absent` counts as long as a node of the ring is not in it (R332). -/
def absentTerm (d : Dev) : Nat :=
  if popCount (members d) 64 < d.nat O.hlNodes then
    forUpto 16 (fun k m => if d.on O.ermSysAbsent k then setBit m k else m) 0
  else 0xFFFF

/-- The head has every member's changes: it delivers those of the lines and sends them to every node (R447). -/
def recoverDone (d : Dev) (from_ : Int) : Dev :=
  let r := d.hl.recovered
  let own := (from_, termAt d from_) :: d.erm.termLog.filter fun e => decide (from_ < e.1)
  let times := (own.map (·.1) ++ r.map (·.2.1)).foldl (fun l t => insertInstant t l) []
  let nodes := (r.map (·.1)).eraseDups
  let line := fun (s : Int) => nodes.foldl (fun v n => v &&& recoveredAt r n s) (termAt d s &&& absentTerm d)
  let l := changesAfter d.hl.lastLines (times.map fun s => (s, line s))
  let last := match l.getLast? with | some e => e.2 | none => d.hl.lastLines
  let d := sysRecover (d.onHl fun h => { h with missing := none, recovered := [], lastLines := last }) l
  staleFollow (sendEntries d dstAll (max 1 ((l.length + 102) / 103)) l)

/-- RECOVER_REPLY: a member's changes at the head, the lines at a member. -/
def recoverReply (d : Dev) (n left : Nat) (l : List (Int × Nat)) : Dev :=
  if d.hl.head then
    match d.hl.missing with
    | none => d
    | some t =>
      if !d.hl.recovering.contains n then d
      else
        let d := d.onHl fun h => { h with recovered := h.recovered ++ l.map (fun e => (n, e.1, e.2)),
                                          recovering := if left = 0 then h.recovering.filter (· != n) else h.recovering }
        if d.hl.recovering = [] then recoverDone d t else d
  else
    let d := sysRecover d l
    if left = 0 then staleFollow (d.onHl fun h => { h with breaking := false }) else d

/-- LINK on port `p`: the marks last sent and received at the other end (R443). -/
def linkPacket (d : Dev) (p sent rcvd : Nat) : Dev :=
  if hlState d = hsOff then d
  else
    let x := d.port p
    let t := ((x.rcvdAt : Int) - x.sentAt) - ((sent : Int) - rcvd)
    let din := t * 200 + roundDiv (d.int O.hlPortAsym p) 2
    headCheck ((d.onPort p fun y => { y with measured := true }).setN O.hlPortDelay din.toNat p)

/-- (DESIGN CHOICE, log 36) -/
def ctlPacket (d : Dev) (src : Nat) (b : Bytes) : Dev :=
  let x := b.drop 4
  match leField b 0 1 with
  | 1 => formPacket d (leField x 0 1) (leField x 1 1) (leField x 2 8)
  | 2 => alivePacket d src (leField x 0 8) (leField x 8 1) (leField x 9 1)
  | 3 => breakPacket d (leField x 1 1) (leField x 0 1)
  | 4 => unwrapPacket d (leFieldI x 0 8)
  | 5 => recoverRequest d (leFieldI x 0 8)
  | 6 => recoverReply d src (leField x 0 1) (entriesOf 103 (x.drop 1))
  | _ => d

/-- A packet for this node, received on port `p`. -/
def packetHere (x : Vault × Dev) (p : Nat) (typ src aux seq : Nat) (b : Bytes) : Vault × Dev :=
  if typ = ptReq then dictReq x.1 x.2 aux b
  else if typ = ptRsp then dictRsp x.1 x.2 src (aux % 16) b
  else (x.1,
    if typ = ptNotif then notifPacket x.2 src seq b
    else if typ = ptResult then resultPacket x.2 src aux seq b
    else if typ = ptCtl then ctlPacket x.2 src b
    else if typ = ptLink then linkPacket x.2 p (leField b 0 8) (leField b 8 8)
    else x.2)

/-- The packet `b` is received on port `p` in a frame that leaves through `out`. -/
def packetIn (x : Vault × Dev) (p : Nat) (out : Option Nat) (b : Bytes) : Vault × Dev :=
  let typ := beField b 0 1
  let dst := beField b 1 1
  let src := beField b 2 1
  let d := x.2
  let run := packetHere x p typ src (beField b 3 1) (beField b 4 2) (slice b 8 (b.length - 12))
  let own := d.node
  let claims := typ == ptCtl && (beField b 8 1 == 1 || beField b 8 1 == 2)
  if dst = dstNeighbour then (if typ = ptLink then run else x)
  else if src = own ∧ !(d.hl.head && claims) then x
  else if d.hl.head then (if dst = 0 ∨ dst = dstAll then run else x)
  else
    let here := dst == dstAll || (dst == own && d.nat O.hlNode != 0xFF)
    let x := if here then run else x
    match out with
    | some o => if dst = dstAll ∨ !here then (x.1, transit x.2 o b) else x
    | none => x

/-- The packets of a frame's payload; one with a bad CRC is discarded. -/
def packetsIn : Nat → Vault × Dev → Nat → Option Nat → Bytes → Vault × Dev
  | 0, x, _, _, _ => x
  | fuel + 1, x, p, out, b =>
    let n := beField b 6 2
    if b.length < 12 ∨ beField b 0 1 = 0 ∨ 1040 < n ∨ b.length < n + 12 then x
    else
      let k := b.take (n + 12)
      let x := if crc32c (k.take (n + 8)) = beField k (n + 8) 4 then packetIn x p out k else x
      packetsIn fuel x p out (b.drop (n + 12))

/-! Frames received. -/

/-- Where a stamp lies: instant of tick `t` and `sd` units of 0.4 ns of the present frame. -/
def stampAt (d : Dev) (t sd : Nat) : Nat := d.up * 5 / 2 + 5 * t + sd

/-- A member takes part in the formation of the header's epoch (R440, R441). (DEDUCED, log 35) -/
def joinForm (d : Dev) (h : Header) : Dev :=
  let d := if d.hl.formed = some h.epoch then d
    else ((ringClear (dropRemote d)).onHl fun x => { x with formed := some h.epoch }).setN O.hlNode 0xFF
  let d := (d.setN O.hlState hsForming).setN O.hlEpoch h.epoch
  sysOff d
/-- In direction A a member takes its number (R441). (DEDUCED, log 35) -/
def takeNumber (d : Dev) (h : Header) : Dev :=
  if h.dir ≠ 0 ∨ d.hl.pos ≠ 0 then d
  else
    let d := d.onHl fun x => { x with pos := h.hop + 1 }
    let n := match d.nat O.hlNumberMode with
      | 0 => h.hop + 1
      | 1 => d.nat O.hlNodeFixed
      | _ => let s := d.nat O.pmuBootStrap; if s = 0xFF then 0 else s
    d.setN O.hlNode n

/-- The member's state under a header (Table 17.5). -/
def followHeader (d : Dev) (h : Header) : Dev :=
  let st := hlState d
  let mine := d.hl.formed == some h.epoch
  let d :=
    if st = hsSearch ∨ st = hsIsolated then (if h.ring = 0 ∨ mine then joinForm d h else (d.setN O.hlState hsHeld).setN O.hlEpoch h.epoch)
    else if mine ∧ st ≠ hsHeld then d
    else if h.ring = 0 then joinForm d h
    else if st = hsHeld then d
    else sysOff ((d.setN O.hlState hsHeld).setN O.hlEpoch h.epoch)
  if hlState d = hsHeld then d
  else
    let d := takeNumber d h
    let was := d.on O.hlLate
    let d := (d.setN O.hlNodes h.nodes).setB O.hlLate h.late
    let d := if h.late && !was then d.flag O.hlFlags 4 else d
    let d := d.onHl fun x => { x with ringState := h.ring }
    let st := hlState d
    let d : Dev :=
      if d.nat O.hlNode = 0xFF then d
      else if h.ring = 1 ∧ (st = hsForming ∨ (st = hsWrapped ∧ d.hl.cut = 0)) then d.setN O.hlState hsSync
      else if h.ring = 2 ∧ (st = hsForming ∨ st = hsSync) then enterWrapped d
      else d
    staleFollow d

/-- A mark as a TOD sample (R444, Table 10.1): the port with fewer hops from the head, direction A on a tie. -/
def markSample (d : Dev) (p : Nat) (h : Header) (t sd : Nat) : Dev :=
  let here := (d.port p).hopIn.getD 0
  let better := match (d.port (1 - p)).hopIn with
    | some o => decide (here < o) || (here == o && p == 1)
    | none => true
  if !hlSynced d || !better then d
  else
    let off := (h.mark * 1000 + h.acc + d.nat O.hlPortDelay p) - ((d.clk + 2 * (t : Int)) * 1000 + 400 * sd)
    let s := d.hl.markSum + off
    if d.hl.markN + 1 < 125 then d.onHl fun x => { x with markSum := s, markN := x.markN + 1 }
    else d.onHl fun x => { x with markSum := 0, markN := 0, markMean := some (roundDiv s 125000) }

/-- The credit grows with each frame of direction A (R450). -/
def creditGrow (d : Dev) (h : Header) : Dev :=
  if h.dir = 0 ∧ hlSynced d then d.onHl fun x => { x with credit := min 1052 (x.credit + resShare d) } else d

/-- Event fields of a cell in direction `dir`: the samples as they are sent on, and whether the cell was good (R445). -/
def eventFields (d : Dev) (k dir : Nat) (m t : Int) (c : Bytes) : List Nat × Bool × Dev :=
  let col := collectOf c
  let fin_ := finalOf c
  if !cellGood c then (col, false, d.bump O.hlEvtErrors)
  else if d.hl.head then
    let put := fun (l : List (Int × Nat × Nat)) (e : Nat × Nat) =>
      let s := collectAt m k e.1
      match l.find? (·.1 == s) with
      | some o => (l.filter (·.1 != s)) ++ [(s, o.2.1 &&& e.2, setBit o.2.2 dir)]
      | none => l ++ [(s, e.2, setBit 0 dir)]
    (col, true, d.onHl fun h => { h with collect := lastN 512 ((List.zip (List.range 5) col).foldl put h.collect) })
  else if hlSynced d then
    let d := (List.zip (List.range 5) fin_).foldl (fun x e => finalIn x (finalAt m k e.1) e.2 t) d
    ((List.zip (List.range 5) col).map (fun e => e.2 &&& termAt d (collectAt m k e.1)), true, d)
  else (col, true, d)

/-- The head's own frame returns. -/
def frameBack (d : Dev) (p : Nat) (h : Header) : Dev :=
  if d.nat O.hlEpoch ≠ h.epoch then d
  else
    let d := d.onPort p fun x => { x with hopIn := some h.hop, pathIn := h.acc + d.nat O.hlPortDelay p }
    let r := d.hl.recalc
    let d := d.onHl fun x => { x with recalc := clrBit x.recalc h.dir }
    headCheck (if r ≠ 0 ∧ d.hl.recalc = 0 then circuit d else d)

/-- Cell 0 of a frame without a good header (R438). -/
def badHead (d : Dev) (p : Nat) : Dev :=
  let n := (d.port p).bad + 1
  let d := (d.onPort p fun x => { x with bad := n, good := 0, rx := {} }).bump O.hlPortBad p
  if 3 ≤ n then portDown d p else d

/-- A good header: the port's counts and state, and the far end's view of it (R438). -/
def goodHead (d : Dev) (p stamp : Nat) (h : Header) : Dev :=
  let was := d.nat O.hlPortState p
  let n := min 16 ((d.port p).good + 1)
  let r := if h.remote then (d.port p).remote + 1 else 0
  let d := d.onPort p fun x => { x with good := n, bad := 0, remote := min 3 r, txDown := decide (3 ≤ r), rcvdAt := stamp, rx := {} }
  let d := if was ≠ 0 ∨ 16 ≤ n then d.setN O.hlPortState (if h.dir = 2 then 1 else 2) p else d
  let d := if was = 0 ∧ 16 ≤ n then formIfHead d else d
  if 3 ≤ r then loopBack d p else d

/-- A ring frame at a member is sent on: its cell 0, and the payload that will follow it. -/
def forwardHead (d : Dev) (p stamp fwd t : Nat) (h : Header) (c : Bytes) : Dev :=
  let out := if bit d.hl.cut (1 - p) then p else 1 - p
  let held := hlState d == hsHeld
  let x := eventFields d 0 h.dir h.mark (d.clk + 2 * (t : Int)) c
  let y := if held then (([] : Bytes), x.2.2) else composePayload x.2.2 out
  let d := y.2
  let h' := { h with hop := if held then h.hop else h.hop + 1, acc := h.acc + d.nat O.hlPortDelay p + 400 * fwd,
                     remote := d.nat O.hlPortState out == 0 }
  let d := sendCell d out 0 (headCell x.1 (finalOf c) x.2.1 h')
  let d := d.onPort out fun q => { q with sentAt := stamp + fwd }
  d.onPort p fun q => { q with rx := { ok := true, cell := 1, dir := h.dir, mark := h.mark, out := some out, payOut := y.1 } }

/-- Cell 0 arrives at tick `t` and `sd` units of 0.4 ns on port `p`; `fwd` is the forwarding delay in such units. -/
def headIn (d : Dev) (p t sd fwd : Nat) (c : Bytes) : Dev :=
  let stamp := stampAt d t sd
  match headerOf c with
  | none => badHead d p
  | some h =>
    let d := goodHead d p stamp h
    let begin_ := fun (x : Dev) => x.onPort p fun q => { q with rx := { ok := true, cell := 1, dir := h.dir, mark := h.mark } }
    if d.nat O.hlPortState p = 0 then d
    else if h.dir = 2 then begin_ d
    else if d.hl.head then begin_ (frameBack (eventFields d 0 h.dir h.mark (d.clk + 2 * (t : Int)) c).2.2 p h)
    else
      let d := followHeader d h
      let d := d.onPort p fun q => { q with hopIn := some h.hop, pathIn := h.acc + d.nat O.hlPortDelay p }
      forwardHead (creditGrow (markSample d p h t sd) h) p stamp fwd t h c

/-- A later cell; after the last one the frame's packets are taken. (DEDUCED, log 34) -/
def cellIn (x : Vault × Dev) (p k t : Nat) (c : Bytes) : Vault × Dev :=
  let d := x.2
  let r := (d.port p).rx
  if !r.ok ∨ r.cell ≠ k ∨ c.length ≠ 50 ∨ leField c 0 1 ≠ 0x3C then x
  else
    let e := if r.dir = 2 then (collectOf c, true, d) else eventFields d k r.dir r.mark (d.clk + 2 * (t : Int)) c
    let d := e.2.2
    let d : Dev := match r.out with
      | some o => sendCell d o k (cellBytes k e.1 (finalOf c) e.2.1 (if hlState d = hsHeld then slice c 23 27 else slice r.payOut (27 * (k - 1)) 27))
      | none => d
    let pay := r.payIn ++ slice c 23 27
    if k = 39 then packetsIn 128 (x.1, d.onPort p fun q => { q with rx := {} }) p (if hlState d = hsHeld then none else r.out) pay
    else (x.1, d.onPort p fun q => { q with rx := { r with cell := k + 1, payIn := pay } })

/-- HL_FRAME: cells of a frame from number `first` on arrive at port `p` from tick `t` on. -/
def hlFrame (v : Vault) (d : Dev) (p t sd fwd first : Nat) (cells : List Bytes) : Vault × Dev :=
  if hlState d = hsOff then (v, d)
  else (List.zip (List.range cells.length) cells).foldl (fun x e =>
    let k := first + e.1
    if k = 0 then (x.1, headIn x.2 p t sd fwd e.2) else cellIn x p k (t + 100 * e.1) e.2) (v, d)

/-- HL_PORT_DOWN: the frames still missing to three are missed in a row. -/
def hlPortDown (d : Dev) (p : Nat) : Dev :=
  if hlState d = hsOff ∨ d.nat O.hlPortState p = 0 then d
  else portDown ((d.bump O.hlPortBad p 0 (3 - (d.port p).bad)).onPort p fun x => { x with bad := 3 }) p

/-! Frames originated. -/

/-- Line values for instant `s` (R445): both copies in a wrapped ring, either in an unbroken one. -/
def lineValue (d : Dev) (s : Int) : Option Nat :=
  match d.hl.collect.find? (·.1 == s) with
  | some (_, v, m) => if hlState d = hsWrapped ∧ m ≠ 3 then none else some v
  | none => none
/-- The final samples of cell `k`: while changes are being recovered, and where no copy returned, the lines hold. -/
def finalSamples (d : Dev) (m : Int) (k : Nat) : List Nat × Dev :=
  (List.range 5).foldl (fun (x : List Nat × Dev) j =>
    let s := finalAt m k j
    let d := x.2
    match (if d.hl.missing.isSome then none else lineValue d s) with
    | some v => (x.1 ++ [v], d.onHl fun h => { h with lastLines := v, given := s })
    | none => (x.1 ++ [d.hl.lastLines], if d.hl.missing.isSome then d else d.onHl fun h => { h with given := s })) ([], d)

/-- The port through which the head sends direction `dir`. -/
def outPort (d : Dev) (dir : Nat) : Nat := if bit d.hl.cut dir then 1 - dir else dir

/-- The head begins the frame of the present mark in both directions (R436). -/
def startFrame (d : Dev) (t : Nat) : Dev :=
  let m := ((d.clk + 2 * (t : Int)) / 8000) * 8000
  let d := if hlState d = hsForming then
      sendCtl d dstAll 1 (leBytes 1 (d.nat O.hlPriority) ++ leBytes 1 (d.nat O.hlRole) ++ leBytes 8 (d.nat O.idUid)) else d
  let a := composePayload d (outPort d 0)
  let b := composePayload a.2 (outPort d 1)
  let d := b.2.onHl fun h => { h with cell := 0, mark := m, pay := a.1, payB := b.1 }
  forUpto 2 (fun dir x => x.onPort (outPort x dir) fun q => { q with sentAt := stampAt x t 0 }) d

/-- Cell `k` of the frame leaves at time `t`. -/
def originateCell (d : Dev) (k : Nat) (t : Int) : Dev :=
  let m := d.hl.mark
  let col := (List.range 5).map fun j => termAt d (collectAt m k j) &&& absentTerm d
  let f := if hlSynced d then finalSamples d m k else (List.replicate 5 0, d)
  let d := f.2
  let d := if hlSynced d then (List.zip (List.range 5) f.1).foldl (fun x e => finalIn x (finalAt m k e.1) e.2 t) d else d
  let d := forUpto 2 (fun dir x =>
    let p := outPort x dir
    let h : Header := { dir := dir, ring := x.hl.ringState, late := x.on O.hlLate, remote := x.nat O.hlPortState p == 0, hop := 0,
                        nodes := x.nat O.hlNodes, epoch := x.nat O.hlEpoch, mark := m, acc := 0 }
    let pay := if dir = 0 then x.hl.pay else x.hl.payB
    sendCell x p k (if k = 0 then headCell col f.1 true h else cellBytes k col f.1 true (slice pay (27 * (k - 1)) 27))) d
  d.onHl fun h => { h with cell := k + 1 }

/-- HL_FRAME_ORIGINATE: `n` cells from number `first` on, from tick `t` on. -/
def hlOriginate (d : Dev) (t first n : Nat) : Dev :=
  let st := hlState d
  if !d.hl.head ∨ (st ≠ hsForming ∧ !hlSynced d) then d
  else
    let d := if first = 0 then startFrame d t else d
    (List.range n).foldl (fun x j =>
      let k := first + j
      if x.hl.cell = k ∧ k < 40 then originateCell x k (x.clk + 2 * (t : Int) + 200 * (j : Int)) else x) d

/-- A port has no ring frames to send on: it sends link frames (R438). -/
def sendsLink (d : Dev) (p : Nat) : Bool :=
  let st := hlState d
  st != hsOff && (st == hsSearch || st == hsIsolated || bit d.hl.cut p || (!d.hl.head && d.nat O.hlPortState (1 - p) != 2))

/-- LINK_FRAME_ORIGINATE on port `p`. -/
def hlLinkFrame (d : Dev) (p t sd : Nat) : Dev :=
  if !sendsLink d p then d
  else
    let a := takeFit 1053 ((d.port p).ctl.filter fun b => beField b 1 1 = dstNeighbour)
    let d := d.onPort p fun q => { q with ctl := a.2 ++ q.ctl.filter (fun b => beField b 1 1 ≠ dstNeighbour), sentAt := stampAt d t sd }
    let m := d.clk + 2 * (t : Int)
    let h : Header := { dir := 2, ring := 0, late := false, remote := d.nat O.hlPortState p == 0, hop := 0, nodes := 0,
                        epoch := d.nat O.hlEpoch, mark := m, acc := 0 }
    let z := List.replicate 5 0
    forUpto 40 (fun k x => sendCell x p k (if k = 0 then headCell z z true h else cellBytes k z z true (slice a.1 (27 * (k - 1)) 27))) d

/-! What a node sends by itself. -/

/-- ALIVE_SEND. -/
def aliveSend (d : Dev) : Dev :=
  let st := hlState d
  if d.hl.head ∨ d.nat O.hlNode = 0xFF ∨ (st ≠ hsForming ∧ !hlSynced d) then d
  else
    let ok := (d.port 0).measured && (d.port 1).measured
    sendCtl d 0 2 (leBytes 8 (d.nat O.idUid) ++ leBytes 1 d.hl.pos ++ leBytes 1 (b2n ok))
/-- LINK_SEND on port `p`. -/
def linkSend (d : Dev) (p : Nat) : Dev :=
  if hlState d = hsOff ∨ hlState d = hsHeld then d
  else
    let x := ownPacket d ptLink dstNeighbour 0 (leBytes 8 (d.port p).sentAt ++ leBytes 8 (d.port p).rcvdAt)
    queueOn x.2 p false x.1
/-- NODE_LEFT: node `n` has been silent for 3 ms (R442). -/
def nodeLeft (d : Dev) (n : Nat) : Dev := if !d.hl.head ∨ n = 0 ∨ !bit (members d) n then d else nodeGone d n

/-! Unwrap (R453). -/

/-- HL_REVERT_HOLD: UNWRAP with a mark at least 1 ms ahead. -/
def hlRevertHold (d : Dev) : Dev :=
  if !d.hl.head ∨ hlState d ≠ hsWrapped then d
  else
    let m := ((d.clk + 1000000 + 7999) / 8000) * 8000
    sendCtl (d.onHl fun h => { h with unwrapAt := some m }) dstAll 4 (leInt 8 m)

/-- HL_UNWRAP_MARK: the mark named has come. -/
def unwrapMark (d : Dev) : Dev :=
  match d.hl.unwrapAt with
  | none => d
  | some _ =>
    let d := d.onHl fun h => { h with unwrapAt := none }
    if hlState d ≠ hsWrapped then d
    else
      let down := (List.range 2).find? fun p => bit d.hl.cut p && !portUp d p
      match down with
      | some p => if d.hl.head then d else sendCtl d 0 3 (leBytes 1 p ++ leBytes 1 d.hl.pos)
      | none =>
        if d.hl.head then
          askRecover ((d.onHl fun h => { h with cut := 0, ringState := 1, breaks := [], recalc := 3 }).setN O.hlState hsSync)
        else if d.hl.cut = 0 then d
        else staleFollow ((d.onHl fun h => { h with cut := 0 }).setN O.hlState hsSync)

end Sys2Proof.Machine
end

