-- ==== Sys2Proof/Machine/Frame.lean ====
section
/-! DEFINITION. The controller frame (R38): every unit that acts once in 500 ns. -/
namespace Sys2Proof.Machine

/-- Time at the start of the next frame: phase, time of day, frame number, uptime (R72, R276, R286).
(DESIGN CHOICE, log 65) -/
def frameClock (d : Dev) (tick : Nat) : Dev :=
  let d := ctbFrame d
  let was := d.up
  let d := rtcRun (todFrame { d with up := was + 500, frame := d.frame + 1 } tick was) was
  { d with tods := ((d.tod.t * (2 : Int) ^ 32 + d.tod.tf) :: d.tods).take 64 }

/-- The lanes in ascending order with the phase of the frame, the sequencers' values and the outer channels that are due.
(DESIGN CHOICE, log 65; DEDUCED, log 90) -/
def frameLanes (d : Dev) : Dev :=
  let F := d.frame
  let snap := ctbSnapshot d
  let outers := outersDue d F
  forUpto 12 (fun n x => laneFrame snap (seqDeliver F) outers F n (laneTry x n)) d

/-- CONTROLLER_FRAME; `tick` is the length of a tick in ps that HRC measures, for COAST and RELOCK.
(DESIGN CHOICE, log 65) -/
def controllerFrame (d : Dev) (tick : Nat) : Dev :=
  if d.nat O.devState = 6 then d
  else
    let d := driftFrame (frameClock d tick)
    let d := calFrame (poolFullFrame (cascadeSweep (frameLanes (seqFrame d d.frame))))
    if d.frame % 20 = 0 then forUpto 96 (fun n x => statusFollow x n) d else d

end Sys2Proof.Machine
end

