-- ==== Sys2Proof/Machine/Requests.lean ====
section
/-! DEFINITION. What the commands that name an object, or stand for a message of a client, are made of: the object of each field,
the bodies of the dictionary protocol (Tables 14.5 and 14.7), writes under a role, and reads. -/
namespace Sys2Proof.Machine

/-! The object of each field. -/

def limitObj : LimitField → Obj
  | .vPos => O.chLimitVPos | .vNeg => O.chLimitVNeg | .iPos => O.chLimitIPos | .iNeg => O.chLimitINeg | .absCount => O.chLimitAbsCount

def rangeObj : RangeField → Obj
  | .iFloor => O.chRngIFloor | .iCeil => O.chRngICeil | .iPin => O.chRngIPin
  | .vFloor => O.chRngVFloor | .vCeil => O.chRngVCeil | .vPin => O.chRngVPin
  | .upPct => O.chRngUpPct | .downPct => O.chRngDownPct | .downDwell => O.chRngDownDwell | .downGuard => O.chRngDownGuard
  | .armTime => O.chRngArmTime | .stitchPct => O.chRngStitchPct | .stitchTol => O.chRngStitchTol | .gapPolicy => O.chRngGapPolicy
  | .restartMax => O.chRngRestartMax | .predHi => O.chRngPredHi | .predLo => O.chRngPredLo | .predBand => O.chRngPredBand
  | .predHold => O.chRngPredHold

def guardObj : GuardField → Obj
  | .kind => O.seqGuardKind | .check => O.seqGuardCheck | .position => O.seqGuardAt | .line => O.seqGuardLine
  | .level => O.seqGuardLevel | .avg => O.seqGuardAvg | .fallback => O.seqGuardFallback | .emit => O.seqGuardEmit

def tinObj : TinField → Obj
  | .thresh => O.tiuInThresh | .hyst => O.tiuInHyst | .slope => O.tiuInSlope

def lutObj : LutField → Obj
  | .ff => O.ermLutFf | .filter => O.ermLutFilter | .clk => O.ermLutClk

def bindingObj : BindingField → Obj
  | .udpPort => O.jdpUdpPort | .udpEnable => O.jdpUdpEnable | .canEnable => O.jdpCanEnable | .spiEnable => O.jdpSpiEnable

/-- (DEDUCED, log 11) -/
def ctbObj : CtbField → Obj
  | .src => O.ctbSrc | .tin => O.ctbTin | .mon => O.ctbMon | .cpr => O.ctbEncCpr

def addressObj : AddressField → Obj
  | .prpMode => O.netPrpMode | .ipMode => O.netIpMode | .ipAddr => O.netIpAddr | .ipMask => O.netIpMask

def leapObj : LeapField → Obj
  | .instant => O.todLeapAt | .dir => O.todLeapDir

def calObj : CalField → Obj
  | .chan _ => O.chCalBlock | .sam => O.calSam | .axd => O.calAxd | .tiu => O.calTiu
def calUnit : CalField → Nat
  | .chan n => n | _ => 0

/-! Writes that name no session: one object, with its bytes or its number. -/

/-- The outcome of a write as the command leaves it: the abort, or the state after it. -/
def written (v : Vault) (d : Dev) (r : Except (Nat × Abort) (Vault × Dev)) : Vault × Dev :=
  match r with
  | .ok s => (s.1, { s.2 with jdp := { s.2.jdp with resp := {} } })
  | .error e => (v, { d with jdp := { d.jdp with resp := { code := e.2.code, detail := e.2.detail } } })

/-- One object, given as its bytes, or as the bytes at an offset of a DOMAIN object. (DESIGN CHOICE, log 18) -/
def bytesWrite (v : Vault) (d : Dev) (who : Who) (l : Loc) (off : Option Nat) (b : Bytes) : Vault × Dev :=
  let x : Staged := { index := l.o.idx, sub := l.o.sub, typ := tyCode l.o.ty, data := b, offset := off }
  written v d (
    if who.role < writeRole who l then .error (0, ⟨aRole, writeRole who l⟩)
    else if !writeLength d l off b then .error (0, ⟨aLength, maxLenOf l.o⟩)
    else writeParts v d who (itemParts 0 l x))

/-- One object with one number, written by a session of role `role`. (DESIGN CHOICE, log 18) -/
def roleWrite (v : Vault) (d : Dev) (role : Nat) (p : Part) : Vault × Dev :=
  let who : Who := { role := role }
  written v d (if role < writeRole who p.l then .error (0, ⟨aRole, writeRole who p.l⟩) else writeParts v d who [p])

/-! Reads that name no session. -/

/-- The answer of a read is left in `jdp.resp`. -/
def readAnswer (d : Dev) (r : Except Abort (Nat × Bytes × Dev)) : Dev :=
  match r with
  | .ok x => { x.2.2 with jdp := { x.2.2.jdp with resp := { body := typed x.1 x.2.1 } } }
  | .error a => { d with jdp := { d.jdp with resp := { code := a.code, detail := a.detail } } }
def roleRead (v : Vault) (d : Dev) (who : Who) (index sub : Nat) : Dev := 
  let d := touchAt d who index sub
  readAnswer d (readAt v d who false index sub)
def readHere (v : Vault) (d : Dev) (who : Who) (l : Loc) : Dev :=
  let d := readTouch d who l 0 1020
  readAnswer d (readObj v d who false l)

/-! Bodies of requests (Table 14.5). -/

def itemBytes (x : Item) : Bytes := addrBytes x.addr ++ leBytes 1 x.typ ++ [0] ++ leBytes 2 x.data.length ++ x.data
def countBytes (n : Nat) : Bytes := leBytes 1 n ++ [0, 0, 0]
def lockBody (node lease : Nat) (l : List (Nat × Nat)) : Bytes :=
  leBytes 1 node ++ leBytes 1 l.length ++ [0, 0] ++ leBytes 4 lease ++ l.flatMap fun r => leBytes 2 r.1 ++ leBytes 2 r.2
def subBody (action kind : Nat) (a : Addr) : Bytes :=
  leBytes 1 action ++ leBytes 1 kind ++ leBytes 1 a.node ++ leBytes 1 a.sub ++ leBytes 2 a.index ++ [0, 0]
def blockBody (dir : Nat) (a : Addr) (off len : Nat) (data : Bytes) : Bytes :=
  addrBytes a ++ leBytes 1 dir ++ [0] ++ leBytes 2 len ++ leBytes 4 off ++ data

/-- The body of RESYNC (Table 14.7). -/
def resyncBody (mode role keyId seen : Nat) (nonce : Bytes) (timeout : Nat) : Bytes :=
  leBytes 1 mode ++ leBytes 1 role ++ leBytes 1 keyId ++ [0] ++ leBytes 4 seen ++ padTo 16 nonce ++ leBytes 2 timeout ++ [0, 0]

/-- OPEN and REJOIN come from a client that holds the key they name. -/
def keyRequest (v : Vault) (d : Dev) (binding src sid key : Nat) (body : Bytes) : Vault × Dev :=
  if !served d binding then (v, d)
  else
    let head : Bytes := [0x10, 0x0B] ++ leBytes 2 sid ++ List.replicate 12 0
    let k := match v.key key with | some r => r.key | none => []
    resyncMessage v d binding src sid 0 head body ((hmacSha256 k (head ++ body)).take 16)
def openRequest (v : Vault) (d : Dev) (binding src key role timeout : Nat) (nonce : Bytes) : Vault × Dev :=
  keyRequest v d binding src 0 key (resyncBody 0 role key 0 nonce timeout)
/-- REJOIN of the session in slot `k`, on the binding it was opened on. -/
def rejoinRequest (v : Vault) (d : Dev) (k src key seen timeout : Nat) (nonce : Bytes) : Vault × Dev :=
  keyRequest v d (sesBinding d k) src (d.nat O.jdpSesId k) key (resyncBody 1 (sesRole d k) key seen nonce timeout)

/-! Others. -/

/-- MIRROR_REFRESH: the mirrors are copied, awaited answers are asked for again, and host SPI messages are taken. -/
def refreshAll (v : Vault) (d : Dev) : Vault × Dev := takeInbound v (askAgain (mirrorRefresh v d))

/-- The stamp of the edge that consumer input `c` saw in the last cycle; the present instant where it saw none.
(DESIGN CHOICE, log 66) -/
def edgeStamp (d : Dev) (c : Nat) : Int := ((d.erm.edges.find? fun e => e.1 == c).map (·.2)).getD d.clk

/-- JTAG_TAP_RESET (R573). (DEDUCED, log 43) -/
def tapReset (d : Dev) : Dev := d.setN O.dbgAttached 0

end Sys2Proof.Machine
end

