-- ==== Sys2Proof/Machine/Shipped.lean ====
section
/-! DEFINITION. The part as it leaves the factory, with VDD_AON just applied (R485, R545): what its keys partition holds, and the
controller under power-on reset. -/
namespace Sys2Proof.Machine

/-- Slot 0 holds an OWNER key unique to the part (R545).
DESIGN CHOICE: the key is 32 zero bytes, and the firmware public keys and kj, of which the specification gives no value, are zero
and empty. (DESIGN CHOICE, log 4; DESIGN CHOICE, log 5) -/
def shippedVault : Vault :=
  { keys := (Vector.replicate 16 none).setIfInBounds 0 (some ⟨.owner, List.replicate 32 0⟩) }

/-- Every object at its default, PD0 alone carrying power, RESET_N filter in POWERUP, the device in BOOT under a held reset.
(DESIGN CHOICE, log 3) -/
def shippedDev : Dev :=
  ((({} : Dev).setN O.pmuPdState 1).setN O.pmuResetPin 0).setN O.jrnSeqNext 1

end Sys2Proof.Machine
end

