-- ==== Sys2Proof/Machine/State.lean ====
section
/-! DEFINITION. The state of the block: the commands that wait, the keys partition, and the device. -/
namespace Sys2Proof.Machine

structure State where
  /-- Commands that wait, first in, first out. -/
  pending : List Instr := []
  /-- The keys partition of MRAM. -/
  vault : Vault
  /-- Everything else. -/
  dev : Dev
  deriving DecidableEq, Repr

/-- No command of the table stops the block: the specification gives each an effect, be it an abort or a discarded message. -/
inductive Fault where
  deriving DecidableEq, Repr

inductive Refusal where
  /-- Raised by `exec` for a command that has no meaning yet; no arm raises it.  Safe: nothing follows. -/
  | notModelled (mnemonic : String)
  deriving DecidableEq, Repr

/-- VDD_AON has just been applied to a part as shipped, and no command waits (R485). -/
def State.reset : State := { vault := shippedVault, dev := shippedDev }

end Sys2Proof.Machine
end

