-- ==== Sys2Proof/Machine/Run.lean ====
section
/-! DEFINITION. How a command's operation acts on the state.  Each begins with nothing sent: `jdp.sent`, `net.sent` and `hl.sent`
list what the command sends. -/
namespace Sys2Proof.Machine

abbrev Result := Host.Outcome State Fault Refusal

/-- Nothing sent yet. -/
def Dev.quietOut (d : Dev) : Dev :=
  { d with jdp := { d.jdp with sent := [] }, net := { d.net with sent := [] }, hl := { d.hl with sent := [] } }

/-- The state with a keys partition and a device. -/
def State.become (s : State) (x : Vault × Dev) : State := { s with vault := x.1, dev := x.2 }

/-- An operation on the device. (DESIGN CHOICE, log 1) -/
def run (s : State) (f : Vault → Dev → Dev) : Result := .next { s with dev := f s.vault s.dev.quietOut }
/-- An operation that may also change the keys partition. (DESIGN CHOICE, log 1) -/
def runBoth (s : State) (f : Vault → Dev → Vault × Dev) : Result := .next (s.become (f s.vault s.dev.quietOut))
/-- An operation after which awaited sessions are settled and messages leave through the networks.
(DESIGN CHOICE, log 1) -/
def runNet (s : State) (f : Vault → Dev → Vault × Dev) : Result :=
  let x := f s.vault s.dev.quietOut
  let y := settle x.1 x.2
  .next (s.become (y.1, flushOut y.2))

end Sys2Proof.Machine
end

