-- ==== Sys2Proof/Machine/ExecAnalog.lean ====
section
/-! DEFINITION. The meanings of the commands of the analog monitors and the auxiliary drivers. -/
namespace Sys2Proof.Machine

/-- SAM_CONVERSION (R338). A conversion leaves the SAM pipeline and is calibrated and accumulated. -/
def execSamConversion (k : Fin 2) (uV : Int) (vref : Nat) (s : State) : Result := run s fun _ d => samConversion d k.val uV vref
/-- SAM_RESTART (R345). sam.cmd RESTART restarts every entry of the converter. -/
def execSamRestart (k : Fin 2) (s : State) : Result := runBoth s fun v d => ownerWrite v d [part1 O.samCmd 1 k.val]
/-- SAM_ENTRY_WRITE (R345). A write of an entry word takes effect at the entry's next slot and restarts it. -/
def execSamEntryWrite (e : Fin 64) (value : Nat) (s : State) : Result :=
  runBoth s fun v d => ownerWrite v d [part1 O.samECfg value e.val]
/-- SAM_CAL_ZERO (R352). sam.cal.cmd ZERO starts the zero measurement. -/
def execSamCalZero (s : State) : Result := runBoth s fun v d => ownerWrite v d [part1 O.samCalCmd 1]
/-- SAM_CAL_SPAN (R352). sam.cal.cmd SPAN starts the span measurement. -/
def execSamCalSpan (s : State) : Result := runBoth s fun v d => ownerWrite v d [part1 O.samCalCmd 2]
/-- SAM_CAL_COMPUTE (R352). sam.cal.cmd COMPUTE writes gain and offset to the calibration set. -/
def execSamCalCompute (role : Fin 4) (s : State) : Result := runBoth s fun v d => roleWrite v d role.val (part1 O.samCalCmd 3)
/-- SAM_CAL_ABORT (R352). sam.cal.cmd ABORT ends the procedure ABORTED. -/
def execSamCalAbort (s : State) : Result := runBoth s fun v d => ownerWrite v d [part1 O.samCalCmd 4]
/-- AXD_ARM (R355). axd.cmd ARM arms an output queue. -/
def execAxdArm (k : Fin 4) (s : State) : Result := runBoth s fun v d => ownerWrite v d [part1 O.axdCmd 1 k.val]
/-- AXD_START (R355). axd.cmd START starts the output and sets the grid origin. -/
def execAxdStart (k : Fin 4) (s : State) : Result := runBoth s fun v d => ownerWrite v d [part1 O.axdCmd 2 k.val]
/-- AXD_STOP (R355). axd.cmd STOP holds u and returns to IDLE. -/
def execAxdStop (k : Fin 4) (s : State) : Result := runBoth s fun v d => ownerWrite v d [part1 O.axdCmd 3 k.val]
/-- AXD_STEP (R355). axd.cmd STEP pops the FIFO in step mode. -/
def execAxdStep (k : Fin 4) (s : State) : Result := runBoth s fun v d => ownerWrite v d [part1 O.axdCmd 4 k.val]
/-- AXD_FLUSH (R356). axd.cmd FLUSH empties the FIFO. -/
def execAxdFlush (k : Fin 4) (s : State) : Result := runBoth s fun v d => ownerWrite v d [part1 O.axdCmd 5 k.val]
/-- AXD_PUSH (R356). A write of axd.push appends values to the FIFO. -/
def execAxdPush (k : Fin 4) (b : Bytes) (s : State) : Result :=
  runBoth s fun v d => bytesWrite v d {} ⟨O.axdPush, k.val, 0⟩ none b
/-- AXD_TABLE (R356). A write of axd.table fills all 256 entries. -/
def execAxdTable (k : Fin 4) (b : Bytes) (s : State) : Result :=
  runBoth s fun v d => bytesWrite v d {} ⟨O.axdTable, k.val, 0⟩ none b
/-- AXD_LEVEL (R355). A write of axd.level sets u in static mode. -/
def execAxdLevel (k : Fin 4) (value : Nat) (s : State) : Result :=
  runBoth s fun v d => ownerWrite v d [part1 O.axdLevel value k.val]
/-- AXD_SAMPLE (R356). An output sample instant pops or steps the queue. -/
def execAxdSample (k : Fin 4) (c : Fin 50) (s : State) : Result := run s fun _ d => axdSample d k.val c.val

end Sys2Proof.Machine
end

