-- ==== Sys2Proof/Machine/ExecCalibration.lean ====
section
/-! DEFINITION. The meanings of the commands of calibration. -/
namespace Sys2Proof.Machine

/-- ADOPT (R543). ch.cal.cmd ADOPT writes the attached slice serial into the block. -/
def execAdopt (n : Fin 96) (role : Fin 4) (s : State) : Result :=
  runBoth s fun v d => roleWrite v d role.val (part1 O.chCalCmd 1 n.val)
/-- CAL_BLOCK_WRITE (R542). A whole-value write of a calibration block is checked and applied. -/
def execCalBlockWrite (block : CalField) (role : Fin 4) (b : Bytes) (s : State) : Result :=
  runBoth s fun v d => bytesWrite v d { role := role.val } ⟨calObj block, calUnit block, 0⟩ none b
/-- CAL_TAG_WRITE (R542). A write of ch.cal.tag changes the block's tag. -/
def execCalTagWrite (n : Fin 96) (role : Fin 4) (tag : Nat) (s : State) : Result :=
  runBoth s fun v d => roleWrite v d role.val (part1 O.chCalTag tag n.val)
/-- CAL_ZERO (R544). cal.ch.cmd ZERO starts the zero point measurement. -/
def execCalZero (role : Fin 4) (s : State) : Result := runBoth s fun v d => roleWrite v d role.val (part1 O.calChCmd 1)
/-- CAL_MID (R544). cal.ch.cmd MID starts the mid point measurement. -/
def execCalMid (role : Fin 4) (s : State) : Result := runBoth s fun v d => roleWrite v d role.val (part1 O.calChCmd 2)
/-- CAL_SPAN (R544). cal.ch.cmd SPAN starts the span point measurement. -/
def execCalSpan (role : Fin 4) (s : State) : Result := runBoth s fun v d => roleWrite v d role.val (part1 O.calChCmd 3)
/-- CAL_COMPUTE (R544). cal.ch.cmd COMPUTE derives and writes the entry. -/
def execCalCompute (role : Fin 4) (s : State) : Result := runBoth s fun v d => roleWrite v d role.val (part1 O.calChCmd 4)
/-- CAL_OUT (R544). cal.ch.cmd OUT starts the output calibration. -/
def execCalOut (role : Fin 4) (s : State) : Result := runBoth s fun v d => roleWrite v d role.val (part1 O.calChCmd 5)
/-- CAL_ABORT (R544). cal.ch.cmd ABORT, or leaving the channel state, fails the procedure. -/
def execCalAbort (role : Fin 4) (s : State) : Result := runBoth s fun v d => roleWrite v d role.val (part1 O.calChCmd 6)
/-- CAL_MEASURE_DONE (R544). The cal.ch.frames average of a calibration point completes. -/
def execCalMeasureDone (s : State) : Result := run s fun _ d => calMeasureDone d

end Sys2Proof.Machine
end

