-- ==== Sys2Proof/Machine/ExecChannel.lean ====
section
/-! DEFINITION. The meanings of the commands of channels: cascades, repetitive control, traces, limits, ranges, apertures and results. -/
namespace Sys2Proof.Machine

/-- CHANNEL_ENABLE (R405). A write of 1 to ch.enable starts the channel loop sequence. -/
def execChannelEnable (n : Fin 96) (s : State) : Result := runBoth s fun v d => ownerWrite v d [part1 O.chEnable 1 n.val]
/-- CHANNEL_DISABLE (R115). A write of 0 to ch.enable starts Draining, or goes straight to Disabled. -/
def execChannelDisable (n : Fin 96) (s : State) : Result := runBoth s fun v d => ownerWrite v d [part1 O.chEnable 0 n.val]
/-- CASCADE_ENGAGE (R123). A write of ch.casc.engage = 1 engages a valid cascade pair. -/
def execCascadeEngage (n : Fin 96) (s : State) : Result := runBoth s fun v d => ownerWrite v d [part1 O.chCascEngage 1 n.val]
/-- CASCADE_DISENGAGE (R126). A write of ch.casc.engage = 0 disengages the pair. -/
def execCascadeDisengage (n : Fin 96) (s : State) : Result := runBoth s fun v d => ownerWrite v d [part1 O.chCascEngage 0 n.val]
/-- REP_CLEAR (R144). ch.rep.cmd 1 clears the repetitive table. -/
def execRepClear (n : Fin 96) (s : State) : Result := runBoth s fun v d => ownerWrite v d [part1 O.chRepCmd 1 n.val]
/-- REP_BINS_WRITE (R144). An accepted write of ch.rep.bins clears the table. -/
def execRepBinsWrite (n : Fin 96) (value : Nat) (s : State) : Result :=
  runBoth s fun v d => ownerWrite v d [part1 O.chRepBins value n.val]
/-- REP_DATA_WRITE (R144). A write of ch.rep.data loads the bins and sets the bin range. -/
def execRepDataWrite (n : Fin 96) (b : Bytes) (s : State) : Result :=
  runBoth s fun v d => bytesWrite v d {} ⟨O.chRepData, n.val, 0⟩ none b
/-- REP_MODE_WRITE (R141). A write of ch.rep.mode is checked and switches the term in or out with absorption. -/
def execRepModeWrite (n : Fin 96) (value : Nat) (s : State) : Result :=
  runBoth s fun v d => ownerWrite v d [part1 O.chRepMode value n.val]
/-- TRACE_ARM (R148). ch.trace.cmd ARM arms the lane trace. -/
def execTraceArm (n : Fin 12) (s : State) : Result := runBoth s fun v d => ownerWrite v d [part1 O.chTraceCmd 1 (8 * n.val)]
/-- TRACE_FORCE (R147). ch.trace.cmd FORCE triggers the capture at the next trace frame. -/
def execTraceForce (n : Fin 12) (s : State) : Result := runBoth s fun v d => ownerWrite v d [part1 O.chTraceCmd 2 (8 * n.val)]
/-- TRACE_STOP (R148). ch.trace.cmd STOP returns the trace to IDLE. -/
def execTraceStop (n : Fin 12) (s : State) : Result := runBoth s fun v d => ownerWrite v d [part1 O.chTraceCmd 3 (8 * n.val)]
/-- LIMIT_WRITE (R154). A committed write of limits is checked and applied by RNG at the next iteration and clamp rotation. -/
def execLimitWrite (n : Fin 96) (field : LimitField) (value : Int) (s : State) : Result :=
  runBoth s fun v d => ownerWrite v d [part1 (limitObj field) value n.val]
/-- RANGE_POLICY_WRITE (R180). A committed write of range policy starts a pending policy test. -/
def execRangePolicyWrite (n : Fin 96) (field : RangeField) (value : Nat) (s : State) : Result :=
  runBoth s fun v d => ownerWrite v d [part1 (rangeObj field) value n.val]
/-- APERTURE_START (R187). ch.ap.cmd START starts an aperture sequence. -/
def execApertureStart (n : Fin 96) (s : State) : Result := runBoth s fun v d => ownerWrite v d [part1 O.chApCmd 1 n.val]
/-- APERTURE_STOP (R190). ch.ap.cmd STOP truncates or ends the aperture sequence. -/
def execApertureStop (n : Fin 96) (s : State) : Result := runBoth s fun v d => ownerWrite v d [part1 O.chApCmd 2 n.val]
/-- RESULT_WRITE (R198). The result writer grants a free pool slot to an occupied C and writes the record. -/
def execResultWrite (s : State) : Result := run s fun _ d => resultWrite d
/-- RESULT_DISPATCH (R199). PSC judges a pool record and hands it to journal staging and notification, freeing its slot. -/
def execResultDispatch (s : State) : Result := run s fun _ d => resultDispatch d
/-- STREAM_ENABLE (R205). A write of 1 to res.stream.enable enables the stream and clears its counters. -/
def execStreamEnable (k : Fin 16) (s : State) : Result := runBoth s fun v d => ownerWrite v d [part1 O.resStreamEnable 1 k.val]

end Sys2Proof.Machine
end

