-- ==== Sys2Proof/Machine/ExecClock.lean ====
section
/-! DEFINITION. The meanings of the commands of clock generation. -/
namespace Sys2Proof.Machine

/-- CLOCK_LOSS (R457). A loss detector declares a clock source lost, and the CGU fails over or coasts. -/
def execClockLoss (k : Fin 3) (s : State) : Result := run s fun _ d => clockLoss d (k.val + 1)
/-- CLOCK_QUALIFIED (R456). A clock source completes qualification. -/
def execClockQualified (k : Fin 2) (s : State) : Result := run s fun _ d => clockQualified d (k.val + 1)
/-- HRC_TRIM_WINDOW (R459). An HRC trim window completes and adjusts the trim and the proven state. -/
def execHrcTrimWindow (excess : Int) (s : State) : Result := run s fun _ d => trimWindow d excess
/-- PLL_LOCK (R462). The PLL achieves lock. -/
def execPllLock (s : State) : Result := run s fun _ d => pllLock d
/-- RELOCK_TIMEOUT (R467). 250 µs without lock in RELOCK go to NOCLOCK. -/
def execRelockTimeout (s : State) : Result := run s fun _ d => relockTimeout d
/-- QUAL_TIMEOUT (R467). No reference qualifies within qual_timeout and the CGU goes to LIMP. -/
def execQualTimeout (s : State) : Result := run s fun _ d => qualTimeout d
/-- STEER_DONE (R461). HRC phase steering completes and the aligned switch is made. -/
def execSteerDone (s : State) : Result := run s fun _ d => steerDone d
/-- MUX_SWITCH_DONE (R464). An ordinary clock multiplexer switch completes. -/
def execMuxSwitchDone (s : State) : Result := run s fun _ d => muxSwitchDone d
/-- CLOCK_REVERT_HOLD (R467). A reference qualified for revert_hold starts automatic steering. -/
def execClockRevertHold (s : State) : Result := run s fun _ d => revertHold d
/-- REVERT (R467). clk.cmd REVERT starts steering back to a reference. -/
def execRevert (s : State) : Result := runBoth s fun v d => ownerWrite v d [part1 O.clkCmd 1]
/-- REF_SEL_WRITE (R458). A write of clk.ref_sel changes the reference in use through STEER. -/
def execRefSelWrite (value : Nat) (s : State) : Result := runBoth s fun v d => ownerWrite v d [part1 O.clkRefSel value]
/-- CLOCK_GATE_WRITE (R475). A write of clk.gate gates or ungates units. -/
def execClockGateWrite (mask : Nat) (s : State) : Result := runBoth s fun v d => ownerWrite v d [part1 O.clkGate mask]
/-- DRIFT_WINDOW (R473). A drift window ends and the drift level is evaluated. -/
def execDriftWindow (s : State) : Result := run s fun _ d => driftWindow d
/-- BACKUP_LIMIT (R474). The backup time reaches its limit and raises the clock source at severe level. -/
def execBackupLimit (s : State) : Result := run s fun _ d => backupLimit d

end Sys2Proof.Machine
end

