-- ==== Sys2Proof/Machine/ExecDictionary.lean ====
section
/-! DEFINITION. The meanings of the commands of configuration, mirrors and reads with a side effect. -/
namespace Sys2Proof.Machine

/-- STORE (R400). dev.cfg.cmd STORE captures the stored objects and starts writing an image. -/
def execStore (s : State) : Result := runBoth s fun v d => ownerWrite v d [part1 O.devCfgCmd 1]
/-- STORE_DONE (R400). The image write and read-back complete, or fail. -/
def execStoreDone (ok : Bool) (s : State) : Result := run s fun _ d => cfgStoreDone d ok
/-- RESTORE (R402). dev.cfg.cmd RESTORE applies the active image. -/
def execRestore (s : State) : Result := runBoth s fun v d => ownerWrite v d [part1 O.devCfgCmd 2]
/-- DEFAULTS (R402). dev.cfg.cmd DEFAULTS sets every stored object to its default. -/
def execDefaults (s : State) : Result := runBoth s fun v d => ownerWrite v d [part1 O.devCfgCmd 3]
/-- ERASE (R402). dev.cfg.cmd ERASE invalidates both image slots. -/
def execErase (s : State) : Result := runBoth s fun v d => ownerWrite v d [part1 O.devCfgCmd 4]
/-- MIRROR_REFRESH (R396). The 1 ms mirror refresh updates mirrors and compares the management and data-path views. -/
def execMirrorRefresh (s : State) : Result := runNet s fun v d => refreshAll v d
/-- STICKY_FLAGS_READ (R24). A read of a sticky clear-on-read flags object returns it and clears it. -/
def execStickyFlagsRead (index : Nat) (sub : Nat) (s : State) : Result := run s fun v d => roleRead v d {} index sub
/-- TRACKER_READ (R347). A read of sam.e.min or sam.e.max returns the tracker and restarts it. -/
def execTrackerRead (max : Bool) (e : Fin 64) (s : State) : Result :=
  run s fun v d => readHere v d {} ⟨if max then O.samEMax else O.samEMin, e.val, 0⟩
/-- HIWATER_READ (R206). A read of res.pool.hiwater resets it to the present occupancy. -/
def execHiwaterRead (s : State) : Result := run s fun v d => readHere v d {} ⟨O.resPoolHiwater, 0, 0⟩
/-- TIN_LATCH_READ (R313). A read of tiu.in.latch clears the latch. -/
def execTinLatchRead (k : Fin 8) (s : State) : Result := run s fun v d => readHere v d {} ⟨O.tiuInLatch, k.val, 0⟩
/-- FCR_STATUS_READ (R499). A read of fcr.status or fcr.severe by an OPERATOR clears it. -/
def execFcrStatusRead (severe : Bool) (w : Fin 8) (s : State) : Result :=
  run s fun v d => readHere v d { role := 1 } ⟨if severe then O.fcrSevere else O.fcrStatus, 0, w.val⟩
/-- COMPAT_STATUS_READ (R510). A read of compat.blk.status clears its own copy. -/
def execCompatStatusRead (k : Fin 16) (s : State) : Result := run s fun v d => readHere v d {} ⟨O.compatBlkStatus, k.val, 0⟩

end Sys2Proof.Machine
end

