-- ==== Sys2Proof/Machine/ExecEvent.lean ====
section
/-! DEFINITION. The meanings of the commands of trigger inputs, time-to-digital units and event routing. -/
namespace Sys2Proof.Machine

/-- TIN_EDGE (R308). A filtered edge occurs on a timing input and is stamped and delivered. -/
def execTinEdge (k : Fin 8) (uv : List Int) (tick : Fin 250) (back : Nat) (code : Nat) (s : State) : Result :=
  run s fun _ d => tinEdge d k.val uv tick.val back code
/-- TIN_OVERRATE (R311). Eight raw transitions within 40 ticks put the input into over-rate. -/
def execTinOverrate (k : Fin 8) (s : State) : Result := run s fun _ d => tinOverrate d k.val
/-- TIN_OVERRATE_END (R311). 500 ticks without the test holding end over-rate. -/
def execTinOverrateEnd (k : Fin 8) (s : State) : Result := run s fun _ d => tinOverrateEnd d k.val
/-- TIN_STUCK (R312). The input stays at its active level for tiu.in.stuck and is declared stuck. -/
def execTinStuck (k : Fin 8) (s : State) : Result := run s fun _ d => tinStuck d k.val
/-- TIN_LATCH_TIMEOUT (R313). The latch period ends and the latch clears. -/
def execTinLatchTimeout (k : Fin 8) (s : State) : Result := run s fun _ d => tinLatchTimeout d k.val
/-- TIN_LATCH_CLEAR (R313). tiu.in.cmd CLEAR clears the latch. -/
def execTinLatchClear (k : Fin 8) (s : State) : Result := runBoth s fun v d => ownerWrite v d [part1 O.tiuInCmd 1 k.val]
/-- TIN_CONFIG_WRITE (R310). A write of threshold, hysteresis or slope takes effect at the next sample. -/
def execTinConfigWrite (k : Fin 8) (field : TinField) (value : Nat) (s : State) : Result :=
  runBoth s fun v d => ownerWrite v d [part1 (tinObj field) value k.val]
/-- TDC_ARM (R319). tiu.m.cmd ARM starts calibration of a measurement unit. -/
def execTdcArm (k : Fin 8) (s : State) : Result := runBoth s fun v d => ownerWrite v d [part1 O.tiuMCmd 1 k.val]
/-- TDC_STOP (R319). tiu.m.cmd STOP ends the measurement STOPPED. -/
def execTdcStop (k : Fin 8) (s : State) : Result := runBoth s fun v d => ownerWrite v d [part1 O.tiuMCmd 2 k.val]
/-- TDC_CAL_DONE (R318). The 64-tick interpolator calibration completes, passing or failing. -/
def execTdcCalDone (k : Fin 8) (k1 : Nat) (k2 : Nat) (s : State) : Result := run s fun _ d => tdcCalDone d k.val k1 k2
/-- TDC_TIMEOUT (R319). The measurement timeout ends the measurement TIMEOUT. -/
def execTdcTimeout (k : Fin 8) (s : State) : Result := run s fun _ d => tdcTimeout d k.val
/-- TDC_WINDOW_END (R319). The frequency window ends. -/
def execTdcWindowEnd (k : Fin 8) (s : State) : Result := run s fun _ d => tdcWindowEnd d k.val
/-- EVIO_PIN_CHANGE (R331). An event pin's level changes and passes the synchroniser. -/
def execEvioPinChange (p : Fin 16) (level : Bool) (s : State) : Result := run s fun _ d => evioPin d p.val level
/-- ERM_CYCLE (R329). Each CLK_PER cycle the logic cells compute and the consumers see their selected signals. -/
def execErmCycle (c : Fin 50) (s : State) : Result := run s fun _ d => ermCycle d c.val
/-- SOFT_EVENT (R322). A write of erm.soft issues SOFT events. -/
def execSoftEvent (value : Nat) (s : State) : Result := runBoth s fun v d => ownerWrite v d [part1 O.ermSoft value]
/-- SELECTOR_WRITE (R326). A write of a consumer selector takes effect at the next cycle without creating an edge. -/
def execSelectorWrite (c : Fin 192) (value : Nat) (s : State) : Result :=
  runBoth s fun v d => ownerWrite v d [part1 O.ermInSel value 0 c.val]
/-- LUT_MODE_WRITE (R330). A write of a cell's ff, filter or clock resets the cell state. -/
def execLutModeWrite (k : Fin 32) (field : LutField) (value : Nat) (s : State) : Result :=
  runBoth s fun v d => ownerWrite v d [part1 (lutObj field) value k.val]
/-- EVIO_PULSE_END (R331). An output pulse width elapses. -/
def execEvioPulseEnd (p : Fin 16) (s : State) : Result := run s fun _ d => evioPulseEnd d p.val
/-- SYS_LINE_SAMPLE (R333). The ring samples the system line terms at each 40 ns instant. -/
def execSysLineSample (tick : Fin 250) (s : State) : Result := run s fun _ d => sysSample d tick.val
/-- SYS_LINE_RELEASE (R333). A line value is delivered at its release instant. -/
def execSysLineRelease (s : State) : Result := run s fun _ d => sysRelease d
/-- AP_START_EDGE (R328). An edge at AP_START starts an aperture sequence with its stamp. -/
def execApStartEdge (n : Fin 96) (s : State) : Result := run s fun _ d => apStartEdge d n.val (edgeStamp d n.val)
/-- TRACE_EDGE (R328). An edge at TRACE holds a trigger condition for the next trace frame. -/
def execTraceEdge (n : Fin 12) (s : State) : Result := run s fun _ d => traceEdge d n.val
/-- SEQ_LINE_EDGE (R328). An edge at a sequencer line starts sequencers or latches a guard event. -/
def execSeqLineEdge (k : Fin 16) (s : State) : Result := run s fun _ d => seqLineEdge d k.val (edgeStamp d (108 + k.val))
/-- TIU_GATE_EDGE (R328). An edge at TIU_GATE arms a measurement unit. -/
def execTiuGateEdge (k : Fin 8) (tick : Fin 250) (s : State) : Result := run s fun _ d => tiuGateEdge d k.val tick.val
/-- SCAN_LINE_EDGE (R328). An edge at SCAN_L starts the scans mapped to that line. -/
def execScanLineEdge (k : Fin 16) (s : State) : Result := run s fun _ d => scanLineEdge d k.val (edgeStamp d (132 + k.val))
/-- SAM_URGENT_EDGE (R344). An edge at SAM_URG makes an urgent conversion pending. -/
def execSamUrgentEdge (k : Fin 2) (c : Fin 50) (s : State) : Result := run s fun _ d => samUrgentEdge d k.val c.val
/-- AXD_TRIG_EDGE (R355). An edge at AXD_TRIG starts or steps an output queue. -/
def execAxdTrigEdge (k : Fin 4) (c : Fin 50) (s : State) : Result := run s fun _ d => axdTrig d k.val c.val
/-- JRN_MARK_EDGE (R328). An edge at JRN_MARK hands the journal a mark record. -/
def execJrnMarkEdge (s : State) : Result := run s fun _ d => markEdge d (edgeStamp d 186)

end Sys2Proof.Machine
end

