-- ==== Sys2Proof/Machine/ExecFault.lean ====
section
/-! DEFINITION. The meanings of the commands of faults, cores and degraded operation. -/
namespace Sys2Proof.Machine

/-- FAULT_RAISE (R499). A fault source is raised, then counted, classified, latched as first source and reacted to. -/
def execFaultRaise (src : Fin 256) (level : Fin 3) (cause : Nat) (detail : Nat) (line : Bool) (s : State) : Result :=
  run s fun _ d => faultRaise d src.val level.val cause detail line
/-- FAULT_ACK (R507). fcr.cmd ACK releases the first source. -/
def execFaultAck (s : State) : Result := runBoth s fun v d => ownerWrite v d [part1 O.fcrCmd 1]
/-- FCR_SAFE (R519). fcr.cmd SAFE enters SAFE. -/
def execFcrSafe (s : State) : Result := runBoth s fun v d => ownerWrite v d [part1 O.fcrCmd 2]
/-- FAULT_INJECT (R509). A write of fcr.inject arms a fault injection. -/
def execFaultInject (b : Bytes) (s : State) : Result := runBoth s fun v d => bytesWrite v d {} ⟨O.fcrInject, 0, 0⟩ none b
/-- HEARTBEAT_MISS (R512). The standby core declares the active core lost. -/
def execHeartbeatMiss (s : State) : Result := run s fun _ d => heartbeatMiss d
/-- CHECKPOINT (R512). The active core completes a checkpoint of the shared store. -/
def execCheckpoint (s : State) : Result := run s fun _ d => checkpoint d
/-- CORE_REJOIN (R514). A failed core finishes loading and becomes the ready standby, or is declared lost. -/
def execCoreRejoin (core : Fin 2) (ok : Bool) (s : State) : Result := run s fun _ d => coreRejoin d core.val ok
/-- DEBUG_HALT (R514). A debugger halts a service core. -/
def execDebugHalt (core : Fin 2) (s : State) : Result := run s fun _ d => debugHalt d core.val
/-- DEBUG_HALT_END (R514). A debug halt ends and any deferred core reset is applied. -/
def execDebugHaltEnd (core : Fin 2) (s : State) : Result := run s fun _ d => debugHaltEnd d core.val
/-- RECHECK (R519). fallow.cmd RECHECK clears stale causes and may return to MEADOW. -/
def execRecheck (s : State) : Result := runBoth s fun v d => ownerWrite v d [part1 O.fallowCmd 1]
/-- LEAVE_SAFE (R519). fallow.cmd LEAVE_SAFE leaves SAFE to FALLOW or MEADOW. -/
def execLeaveSafe (s : State) : Result := runBoth s fun v d => ownerWrite v d [part1 O.fallowCmd 2]
/-- RESTORE_LANE (R524). A write of fallow.restore_lane clears a lane's isolation. -/
def execRestoreLane (lane : Nat) (s : State) : Result := runBoth s fun v d => ownerWrite v d [part1 O.fallowRestoreLane lane]
/-- LANE_GRACE_EXPIRY (R524). A lane in FAULT for lane_grace is permanently lost. -/
def execLaneGraceExpiry (n : Fin 12) (s : State) : Result := run s fun _ d => laneGrace d n.val

end Sys2Proof.Machine
end

