-- ==== Sys2Proof/Machine/ExecJournal.lean ====
section
/-! DEFINITION. The meanings of the commands of the journal. -/
namespace Sys2Proof.Machine

/-- FLASH_PROGRAM_DONE (R528). A flash program or erase completes and the journal writer moves on. -/
def execFlashProgramDone (ok : Bool) (s : State) : Result := run s fun v d => markTry (flashDone d v.kj ok)
/-- FLASH_STALL (R517). 100 ms without a completed program make the flash writer unavailable, and staging drains to the RAM
ring. -/
def execFlashStall (s : State) : Result := run s fun _ d => flashStall d
/-- SEAL_INTERVAL (R531). The seal interval elapses and a SEAL record is programmed. -/
def execSealInterval (s : State) : Result := run s fun v d => sealInterval d v.kj
/-- SEAL_NOW (R531). jrn.cmd SEAL_NOW seals the page. -/
def execSealNow (s : State) : Result := runBoth s fun v d => ownerWrite v d [part1 O.jrnCmd 2]
/-- FORMAT (R534). jrn.cmd FORMAT erases the journal and draws a new id. -/
def execFormat (s : State) : Result := runBoth s fun v d => ownerWrite v d [part1 O.jrnCmd 1]
/-- JRN_VERIFY (R538). jrn.cmd VERIFY starts checking every held page. -/
def execJrnVerify (s : State) : Result := runBoth s fun v d => ownerWrite v d [part1 O.jrnCmd 3]
/-- JRN_VERIFY_DONE (R538). VERIFY completes with PASS or FAIL. -/
def execJrnVerifyDone (s : State) : Result := run s fun v d => journalVerifyDone d v.kj
/-- ACK_TO (R533). A write of jrn.ack_to moves the acknowledge cursor. -/
def execAckTo (value : Nat) (s : State) : Result := runBoth s fun v d => ownerWrite v d [part1 O.jrnAckTo value]
/-- PAGE_REFRESH (R536). A page older than refresh_age is copied forward. -/
def execPageRefresh (sector : Nat) (s : State) : Result := run s fun _ d => pageRefresh d sector

end Sys2Proof.Machine
end

