-- ==== Sys2Proof/Machine/ExecLane.lean ====
section
/-! DEFINITION. The meanings of the commands of lanes and their links. -/
namespace Sys2Proof.Machine

/-- CONTROLLER_FRAME (R38). Start of each 500 ns controller frame. The down-frame leaves SWL, and the LCE processes the
up-frame held from three frames earlier. -/
def execControllerFrame (tick : Nat) (s : State) : Result := run s fun _ d => controllerFrame d tick
/-- UP_FRAME (R69). An up-frame arrives at a Sward port and is accepted or rejected by the acceptance conditions. -/
def execUpFrame (n : Fin 12) (comma : Sym) (aligned : Bool) (inverted : Bool) (age : Fin 4) (rtt : Nat) (syms : List Sym) (s : State) : Result :=
  run s fun _ d => upFrame d n.val aligned inverted age.val rtt (comma :: syms)
/-- DESC_DATA (R78). A descriptor chunk received from the slice is checked and accumulated. -/
def execDescData (n : Fin 12) (tag : Nat) (b : Bytes) (s : State) : Result :=
  run s fun _ d => laneMessage d n.val ⟨0x81, tag, b⟩
/-- STATUS (R76). A STATUS message from the slice drives DESCRIBE, RETRAIN and reattach decisions, and the view comparisons.
-/
def execStatus (n : Fin 12) (tag : Nat) (b : Bytes) (s : State) : Result := run s fun _ d => laneMessage d n.val ⟨0x82, tag, b⟩
/-- ACK (R75). An ACK from the slice completes the outstanding request and advances the lane state. -/
def execAck (n : Fin 12) (tag : Nat) (b : Bytes) (s : State) : Result := run s fun _ d => laneMessage d n.val ⟨0x83, tag, b⟩
/-- EVENT (R63). An unsolicited CMD_REFUSED event from the slice is taken in; events of other codes are discarded. -/
def execEvent (n : Fin 12) (tag : Nat) (b : Bytes) (s : State) : Result := run s fun _ d => laneMessage d n.val ⟨0x84, tag, b⟩
/-- SEGMENT_RESEND (R74). An unacknowledged message segment is resent after 16 frames; after eight resends the channel fails.
-/
def execSegmentResend (n : Fin 12) (s : State) : Result := run s fun _ d => segmentResend d n.val
/-- REPLY_TIMEOUT (R75). No reply within 2 ms is a message channel failure. -/
def execReplyTimeout (n : Fin 12) (s : State) : Result := run s fun _ d => replyTimeout d n.val
/-- TRAIN_TIMEOUT (R84). 50 µs pass without alignment in TRAIN, which restarts training or goes to FAULT. -/
def execTrainTimeout (n : Fin 12) (s : State) : Result := run s fun _ d => trainTimeout d n.val
/-- RETRAIN_TIMEOUT (R83). RETRAIN is not realigned within the hold timeout plus 10 ms, which raises lane lost. -/
def execRetrainTimeout (n : Fin 12) (s : State) : Result := run s fun _ d => retrainTimeout d n.val
/-- DRAIN_LIMIT (R83). The drain limit expires and the lane stops transmitting. -/
def execDrainLimit (n : Fin 12) (s : State) : Result := run s fun _ d => drainLimit d n.val
/-- LANE_ENABLE (R83). A write of lane.enable trains the lane, or drains it. -/
def execLaneEnable (n : Fin 12) (on : Bool) (s : State) : Result :=
  runBoth s fun v d => ownerWrite v d [part1 O.laneEnable (b2n on) n.val]
/-- LANE_ATTACH (R92). lane.cmd ATTACH leaves LOST or FAULT and reads the descriptor afresh. -/
def execLaneAttach (n : Fin 12) (s : State) : Result := runBoth s fun v d => ownerWrite v d [part1 O.laneCmd 1 n.val]
/-- LANE_RETRAIN (R95). lane.cmd RETRAIN sends a running lane to RETRAIN. -/
def execLaneRetrain (n : Fin 12) (s : State) : Result := runBoth s fun v d => ownerWrite v d [part1 O.laneCmd 2 n.val]
/-- LANE_SAFE_RELEASE (R65). lane.cmd SAFE_RELEASE sends SAFE_RELEASE naming the safed slots whose ramps are complete. -/
def execLaneSafeRelease (n : Fin 12) (s : State) : Result := runBoth s fun v d => ownerWrite v d [part1 O.laneCmd 3 n.val]
/-- HOLD_TIMEOUT_WRITE (R82). A write of lane.hold.timeout sends SET_HOLD within 1 ms. -/
def execHoldTimeoutWrite (n : Fin 12) (value : Nat) (s : State) : Result :=
  runBoth s fun v d => ownerWrite v d [part1 O.laneHoldTimeout value n.val]
/-- LANE_DIV_WRITE (R34). A write of the lane divisor D takes effect at the next block boundary. -/
def execLaneDivWrite (n : Fin 12) (value : Nat) (s : State) : Result :=
  runBoth s fun v d => ownerWrite v d [part1 O.laneDiv value n.val]

end Sys2Proof.Machine
end

