-- ==== Sys2Proof/Machine/ExecNetwork.lean ====
section
/-! DEFINITION. The meanings of the commands of Ethernet and CAN. -/
namespace Sys2Proof.Machine

/-- ETH_FRAME (R426). An Ethernet frame is received and passed to PRP, ARP, ICMP, DHCP, PTP or JDP, or discarded. -/
def execEthFrame (p : Fin 2) (tick : Fin 250) (good : Bool) (b : Bytes) (s : State) : Result :=
  runNet s fun v d => ethFrame v d p.val tick.val good b
/-- MDIO_POLL (R426). Every 10 ms the PHY link, speed and duplex are read. -/
def execMdioPoll (p : Fin 2) (link : Fin 4) (full : Bool) (s : State) : Result :=
  run s fun _ d => mdioPoll d p.val link.val full
/-- PRP_SUPERVISION (R428). The life-check interval sends a PRP supervision frame. -/
def execPrpSupervision (s : State) : Result := run s fun _ d => prpSupervision d
/-- DHCP_RENEW (R426). The DHCP T1 timer starts renewal. -/
def execDhcpRenew (iface : Fin 2) (s : State) : Result := run s fun _ d => dhcpRenew d iface.val
/-- DHCP_REBIND (R426). The DHCP T2 timer starts rebinding. -/
def execDhcpRebind (iface : Fin 2) (s : State) : Result := run s fun _ d => dhcpRebind d iface.val
/-- ARP_AGEING (R426). An ARP cache entry ages out after 60 s. -/
def execArpAgeing (iface : Fin 2) (s : State) : Result := run s fun _ d => arpAgeing d iface.val
/-- PRP_MODE_WRITE (R427). A write of PRP mode or addressing closes the sessions of the interface. -/
def execPrpModeWrite (field : AddressField) (iface : Fin 2) (value : Nat) (s : State) : Result :=
  runBoth s fun v d => ownerWrite v d [part1 (addressObj field) value (if field = .prpMode then 0 else iface.val)]
/-- CAN_BUS_OFF_RECOVERY (R434). A bus-off port recovers after 128 × 11 recessive bits. -/
def execCanBusOffRecovery (p : Fin 2) (s : State) : Result := run s fun _ d => canRecover d p.val
/-- DHCP_LEASE_EXPIRY (R429). A DHCP lease runs out without renewal, and the interface holds no lease and accepts only DHCP.
-/
def execDhcpLeaseExpiry (iface : Fin 2) (s : State) : Result := run s fun _ d => dhcpExpiry d iface.val
/-- CAN_BUS_ERROR (R434). A CAN bus error during transmission or reception moves the error counters, possibly into
error-passive or bus-off. -/
def execCanBusError (p : Fin 2) (transmit : Bool) (heavy : Bool) (s : State) : Result :=
  run s fun _ d => canBusError d p.val transmit heavy

end Sys2Proof.Machine
end

