-- ==== Sys2Proof/Machine/ExecPoint.lean ====
section
/-! DEFINITION. The meanings of the commands of points, the relay bus and scans. -/
namespace Sys2Proof.Machine

/-- POINT_START (R240). pt.cmd START requests a point execution. -/
def execPointStart (p : Fin 4096) (s : State) : Result := runBoth s fun v d => ownerWrite v d [part1 O.ptCmd 1 p.val]
/-- POINT_STOP (R240). pt.cmd STOP aborts the point. -/
def execPointStop (p : Fin 4096) (s : State) : Result := runBoth s fun v d => ownerWrite v d [part1 O.ptCmd 2 p.val]
/-- CLEAR_ALARM (R236). pt.cmd CLEAR_ALARM sets the alarm state to NORMAL and clears the votes. -/
def execClearAlarm (p : Fin 4096) (s : State) : Result := runBoth s fun v d => ownerWrite v d [part1 O.ptCmd 3 p.val]
/-- POINT_RECORD_WRITE (R421). A write of point configuration bytes resets the alarm where the fields require it and applies
at the next request. -/
def execPointRecordWrite (p : Fin 4096) (b : Bytes) (s : State) : Result :=
  runBoth s fun v d => bytesWrite v d {} ⟨O.ptRecord, p.val, 0⟩ none b
/-- DISPATCH_PASS (R253). The per-frame dispatch pass grants waiting point requests in order. -/
def execDispatchPass (s : State) : Result := run s fun _ d => dispatchPass d
/-- POINT_WINDOW_EXPIRY (R240). A waiting point exceeds pt.window and ends CONFLICT. -/
def execPointWindowExpiry (p : Fin 4096) (s : State) : Result := run s fun _ d => pointWindowExpiry d p.val
/-- PATH_MAKE_TIME (R241). A path entry's make or break time elapses and the next coil change or read-back follows. -/
def execPathMakeTime (p : Fin 4096) (s : State) : Result := run s fun _ d => pathTime d p.val
/-- PATH_SETTLE_END (R240). The path settle ends and the point's channels are enabled. -/
def execPathSettleEnd (p : Fin 4096) (s : State) : Result := run s fun _ d => pathSettleEnd d p.val
/-- POINT_SETTLE_END (R242). pt.settle frames elapse and the aperture sequences start. -/
def execPointSettleEnd (p : Fin 4096) (s : State) : Result := run s fun _ d => ptSettled d p.val
/-- POINT_LISTEN_TIMEOUT (R240). pt.listen elapses after the sequencer is DONE and the point ends TIMEOUT. -/
def execPointListenTimeout (p : Fin 4096) (s : State) : Result := run s fun _ d => pointListenTimeout d p.val
/-- RELAY_BUS_SLOT (R256). One 2 µs relay bus slot sends a command frame and latches when due. -/
def execRelayBusSlot (s : State) : Result := run s fun _ d => relayBusSlot d
/-- RELAY_REPLY (R257). A driver's reply to READ is checked against the image, the TAG and the faults. -/
def execRelayReply (present : Bool) (frame : Nat) (s : State) : Result := run s fun _ d => relayReply d present frame
/-- RELAY_REREAD (R260). The read 1 ms after a mismatch confirms or clears it. -/
def execRelayReread (s : State) : Result := run s fun _ d => relayReread d
/-- RELAY_FAULT_LINE (R261). RB_FLT_N goes low and the drivers are read in order. -/
def execRelayFaultLine (s : State) : Result := run s fun _ d => relayFaultLine d
/-- RELAY_AUDIT (R261). The audit interval elapses and one driver is read in rotation. -/
def execRelayAudit (s : State) : Result := run s fun _ d => relayAudit d
/-- RBC_START (R263). RBC starts, reads every driver and adopts the SENSE bits, marking orphans. -/
def execRbcStart (s : State) : Result := run s fun _ d => rbcStart d
/-- RELEASE_ORPHANS (R263). rb.cmd RELEASE_ORPHANS breaks every orphan. -/
def execReleaseOrphans (s : State) : Result := runBoth s fun v d => ownerWrite v d [part1 O.rbCmd 1]
/-- ALL_OFF (R266). rb.cmd ALL_OFF clears every driver's coils. -/
def execAllOff (s : State) : Result := runBoth s fun v d => ownerWrite v d [part1 O.rbCmd 2]
/-- RELAY_COUNT_CLEAR (R265). A write of rb.count_clear zeroes a relay count and is journaled. -/
def execRelayCountClear (r : Fin 16384) (s : State) : Result := runBoth s fun v d => ownerWrite v d [part1 O.rbCountClear r.val]
/-- RELAY_COUNT_SAVE (R264). Every 60 s the running relay counts are written to MRAM. -/
def execRelayCountSave (s : State) : Result := run s fun _ d => relayCountSave d
/-- SCAN_ARM (R251). scan.cmd ARM places the first start. -/
def execScanArm (n : Fin 256) (s : State) : Result := runBoth s fun v d => ownerWrite v d [part1 O.scanCmd 1 n.val]
/-- SCAN_START (R251). scan.cmd START begins a run of a host-started scan. -/
def execScanStart (n : Fin 256) (s : State) : Result := runBoth s fun v d => ownerWrite v d [part1 O.scanCmd 2 n.val]
/-- SCAN_STOP (R251). scan.cmd STOP aborts the scan's points. -/
def execScanStop (n : Fin 256) (s : State) : Result := runBoth s fun v d => ownerWrite v d [part1 O.scanCmd 3 n.val]
/-- SCAN_TIME_START (R249). A time-of-day grid instant occurs and starts or makes a late start. -/
def execScanTimeStart (n : Fin 256) (s : State) : Result := run s fun _ d => scanTimeStart d n.val
/-- SCAN_NEXT_ENTRY (R248). Every point of the group is IDLE and the scan reaches its next entry. -/
def execScanNextEntry (n : Fin 256) (s : State) : Result := run s fun _ d => scanNextEntry d n.val
/-- SCAN_DELAY_END (R248). A scan delay entry expires. -/
def execScanDelayEnd (n : Fin 256) (s : State) : Result := run s fun _ d => scanDelayEnd d n.val

end Sys2Proof.Machine
end

