-- ==== Sys2Proof/Machine/ExecPower.lean ====
section
/-! DEFINITION. The meanings of the commands of power, reset and boot. -/
namespace Sys2Proof.Machine

/-- DOMAIN_ON (R479). A write of pmu.pd.on starts switching domains on. -/
def execDomainOn (mask : Nat) (s : State) : Result := runBoth s fun v d => ownerWrite v d [part1 O.pmuPdOn mask]
/-- DOMAIN_OFF (R479). A write of pmu.pd.off starts switching domains off. -/
def execDomainOff (mask : Nat) (s : State) : Result := runBoth s fun v d => ownerWrite v d [part1 O.pmuPdOff mask]
/-- DOMAIN_SWITCH_DONE (R479). A domain finishes switching on, after clearing and stored entries, or off. -/
def execDomainSwitchDone (n : Fin 31) (s : State) : Result := run s fun _ d => domainSwitchDone d n.val
/-- QUIET (R481). pmu.cmd QUIET switches idle domains off. -/
def execQuiet (s : State) : Result := runBoth s fun v d => ownerWrite v d [part1 O.pmuCmd 2]
/-- PMU_RUN (R481). pmu.cmd RUN switches the QUIET set back on. -/
def execPmuRun (s : State) : Result := runBoth s fun v d => ownerWrite v d [part1 O.pmuCmd 3]
/-- STANDBY (R482). pmu.cmd STANDBY enters STANDBY in order. -/
def execStandby (s : State) : Result := runBoth s fun v d => ownerWrite v d [part1 O.pmuCmd 4]
/-- RESET_REQUEST (R485). pmu.cmd RESET makes a controller reset 1 ms after the response. -/
def execResetRequest (straps : Nat) (s : State) : Result := run s fun v d => resetRequest v d straps
/-- CONFIRM (R494). pmu.cmd CONFIRM confirms the running slot. -/
def execConfirm (s : State) : Result := runBoth s fun v d => ownerWrite v d [part1 O.pmuCmd 5]
/-- POWER_ON_RESET (R485). A supply below its POR threshold, or PWR_OK low, resets everything except VBAT. -/
def execPowerOnReset (s : State) : Result := run s fun _ d => powerOnReset d
/-- RESET_PIN_LOW (R487). A filtered low on RESET_N holds a controller reset. -/
def execResetPinLow (s : State) : Result := run s fun _ d => resetPinLow d
/-- RESET_PIN_HIGH (R487). A filtered high on RESET_N releases the reset. -/
def execResetPinHigh (straps : Nat) (s : State) : Result := run s fun v d => resetPinHigh v d straps
/-- RESET_STUCK_GUARD (R487). RESET_N is held low for the stuck guard, the reset is released and the pin ignored. -/
def execResetStuckGuard (straps : Nat) (s : State) : Result := run s fun v d => resetStuck v d straps
/-- RESET_PIN_REARM (R487). 100 ms high in IGNORED rearm the pin. -/
def execResetPinRearm (s : State) : Result := run s fun _ d => resetRearm d
/-- POWER_FAIL_WARNING (R489). A fall of PWR_OK saves counts and the snapshot and raises the supply source. -/
def execPowerFailWarning (s : State) : Result := run s fun _ d => powerFail d
/-- WATCHDOG_EXPIRY (R490). A service core's watchdog expires, making a core or controller reset. -/
def execWatchdogExpiry (core : Fin 2) (straps : Nat) (s : State) : Result := run s fun v d => watchdogExpiry v d core.val straps
/-- CORE_RESET (R485). A write of pmu.core_reset resets a non-active core. -/
def execCoreReset (core : Nat) (s : State) : Result := runBoth s fun v d => ownerWrite v d [part1 O.pmuCoreReset core]
/-- LANE_RESET (R485). A write of pmu.lane_reset cycles a lane domain without drain. -/
def execLaneReset (mask : Nat) (s : State) : Result := runBoth s fun v d => ownerWrite v d [part1 O.pmuLaneReset mask]
/-- UNIT_RESET (R485). A write of pmu.unit_reset returns a unit to its power-on state. -/
def execUnitReset (mask : Nat) (s : State) : Result := runBoth s fun v d => ownerWrite v d [part1 O.pmuUnitReset mask]
/-- BOOT_IMAGE_VERIFIED (R492). The image is loaded and verified, and the device enters HEATH, MEADOW or SAFE. -/
def execBootImageVerified (s : State) : Result := run s fun _ d => bootVerified d
/-- BOOT_CONFIRM_TIME (R494). confirm_time in MEADOW or FALLOW confirms the slot. -/
def execBootConfirmTime (s : State) : Result := runBoth s fun v d => confirmTime v d
/-- WAKE (R483). A wake source in STANDBY starts BOOT with cause WAKE. -/
def execWake (src : Nat) (detail : Nat) (straps : Nat) (s : State) : Result := run s fun v d => wake v d src detail straps
/-- POWER_OFF (R484). Removal of VDD_AON enters OFF. -/
def execPowerOff (s : State) : Result := run s fun _ d => powerOff d
/-- DOMAIN_SWITCHED_OFF_BY_FAULT (R192). A switched domain, such as a lane domain, PD13 or PD27, is lost by a fault; its unit
stops, W is lost, and dependants fall back. -/
def execDomainSwitchedOffByFault (n : Fin 31) (s : State) : Result := run s fun _ d => domainLost d n.val
/-- VBAT_BELOW_MINIMUM (R288). VBAT falls below the RTC minimum or the 32 kHz oscillator stops, and the RTC valid bit is
cleared. -/
def execVbatBelowMinimum (s : State) : Result := run s fun _ d => rtcInvalid d
/-- POWER_ON_RESET_RELEASE (R487). Supplies are above their POR thresholds and PWR_OK is high, so the power-on reset is
released and BOOT begins. -/
def execPowerOnResetRelease (counts : Nat) (size : Nat) (able : Bool) (straps : Nat) (s : State) : Result :=
  run s fun v d => powerRelease v d counts size able straps

end Sys2Proof.Machine
end

