-- ==== Sys2Proof/Machine/ExecProtocol.lean ====
section
/-! DEFINITION. The meanings of the commands of the dictionary protocol and its bindings. -/
namespace Sys2Proof.Machine

/-- READ (R375). JDP READ of one object. -/
def execRead (k : Fin 16) (acked : Nat) (a : Addr) (s : State) : Result :=
  runNet s fun v d => request v d k.val acked opRead (addrBytes a)
/-- WRITE (R375). JDP WRITE of one object, including writes of registers with no row of their own. -/
def execWrite (k : Fin 16) (acked : Nat) (x : Item) (s : State) : Result :=
  runNet s fun v d => request v d k.val acked opWrite (itemBytes x)
/-- READ_MULTI (R375). JDP READ_MULTI reads 1–32 objects in order. -/
def execReadMulti (k : Fin 16) (acked : Nat) (l : List Addr) (s : State) : Result :=
  runNet s fun v d => request v d k.val acked opReadMulti (leBytes 1 l.length ++ [0, 0, 0] ++ l.flatMap addrBytes)
/-- WRITE_MULTI (R375). JDP WRITE_MULTI writes 1–32 objects atomically. -/
def execWriteMulti (k : Fin 16) (acked : Nat) (l : List Item) (s : State) : Result :=
  runNet s fun v d => request v d k.val acked opWriteMulti (leBytes 1 l.length ++ [0, 0, 0] ++ l.flatMap itemBytes)
/-- PEEK (R376). JDP PEEK reads without side effect. -/
def execPeek (k : Fin 16) (acked : Nat) (a : Addr) (s : State) : Result :=
  runNet s fun v d => request v d k.val acked opPeek (addrBytes a)
/-- LOCK (R378). JDP LOCK takes a lease on index ranges. -/
def execLock (k : Fin 16) (acked : Nat) (node : Nat) (lease : Nat) (l : List (Nat × Nat)) (s : State) : Result :=
  runNet s fun v d => request v d k.val acked opLock (lockBody node lease l)
/-- RENEW (R381). JDP RENEW extends a lease. -/
def execRenew (k : Fin 16) (acked : Nat) (handle : Nat) (lease : Nat) (s : State) : Result :=
  runNet s fun v d => request v d k.val acked opRenew (leBytes 2 handle ++ [0, 0] ++ leBytes 4 lease)
/-- RELEASE (R381). JDP RELEASE frees a lease and discards its staged writes. -/
def execRelease (k : Fin 16) (acked : Nat) (handle : Nat) (s : State) : Result :=
  runNet s fun v d => request v d k.val acked opRelease (leBytes 2 handle ++ [0, 0])
/-- COMMIT (R380). JDP COMMIT applies the staged writes as one WRITE_MULTI. -/
def execCommit (k : Fin 16) (acked : Nat) (handle : Nat) (keep : Bool) (s : State) : Result :=
  runNet s fun v d => request v d k.val acked opCommit (leBytes 2 handle ++ leBytes 1 (b2n keep) ++ [0])
/-- SUBSCRIBE (R384). JDP SUBSCRIBE adds or removes subscriptions. -/
def execSubscribe (k : Fin 16) (acked : Nat) (action : Nat) (kind : Nat) (a : Addr) (s : State) : Result :=
  runNet s fun v d => request v d k.val acked opSubscribe (subBody action kind a)
/-- OPEN (R365). RESYNC mode OPEN opens a session. -/
def execOpenSession (binding : Nat) (src : Nat) (key : Fin 16) (role : Fin 4) (timeout : Nat) (nonce : Bytes) (s : State) : Result :=
  runNet s fun v d => openRequest v d binding src key.val role.val timeout nonce
/-- REJOIN (R386). RESYNC mode REJOIN rekeys the session, frees its locks and replays. -/
def execRejoin (k : Fin 16) (src : Nat) (key : Fin 16) (seen : Nat) (timeout : Nat) (nonce : Bytes) (s : State) : Result :=
  runNet s fun v d => rejoinRequest v d k.val src key.val seen timeout nonce
/-- REPLAY (R385). RESYNC mode REPLAY replays retained notifications. -/
def execReplay (k : Fin 16) (acked : Nat) (seen : Nat) (s : State) : Result :=
  runNet s fun v d => request v d k.val acked opResync (resyncBody 2 0 0 seen [] 0)
/-- BLOCK_READ (R377). BLOCK direction 0 reads a piece of a DOMAIN object. -/
def execBlockRead (k : Fin 16) (acked : Nat) (a : Addr) (off : Nat) (len : Nat) (s : State) : Result :=
  runNet s fun v d => request v d k.val acked opBlock (blockBody 0 a off len [])
/-- BLOCK_WRITE (R377). BLOCK direction 1 writes or assembles a piece. -/
def execBlockWrite (k : Fin 16) (acked : Nat) (a : Addr) (off : Nat) (b : Bytes) (s : State) : Result :=
  runNet s fun v d => request v d k.val acked opBlock (blockBody 1 a off b.length b)
/-- BLOCK_WRITE_LAST (R377). BLOCK direction 2 applies the assembled value. -/
def execBlockWriteLast (k : Fin 16) (acked : Nat) (a : Addr) (off : Nat) (b : Bytes) (s : State) : Result :=
  runNet s fun v d => request v d k.val acked opBlock (blockBody 2 a off b.length b)
/-- NOP (R360). JDP NOP keeps the session alive and carries ACK. -/
def execNop (k : Fin 16) (acked : Nat) (s : State) : Result := runNet s fun v d => request v d k.val acked opNop []
/-- HELD_REQUEST_EXPIRY (R369). A held request is discarded after 1 s. -/
def execHeldRequestExpiry (k : Fin 16) (s : State) : Result := run s fun _ d => heldExpiry d k.val
/-- SESSION_TIMEOUT (R368). A session receives nothing for its timeout and ends. -/
def execSessionTimeout (k : Fin 16) (s : State) : Result := run s fun _ d => sessionTimeout d k.val
/-- OPENING_TIMEOUT (R368). No request arrives within 2 s of OPEN and the session ends. -/
def execOpeningTimeout (k : Fin 16) (s : State) : Result := run s fun _ d => openingTimeout d k.val
/-- LEASE_EXPIRY (R381). A lease expires, discarding its staged writes and queuing LOCK_LOST. -/
def execLeaseExpiry (k : Fin 32) (s : State) : Result := run s fun _ d => leaseExpiry d k.val
/-- SESSION_CLOSE (R368). jdp.ses.cmd CLOSE ends a session. -/
def execSessionClose (k : Fin 16) (s : State) : Result := runBoth s fun v d => ownerWrite v d [part1 O.jdpSesCmd 1 k.val]
/-- BINDING_WRITE (R391). A write that disables a binding or changes the UDP port closes that binding's sessions. -/
def execBindingWrite (field : BindingField) (value : Nat) (s : State) : Result :=
  runBoth s fun v d => ownerWrite v d [part1 (bindingObj field) value]
/-- WRITE_MSG (R388). Host SPI WRITE_MSG delivers an inbound message. -/
def execWriteMsg (known : Bool) (len : Nat) (b : Bytes) (s : State) : Result :=
  runNet s fun v d => if known then writeMsg v d len b else (v, spiUnknown d)
/-- READ_STATUS (R388). Host SPI READ_STATUS returns the port status and clears its flags. -/
def execReadStatus (s : State) : Result := run s fun _ d => readStatus d
/-- READ_MSG (R388). Host SPI READ_MSG reads out the next outbound message. -/
def execReadMsg (count : Nat) (s : State) : Result := run s fun _ d => readMsg d count
/-- CAN_FRAME (R388). A CAN FD frame carrying a JDP segment is received and assembled. -/
def execCanFrame (p : Fin 2) (id : Nat) (extended : Bool) (b : Bytes) (s : State) : Result :=
  runNet s fun v d => canFrame v d p.val id extended b
/-- CAN_REASSEMBLY_TIMEOUT (R388). More than 100 ms between frames discards a partial message. -/
def execCanReassemblyTimeout (p : Fin 2) (chan : Fin 8) (s : State) : Result := run s fun _ d => canTimeout d p.val chan.val

end Sys2Proof.Machine
end

