-- ==== Sys2Proof/Machine/ExecRing.lean ====
section
/-! DEFINITION. The meanings of the commands of the Hedgerow ring. -/
namespace Sys2Proof.Machine

/-- HL_FRAME_ORIGINATE (R436). The head originates a frame in each direction every 8 µs. -/
def execHlFrameOriginate (tick : Fin 250) (first : Fin 40) (count : Nat) (s : State) : Result :=
  run s fun _ d => hlOriginate d tick.val first.val count
/-- HL_FRAME (R436). A Hedgerow frame is received and forwarded, with event fields, ACC and packets processed. -/
def execHlFrame (p : Fin 2) (tick : Fin 250) (sd : Fin 5) (fwd : Nat) (first : Fin 40) (cells : List Bytes) (s : State) : Result :=
  runNet s fun v d => hlFrame v d p.val tick.val sd.val fwd first.val cells
/-- HL_PORT_DOWN (R438). The third bad or missing frame mark takes a port down and loops the traffic back. -/
def execHlPortDown (p : Fin 2) (s : State) : Result := run s fun _ d => hlPortDown d p.val
/-- HL_ISOLATED (R440). No ring frame for 3 frames isolates a member. -/
def execHlIsolated (s : State) : Result := run s fun _ d => hlIsolated d
/-- ELECT_DELAY (R439). An AUTO node in SEARCH begins forming after elect_delay. -/
def execElectDelay (s : State) : Result := run s fun _ d => electDelay d
/-- DICT_REQ (R389). A routed dictionary request is executed at the addressed node. -/
def execDictReq (k : Fin 16) (role : Fin 4) (b : Bytes) (s : State) : Result :=
  runNet s fun v d => dictReq v d (16 * role.val + k.val) b
/-- DICT_RSP (R389). A routed dictionary response returns to the head. -/
def execDictRsp (node : Fin 64) (k : Fin 16) (b : Bytes) (s : State) : Result :=
  runNet s fun v d => dictRsp v d node.val k.val b
/-- NOTIF_PACKET (R451). A node's notification packet is queued at the head. -/
def execNotifPacket (node : Fin 64) (seq : Nat) (b : Bytes) (s : State) : Result :=
  run s fun _ d => notifPacket d node.val seq b
/-- RESULT_PACKET (R450). A node's result packet reaches the head's streams. -/
def execResultPacket (node : Fin 64) (stream : Fin 16) (seq : Nat) (b : Bytes) (s : State) : Result :=
  run s fun _ d => resultPacket d node.val stream.val seq b
/-- FORM (R439). A FORM packet resolves the head election. -/
def execForm (priority : Nat) (role : Nat) (uid : Nat) (s : State) : Result := run s fun _ d => formPacket d priority role uid
/-- ALIVE (R442). An ALIVE packet confirms or rejoins a member. -/
def execAlive (node : Fin 64) (uid : Nat) (pos : Nat) (measured : Bool) (s : State) : Result :=
  run s fun _ d => alivePacket d node.val uid pos (b2n measured)
/-- BREAK (R452). A BREAK packet makes the head declare WRAPPED and recover the lines. -/
def execBreakPacket (pos : Nat) (port : Fin 2) (s : State) : Result := run s fun _ d => breakPacket d pos port.val
/-- UNWRAP (R453). An UNWRAP packet names the mark for removing a loopback. -/
def execUnwrap (mark : Int) (s : State) : Result := run s fun _ d => unwrapPacket d mark
/-- RECOVER_REQUEST (R447). The head asks for a member's missed term changes. -/
def execRecoverRequest (start : Int) (s : State) : Result := run s fun _ d => recoverRequest d start
/-- RECOVER_REPLY (R447). A member's reply lets the head deliver the missed line changes. -/
def execRecoverReply (node : Fin 64) (left : Nat) (l : List (Int × Nat)) (s : State) : Result :=
  run s fun _ d => recoverReply d node.val left l
/-- LINK (R443). A LINK packet updates the link delay measurement. -/
def execLink (p : Fin 2) (sent : Nat) (rcvd : Nat) (s : State) : Result := run s fun _ d => linkPacket d p.val sent rcvd
/-- ALIVE_SEND (R442). Each millisecond a member sends ALIVE. -/
def execAliveSend (s : State) : Result := run s fun _ d => aliveSend d
/-- LINK_SEND (R443). Each millisecond a port sends LINK. -/
def execLinkSend (p : Fin 2) (s : State) : Result := run s fun _ d => linkSend d p.val
/-- NODE_LEFT (R442). 3 ms without ALIVE makes the head declare that a node has left the ring. -/
def execNodeLeft (node : Fin 64) (s : State) : Result := runNet s fun v d => (v, nodeLeft d node.val)
/-- HL_REVERT_HOLD (R453). Both ends of a broken link stay up for revert_hold and the head sends UNWRAP. -/
def execHlRevertHold (s : State) : Result := run s fun _ d => hlRevertHold d
/-- HL_UNWRAP_MARK (R453). At mark M_u the loopbacks are removed. -/
def execHlUnwrapMark (s : State) : Result := run s fun _ d => unwrapMark d
/-- REFORM (R442). hl.cmd REFORM starts a new epoch. -/
def execReform (s : State) : Result := runBoth s fun v d => ownerWrite v d [part1 O.hlCmd 1]
/-- HL_ENABLE (R440). A write of hl.enable starts or stops the ring ports. -/
def execHlEnable (on : Bool) (s : State) : Result := runBoth s fun v d => ownerWrite v d [part1 O.hlEnable (b2n on)]
/-- LINK_FRAME_ORIGINATE (R438). A node that receives no ring frames originates its own link frames so that its neighbours can
train. -/
def execLinkFrameOriginate (p : Fin 2) (tick : Fin 250) (sd : Fin 5) (s : State) : Result :=
  run s fun _ d => hlLinkFrame d p.val tick.val sd.val

end Sys2Proof.Machine
end

