-- ==== Sys2Proof/Machine/ExecSecurity.lean ====
section
/-! DEFINITION. The meanings of the commands of keys, firmware, debug and random numbers. -/
namespace Sys2Proof.Machine

/-- KEY_SET (R546). A write of sec.key.set installs a wrapped role key. -/
def execKeySet (k : Fin 16) (slot : Fin 16) (b : Bytes) (s : State) : Result :=
  runBoth s fun v d => bytesWrite v d (whoOf d k.val (nextCseq d k.val)) ⟨O.secKeySet, slot.val, 0⟩ none b
/-- KEY_ERASE (R546). sec.key.cmd ERASE empties a key slot. -/
def execKeyErase (slot : Fin 16) (s : State) : Result := runBoth s fun v d => ownerWrite v d [part1 O.secKeyCmd 1 slot.val]
/-- ENTROPY_TEST_FAIL (R547). An entropy health test fails and OPEN and REJOIN are refused. -/
def execEntropyTestFail (s : State) : Result := run s fun _ d => entropyTest d true
/-- FW_BEGIN (R549). sec.fw.cmd BEGIN erases the slot that is not running. -/
def execFwBegin (s : State) : Result := runBoth s fun v d => ownerWrite v d [part1 O.secFwCmd 1]
/-- FW_IMAGE_WRITE (R549). A BLOCK write of sec.fw.image programs the slot. -/
def execFwImageWrite (off : Nat) (b : Bytes) (s : State) : Result :=
  runBoth s fun v d => bytesWrite v d {} ⟨O.secFwImage, 0, 0⟩ (some off) b
/-- FW_VERIFY (R549). sec.fw.cmd VERIFY checks the loaded slot. -/
def execFwVerify (s : State) : Result := runBoth s fun v d => ownerWrite v d [part1 O.secFwCmd 2]
/-- FW_INSTALL (R549). sec.fw.cmd INSTALL writes the boot record for the new slot. -/
def execFwInstall (s : State) : Result := runBoth s fun v d => ownerWrite v d [part1 O.secFwCmd 3]
/-- FW_ABORT (R549). sec.fw.cmd ABORT abandons the update. -/
def execFwAbort (s : State) : Result := runBoth s fun v d => ownerWrite v d [part1 O.secFwCmd 4]
/-- FW_REVOKE (R550). A write of sec.fw.revoke revokes a firmware key for good. -/
def execFwRevoke (key : Fin 4) (s : State) : Result := runBoth s fun v d => ownerWrite v d [part1 O.secFwRevoke key.val]
/-- DEBUG_UNLOCK (R551). sec.dbg.cmd UNLOCK unlocks debug for its duration. -/
def execDebugUnlock (s : State) : Result := runBoth s fun v d => ownerWrite v d [part1 O.secDbgCmd 1]
/-- DEBUG_LOCK (R551). sec.dbg.cmd LOCK locks debug. -/
def execDebugLock (s : State) : Result := runBoth s fun v d => ownerWrite v d [part1 O.secDbgCmd 2]
/-- DEBUG_LOCK_EXPIRY (R551). The debug duration expires and debug locks again. -/
def execDebugLockExpiry (s : State) : Result := run s fun _ d => debugRelock d
/-- DEBUG_PEEK (R390). The JTAG port PEEKs an object while debug is unlocked. -/
def execDebugPeek (a : Addr) (s : State) : Result := run s fun v d => debugPeek v d a
/-- JTAG_TAP_RESET (R573). The TAP resets after five TCK cycles with TMS high. -/
def execJtagTapReset (s : State) : Result := run s fun _ d => tapReset d
/-- FW_VERIFY_DONE (R549). The read-back of the loaded firmware slot completes and sets VERIFIED or FAILED. -/
def execFwVerifyDone (s : State) : Result := run s fun v d => fwVerifyDone v d
/-- ENTROPY_TEST_PASS (R547). The entropy health tests pass again, and sec.rng.state returns to OK so that OPEN and REJOIN are
served. -/
def execEntropyTestPass (s : State) : Result := run s fun _ d => entropyTest d false

end Sys2Proof.Machine
end

