-- ==== Sys2Proof/Machine/ExecSequence.lean ====
section
/-! DEFINITION. The meanings of the commands of sequencers. -/
namespace Sys2Proof.Machine

/-- SEQ_ARM (R226). seq.cmd ARM sets the output register to seq.init and arms the sequencer. -/
def execSeqArm (n : Fin 96) (s : State) : Result := runBoth s fun v d => ownerWrite v d [part1 O.seqCmd 1 n.val]
/-- SEQ_START (R226). seq.cmd START computes S0 and enters the first segment. -/
def execSeqStart (n : Fin 96) (s : State) : Result := runBoth s fun v d => ownerWrite v d [part1 O.seqCmd 2 n.val]
/-- SEQ_STOP (R226). seq.cmd STOP returns the sequencer to IDLE. -/
def execSeqStop (n : Fin 96) (s : State) : Result := runBoth s fun v d => ownerWrite v d [part1 O.seqCmd 3 n.val]
/-- SEGMENT_TABLE_WRITE (R231). A write of seg.table is checked and applied segment by segment. -/
def execSegmentTableWrite (off : Nat) (b : Bytes) (s : State) : Result :=
  runBoth s fun v d => bytesWrite v d {} ⟨O.segTable, 0, 0⟩ (some off) b
/-- LIST_WRITE (R231). A write of list.data is applied entry by entry. -/
def execListWrite (off : Nat) (b : Bytes) (s : State) : Result :=
  runBoth s fun v d => bytesWrite v d {} ⟨O.listData, 0, 0⟩ (some off) b
/-- GUARD_WRITE (R220). A write of a guard entry is in force from the next evaluation. -/
def execGuardWrite (n : Fin 96) (guard : Fin 7) (field : GuardField) (value : Int) (s : State) : Result :=
  runBoth s fun v d => ownerWrite v d [part1 (guardObj field) value n.val guard.val]

end Sys2Proof.Machine
end

