-- ==== Sys2Proof/Machine/ExecTime.lean ====
section
/-! DEFINITION. The meanings of the commands of the cycle time base and time of day. -/
namespace Sys2Proof.Machine

/-- CTB_SOURCE_CHANGE (R277). A write of ctb.src or of the selecting object goes to OFF or ACQUIRE. -/
def execCtbSourceChange (field : CtbField) (value : Nat) (s : State) : Result :=
  runBoth s fun v d => ownerWrite v d [part1 (ctbObj field) value]
/-- CTB_REACQUIRE (R277). ctb.cmd REACQUIRE restarts acquisition. -/
def execCtbReacquire (s : State) : Result := runBoth s fun v d => ownerWrite v d [part1 O.ctbCmd 1]
/-- CTB_EDGE (R270). A source edge is delivered to the CTB and is accepted or rejected by the tracking loop. -/
def execCtbEdge (tick : Fin 250) (back : Nat) (s : State) : Result := run s fun _ d => ctbEdge d tick.val back
/-- CTB_ENCODER_COUNT (R281). A quadrature count changes the encoder position and high-water state. -/
def execCtbEncoderCount (tick : Fin 250) (a : Bool) (b : Bool) (s : State) : Result :=
  run s fun _ d => ctbEncoderCount d tick.val a b
/-- CTB_COAST_TIMEOUT (R277). 1.5 T without an accepted edge enters COASTING. -/
def execCtbCoastTimeout (tick : Fin 250) (s : State) : Result := run s fun _ d => ctbCoastTimeout d tick.val
/-- CTB_STALL_TIMEOUT (R277). The coast limit expires, entering STALL and raising the CTB source. -/
def execCtbStallTimeout (tick : Fin 250) (s : State) : Result := run s fun _ d => ctbStallTimeout d tick.val
/-- CTB_INSTANT (R274). acc reaches a scheduled value: an aperture edge, a sequencer or scan start, or a phase event. -/
def execCtbInstant (tick : Fin 250) (s : State) : Result := run s fun _ d => ctbInstant d tick.val
/-- TOD_SAMPLE (R291). An offset sample from the time source is accepted or rejected and qualifies the source. -/
def execTodSample (x : TimeSample) (s : State) : Result := run s fun _ d => todSample d x
/-- TOD_SOURCE_LOSS (R292). loss_n intervals without a sample lose the source, and reselection or HOLDOVER follows. -/
def execTodSourceLoss (k : Fin 4) (s : State) : Result := run s fun _ d => todSourceLoss d k.val
/-- TOD_SWITCH_HOLDOFF (R293). A higher-priority source stays qualified for the hold-off and is selected. -/
def execTodSwitchHoldoff (k : Fin 4) (s : State) : Result := run s fun _ d => todSwitchHoldoff d k.val
/-- TOD_HOLDOVER_EXPIRY (R296). holdover_max elapses and TOD goes to FREE. -/
def execTodHoldoverExpiry (s : State) : Result := run s fun _ d => todHoldoverExpiry d
/-- TOD_SECOND (R287). t passes a whole second and TOD_SEC is issued. -/
def execTodSecond (s : State) : Result := run s fun _ d => todSecond d
/-- TOD_STEP_APPLY (R295). A pending step is applied at the next second boundary. -/
def execTodStepApply (s : State) : Result := run s fun _ d => todStepApply d
/-- TOD_WRITE_APPLY (R297). A pending mode-0 time write is applied at the second boundary. -/
def execTodWriteApply (s : State) : Result := run s fun _ d => todWriteApply d
/-- LEAP_APPLY (R302). t reaches the leap instant and the UTC offset changes. -/
def execLeapApply (s : State) : Result := run s fun _ d => leapApply d
/-- RTC_LOAD (R289). Every rtc_sync seconds the RTC is loaded from TOD. -/
def execRtcLoad (counts : Nat) (s : State) : Result := run s fun _ d => rtcLoad d counts
/-- TOD_SET (R297). A write of tod.set sets the time now or at the next second. -/
def execTodSet (value : Int) (s : State) : Result := runBoth s fun v d => ownerWrite v d [part1 O.todSet value]
/-- TOD_CAL_SET (R297). A calendar write is checked and sets the time. -/
def execTodCalSet (b : Bytes) (s : State) : Result := runBoth s fun v d => bytesWrite v d {} ⟨O.todCalSet, 0, 0⟩ none b
/-- TOD_CANCEL (R298). tod.cmd CANCEL discards a pending write. -/
def execTodCancel (s : State) : Result := runBoth s fun v d => ownerWrite v d [part1 O.todCmd 1]
/-- UTC_OFFSET_WRITE (R301). A write of tod.utc_offset is applied at once as an offset change. -/
def execUtcOffsetWrite (value : Int) (s : State) : Result := runBoth s fun v d => ownerWrite v d [part1 O.todUtcOffset value]
/-- LEAP_SCHEDULE (R301). A write of tod.leap.at or tod.leap.dir schedules a checked leap. -/
def execLeapSchedule (field : LeapField) (value : Int) (s : State) : Result :=
  runBoth s fun v d => ownerWrite v d [part1 (leapObj field) value]
/-- PTP_MESSAGE (R431). A PTP message is received and processed by the PTP port. -/
def execPtpMessage (p : Fin 2) (tick : Fin 250) (b : Bytes) (s : State) : Result :=
  run s fun _ d => ptpMessage d p.val tick.val b
/-- PTP_INTERVAL (R430). A PTP message interval or receipt timeout expires. -/
def execPtpInterval (timer : PtpTimer) (tick : Fin 250) (s : State) : Result := run s fun _ d => ptpInterval d timer tick.val
/-- PTP_PORT_FAILOVER (R433). E0 has been down for 1 s, or up for 10 s, and PTP moves port. -/
def execPtpPortFailover (s : State) : Result := run s fun _ d => ptpFailover d

end Sys2Proof.Machine
end

