-- ==== Sys2Proof/Machine/Dispatch.lean ====
section
/-! DEFINITION. Which meaning each command has. -/
namespace Sys2Proof.Machine

def exec (i : Instr) (s : State) : Host.Outcome State Fault Refusal :=
  match i with
  | .controllerFrame tick => Sys2Proof.Machine.execControllerFrame tick s
  | .upFrame n comma aligned inverted age rtt syms => Sys2Proof.Machine.execUpFrame n comma aligned inverted age rtt syms s
  | .descData n tag b => Sys2Proof.Machine.execDescData n tag b s
  | .status n tag b => Sys2Proof.Machine.execStatus n tag b s
  | .ack n tag b => Sys2Proof.Machine.execAck n tag b s
  | .event n tag b => Sys2Proof.Machine.execEvent n tag b s
  | .segmentResend n => Sys2Proof.Machine.execSegmentResend n s
  | .replyTimeout n => Sys2Proof.Machine.execReplyTimeout n s
  | .trainTimeout n => Sys2Proof.Machine.execTrainTimeout n s
  | .retrainTimeout n => Sys2Proof.Machine.execRetrainTimeout n s
  | .drainLimit n => Sys2Proof.Machine.execDrainLimit n s
  | .laneEnable n on => Sys2Proof.Machine.execLaneEnable n on s
  | .laneAttach n => Sys2Proof.Machine.execLaneAttach n s
  | .laneRetrain n => Sys2Proof.Machine.execLaneRetrain n s
  | .laneSafeRelease n => Sys2Proof.Machine.execLaneSafeRelease n s
  | .holdTimeoutWrite n value => Sys2Proof.Machine.execHoldTimeoutWrite n value s
  | .laneDivWrite n value => Sys2Proof.Machine.execLaneDivWrite n value s
  | .channelEnable n => Sys2Proof.Machine.execChannelEnable n s
  | .channelDisable n => Sys2Proof.Machine.execChannelDisable n s
  | .cascadeEngage n => Sys2Proof.Machine.execCascadeEngage n s
  | .cascadeDisengage n => Sys2Proof.Machine.execCascadeDisengage n s
  | .repClear n => Sys2Proof.Machine.execRepClear n s
  | .repBinsWrite n value => Sys2Proof.Machine.execRepBinsWrite n value s
  | .repDataWrite n b => Sys2Proof.Machine.execRepDataWrite n b s
  | .repModeWrite n value => Sys2Proof.Machine.execRepModeWrite n value s
  | .traceArm n => Sys2Proof.Machine.execTraceArm n s
  | .traceForce n => Sys2Proof.Machine.execTraceForce n s
  | .traceStop n => Sys2Proof.Machine.execTraceStop n s
  | .limitWrite n field value => Sys2Proof.Machine.execLimitWrite n field value s
  | .rangePolicyWrite n field value => Sys2Proof.Machine.execRangePolicyWrite n field value s
  | .apertureStart n => Sys2Proof.Machine.execApertureStart n s
  | .apertureStop n => Sys2Proof.Machine.execApertureStop n s
  | .resultWrite => Sys2Proof.Machine.execResultWrite s
  | .resultDispatch => Sys2Proof.Machine.execResultDispatch s
  | .streamEnable k => Sys2Proof.Machine.execStreamEnable k s
  | .seqArm n => Sys2Proof.Machine.execSeqArm n s
  | .seqStart n => Sys2Proof.Machine.execSeqStart n s
  | .seqStop n => Sys2Proof.Machine.execSeqStop n s
  | .segmentTableWrite off b => Sys2Proof.Machine.execSegmentTableWrite off b s
  | .listWrite off b => Sys2Proof.Machine.execListWrite off b s
  | .guardWrite n guard field value => Sys2Proof.Machine.execGuardWrite n guard field value s
  | .pointStart p => Sys2Proof.Machine.execPointStart p s
  | .pointStop p => Sys2Proof.Machine.execPointStop p s
  | .clearAlarm p => Sys2Proof.Machine.execClearAlarm p s
  | .pointRecordWrite p b => Sys2Proof.Machine.execPointRecordWrite p b s
  | .dispatchPass => Sys2Proof.Machine.execDispatchPass s
  | .pointWindowExpiry p => Sys2Proof.Machine.execPointWindowExpiry p s
  | .pathMakeTime p => Sys2Proof.Machine.execPathMakeTime p s
  | .pathSettleEnd p => Sys2Proof.Machine.execPathSettleEnd p s
  | .pointSettleEnd p => Sys2Proof.Machine.execPointSettleEnd p s
  | .pointListenTimeout p => Sys2Proof.Machine.execPointListenTimeout p s
  | .relayBusSlot => Sys2Proof.Machine.execRelayBusSlot s
  | .relayReply present frame => Sys2Proof.Machine.execRelayReply present frame s
  | .relayReread => Sys2Proof.Machine.execRelayReread s
  | .relayFaultLine => Sys2Proof.Machine.execRelayFaultLine s
  | .relayAudit => Sys2Proof.Machine.execRelayAudit s
  | .rbcStart => Sys2Proof.Machine.execRbcStart s
  | .releaseOrphans => Sys2Proof.Machine.execReleaseOrphans s
  | .allOff => Sys2Proof.Machine.execAllOff s
  | .relayCountClear r => Sys2Proof.Machine.execRelayCountClear r s
  | .relayCountSave => Sys2Proof.Machine.execRelayCountSave s
  | .scanArm n => Sys2Proof.Machine.execScanArm n s
  | .scanStart n => Sys2Proof.Machine.execScanStart n s
  | .scanStop n => Sys2Proof.Machine.execScanStop n s
  | .scanTimeStart n => Sys2Proof.Machine.execScanTimeStart n s
  | .scanNextEntry n => Sys2Proof.Machine.execScanNextEntry n s
  | .scanDelayEnd n => Sys2Proof.Machine.execScanDelayEnd n s
  | .ctbSourceChange field value => Sys2Proof.Machine.execCtbSourceChange field value s
  | .ctbReacquire => Sys2Proof.Machine.execCtbReacquire s
  | .ctbEdge tick back => Sys2Proof.Machine.execCtbEdge tick back s
  | .ctbEncoderCount tick a b => Sys2Proof.Machine.execCtbEncoderCount tick a b s
  | .ctbCoastTimeout tick => Sys2Proof.Machine.execCtbCoastTimeout tick s
  | .ctbStallTimeout tick => Sys2Proof.Machine.execCtbStallTimeout tick s
  | .ctbInstant tick => Sys2Proof.Machine.execCtbInstant tick s
  | .todSample x => Sys2Proof.Machine.execTodSample x s
  | .todSourceLoss k => Sys2Proof.Machine.execTodSourceLoss k s
  | .todSwitchHoldoff k => Sys2Proof.Machine.execTodSwitchHoldoff k s
  | .todHoldoverExpiry => Sys2Proof.Machine.execTodHoldoverExpiry s
  | .todSecond => Sys2Proof.Machine.execTodSecond s
  | .todStepApply => Sys2Proof.Machine.execTodStepApply s
  | .todWriteApply => Sys2Proof.Machine.execTodWriteApply s
  | .leapApply => Sys2Proof.Machine.execLeapApply s
  | .rtcLoad counts => Sys2Proof.Machine.execRtcLoad counts s
  | .todSet value => Sys2Proof.Machine.execTodSet value s
  | .todCalSet b => Sys2Proof.Machine.execTodCalSet b s
  | .todCancel => Sys2Proof.Machine.execTodCancel s
  | .utcOffsetWrite value => Sys2Proof.Machine.execUtcOffsetWrite value s
  | .leapSchedule field value => Sys2Proof.Machine.execLeapSchedule field value s
  | .ptpMessage p tick b => Sys2Proof.Machine.execPtpMessage p tick b s
  | .ptpInterval timer tick => Sys2Proof.Machine.execPtpInterval timer tick s
  | .ptpPortFailover => Sys2Proof.Machine.execPtpPortFailover s
  | .tinEdge k uv tick back code => Sys2Proof.Machine.execTinEdge k uv tick back code s
  | .tinOverrate k => Sys2Proof.Machine.execTinOverrate k s
  | .tinOverrateEnd k => Sys2Proof.Machine.execTinOverrateEnd k s
  | .tinStuck k => Sys2Proof.Machine.execTinStuck k s
  | .tinLatchTimeout k => Sys2Proof.Machine.execTinLatchTimeout k s
  | .tinLatchClear k => Sys2Proof.Machine.execTinLatchClear k s
  | .tinConfigWrite k field value => Sys2Proof.Machine.execTinConfigWrite k field value s
  | .tdcArm k => Sys2Proof.Machine.execTdcArm k s
  | .tdcStop k => Sys2Proof.Machine.execTdcStop k s
  | .tdcCalDone k k1 k2 => Sys2Proof.Machine.execTdcCalDone k k1 k2 s
  | .tdcTimeout k => Sys2Proof.Machine.execTdcTimeout k s
  | .tdcWindowEnd k => Sys2Proof.Machine.execTdcWindowEnd k s
  | .evioPinChange p level => Sys2Proof.Machine.execEvioPinChange p level s
  | .ermCycle c => Sys2Proof.Machine.execErmCycle c s
  | .softEvent value => Sys2Proof.Machine.execSoftEvent value s
  | .selectorWrite c value => Sys2Proof.Machine.execSelectorWrite c value s
  | .lutModeWrite k field value => Sys2Proof.Machine.execLutModeWrite k field value s
  | .evioPulseEnd p => Sys2Proof.Machine.execEvioPulseEnd p s
  | .sysLineSample tick => Sys2Proof.Machine.execSysLineSample tick s
  | .sysLineRelease => Sys2Proof.Machine.execSysLineRelease s
  | .apStartEdge n => Sys2Proof.Machine.execApStartEdge n s
  | .traceEdge n => Sys2Proof.Machine.execTraceEdge n s
  | .seqLineEdge k => Sys2Proof.Machine.execSeqLineEdge k s
  | .tiuGateEdge k tick => Sys2Proof.Machine.execTiuGateEdge k tick s
  | .scanLineEdge k => Sys2Proof.Machine.execScanLineEdge k s
  | .samUrgentEdge k c => Sys2Proof.Machine.execSamUrgentEdge k c s
  | .axdTrigEdge k c => Sys2Proof.Machine.execAxdTrigEdge k c s
  | .jrnMarkEdge => Sys2Proof.Machine.execJrnMarkEdge s
  | .samConversion k uV vref => Sys2Proof.Machine.execSamConversion k uV vref s
  | .samRestart k => Sys2Proof.Machine.execSamRestart k s
  | .samEntryWrite e value => Sys2Proof.Machine.execSamEntryWrite e value s
  | .samCalZero => Sys2Proof.Machine.execSamCalZero s
  | .samCalSpan => Sys2Proof.Machine.execSamCalSpan s
  | .samCalCompute role => Sys2Proof.Machine.execSamCalCompute role s
  | .samCalAbort => Sys2Proof.Machine.execSamCalAbort s
  | .axdArm k => Sys2Proof.Machine.execAxdArm k s
  | .axdStart k => Sys2Proof.Machine.execAxdStart k s
  | .axdStop k => Sys2Proof.Machine.execAxdStop k s
  | .axdStep k => Sys2Proof.Machine.execAxdStep k s
  | .axdFlush k => Sys2Proof.Machine.execAxdFlush k s
  | .axdPush k b => Sys2Proof.Machine.execAxdPush k b s
  | .axdTable k b => Sys2Proof.Machine.execAxdTable k b s
  | .axdLevel k value => Sys2Proof.Machine.execAxdLevel k value s
  | .axdSample k c => Sys2Proof.Machine.execAxdSample k c s
  | .read k acked a => Sys2Proof.Machine.execRead k acked a s
  | .write k acked x => Sys2Proof.Machine.execWrite k acked x s
  | .readMulti k acked l => Sys2Proof.Machine.execReadMulti k acked l s
  | .writeMulti k acked l => Sys2Proof.Machine.execWriteMulti k acked l s
  | .peek k acked a => Sys2Proof.Machine.execPeek k acked a s
  | .lock k acked node lease l => Sys2Proof.Machine.execLock k acked node lease l s
  | .renew k acked handle lease => Sys2Proof.Machine.execRenew k acked handle lease s
  | .release k acked handle => Sys2Proof.Machine.execRelease k acked handle s
  | .commit k acked handle keep => Sys2Proof.Machine.execCommit k acked handle keep s
  | .subscribe k acked action kind a => Sys2Proof.Machine.execSubscribe k acked action kind a s
  | .openSession binding src key role timeout nonce => Sys2Proof.Machine.execOpenSession binding src key role timeout nonce s
  | .rejoin k src key seen timeout nonce => Sys2Proof.Machine.execRejoin k src key seen timeout nonce s
  | .replay k acked seen => Sys2Proof.Machine.execReplay k acked seen s
  | .blockRead k acked a off len => Sys2Proof.Machine.execBlockRead k acked a off len s
  | .blockWrite k acked a off b => Sys2Proof.Machine.execBlockWrite k acked a off b s
  | .blockWriteLast k acked a off b => Sys2Proof.Machine.execBlockWriteLast k acked a off b s
  | .nop k acked => Sys2Proof.Machine.execNop k acked s
  | .heldRequestExpiry k => Sys2Proof.Machine.execHeldRequestExpiry k s
  | .sessionTimeout k => Sys2Proof.Machine.execSessionTimeout k s
  | .openingTimeout k => Sys2Proof.Machine.execOpeningTimeout k s
  | .leaseExpiry k => Sys2Proof.Machine.execLeaseExpiry k s
  | .sessionClose k => Sys2Proof.Machine.execSessionClose k s
  | .bindingWrite field value => Sys2Proof.Machine.execBindingWrite field value s
  | .writeMsg known len b => Sys2Proof.Machine.execWriteMsg known len b s
  | .readStatus => Sys2Proof.Machine.execReadStatus s
  | .readMsg count => Sys2Proof.Machine.execReadMsg count s
  | .canFrame p id extended b => Sys2Proof.Machine.execCanFrame p id extended b s
  | .canReassemblyTimeout p chan => Sys2Proof.Machine.execCanReassemblyTimeout p chan s
  | .store => Sys2Proof.Machine.execStore s
  | .storeDone ok => Sys2Proof.Machine.execStoreDone ok s
  | .restore => Sys2Proof.Machine.execRestore s
  | .defaults => Sys2Proof.Machine.execDefaults s
  | .erase => Sys2Proof.Machine.execErase s
  | .mirrorRefresh => Sys2Proof.Machine.execMirrorRefresh s
  | .stickyFlagsRead index sub => Sys2Proof.Machine.execStickyFlagsRead index sub s
  | .trackerRead max e => Sys2Proof.Machine.execTrackerRead max e s
  | .hiwaterRead => Sys2Proof.Machine.execHiwaterRead s
  | .tinLatchRead k => Sys2Proof.Machine.execTinLatchRead k s
  | .fcrStatusRead severe w => Sys2Proof.Machine.execFcrStatusRead severe w s
  | .compatStatusRead k => Sys2Proof.Machine.execCompatStatusRead k s
  | .ethFrame p tick good b => Sys2Proof.Machine.execEthFrame p tick good b s
  | .mdioPoll p link full => Sys2Proof.Machine.execMdioPoll p link full s
  | .prpSupervision => Sys2Proof.Machine.execPrpSupervision s
  | .dhcpRenew iface => Sys2Proof.Machine.execDhcpRenew iface s
  | .dhcpRebind iface => Sys2Proof.Machine.execDhcpRebind iface s
  | .arpAgeing iface => Sys2Proof.Machine.execArpAgeing iface s
  | .prpModeWrite field iface value => Sys2Proof.Machine.execPrpModeWrite field iface value s
  | .canBusOffRecovery p => Sys2Proof.Machine.execCanBusOffRecovery p s
  | .hlFrameOriginate tick first count => Sys2Proof.Machine.execHlFrameOriginate tick first count s
  | .hlFrame p tick sd fwd first cells => Sys2Proof.Machine.execHlFrame p tick sd fwd first cells s
  | .hlPortDown p => Sys2Proof.Machine.execHlPortDown p s
  | .hlIsolated => Sys2Proof.Machine.execHlIsolated s
  | .electDelay => Sys2Proof.Machine.execElectDelay s
  | .dictReq k role b => Sys2Proof.Machine.execDictReq k role b s
  | .dictRsp node k b => Sys2Proof.Machine.execDictRsp node k b s
  | .notifPacket node seq b => Sys2Proof.Machine.execNotifPacket node seq b s
  | .resultPacket node stream seq b => Sys2Proof.Machine.execResultPacket node stream seq b s
  | .form priority role uid => Sys2Proof.Machine.execForm priority role uid s
  | .alive node uid pos measured => Sys2Proof.Machine.execAlive node uid pos measured s
  | .breakPacket pos port => Sys2Proof.Machine.execBreakPacket pos port s
  | .unwrap mark => Sys2Proof.Machine.execUnwrap mark s
  | .recoverRequest start => Sys2Proof.Machine.execRecoverRequest start s
  | .recoverReply node left l => Sys2Proof.Machine.execRecoverReply node left l s
  | .link p sent rcvd => Sys2Proof.Machine.execLink p sent rcvd s
  | .aliveSend => Sys2Proof.Machine.execAliveSend s
  | .linkSend p => Sys2Proof.Machine.execLinkSend p s
  | .nodeLeft node => Sys2Proof.Machine.execNodeLeft node s
  | .hlRevertHold => Sys2Proof.Machine.execHlRevertHold s
  | .hlUnwrapMark => Sys2Proof.Machine.execHlUnwrapMark s
  | .reform => Sys2Proof.Machine.execReform s
  | .hlEnable on => Sys2Proof.Machine.execHlEnable on s
  | .clockLoss k => Sys2Proof.Machine.execClockLoss k s
  | .clockQualified k => Sys2Proof.Machine.execClockQualified k s
  | .hrcTrimWindow excess => Sys2Proof.Machine.execHrcTrimWindow excess s
  | .pllLock => Sys2Proof.Machine.execPllLock s
  | .relockTimeout => Sys2Proof.Machine.execRelockTimeout s
  | .qualTimeout => Sys2Proof.Machine.execQualTimeout s
  | .steerDone => Sys2Proof.Machine.execSteerDone s
  | .muxSwitchDone => Sys2Proof.Machine.execMuxSwitchDone s
  | .clockRevertHold => Sys2Proof.Machine.execClockRevertHold s
  | .revert => Sys2Proof.Machine.execRevert s
  | .refSelWrite value => Sys2Proof.Machine.execRefSelWrite value s
  | .clockGateWrite mask => Sys2Proof.Machine.execClockGateWrite mask s
  | .driftWindow => Sys2Proof.Machine.execDriftWindow s
  | .backupLimit => Sys2Proof.Machine.execBackupLimit s
  | .domainOn mask => Sys2Proof.Machine.execDomainOn mask s
  | .domainOff mask => Sys2Proof.Machine.execDomainOff mask s
  | .domainSwitchDone n => Sys2Proof.Machine.execDomainSwitchDone n s
  | .quiet => Sys2Proof.Machine.execQuiet s
  | .pmuRun => Sys2Proof.Machine.execPmuRun s
  | .standby => Sys2Proof.Machine.execStandby s
  | .resetRequest straps => Sys2Proof.Machine.execResetRequest straps s
  | .confirm => Sys2Proof.Machine.execConfirm s
  | .powerOnReset => Sys2Proof.Machine.execPowerOnReset s
  | .resetPinLow => Sys2Proof.Machine.execResetPinLow s
  | .resetPinHigh straps => Sys2Proof.Machine.execResetPinHigh straps s
  | .resetStuckGuard straps => Sys2Proof.Machine.execResetStuckGuard straps s
  | .resetPinRearm => Sys2Proof.Machine.execResetPinRearm s
  | .powerFailWarning => Sys2Proof.Machine.execPowerFailWarning s
  | .watchdogExpiry core straps => Sys2Proof.Machine.execWatchdogExpiry core straps s
  | .coreReset core => Sys2Proof.Machine.execCoreReset core s
  | .laneReset mask => Sys2Proof.Machine.execLaneReset mask s
  | .unitReset mask => Sys2Proof.Machine.execUnitReset mask s
  | .bootImageVerified => Sys2Proof.Machine.execBootImageVerified s
  | .bootConfirmTime => Sys2Proof.Machine.execBootConfirmTime s
  | .wake src detail straps => Sys2Proof.Machine.execWake src detail straps s
  | .powerOff => Sys2Proof.Machine.execPowerOff s
  | .faultRaise src level cause detail line => Sys2Proof.Machine.execFaultRaise src level cause detail line s
  | .faultAck => Sys2Proof.Machine.execFaultAck s
  | .fcrSafe => Sys2Proof.Machine.execFcrSafe s
  | .faultInject b => Sys2Proof.Machine.execFaultInject b s
  | .heartbeatMiss => Sys2Proof.Machine.execHeartbeatMiss s
  | .checkpoint => Sys2Proof.Machine.execCheckpoint s
  | .coreRejoin core ok => Sys2Proof.Machine.execCoreRejoin core ok s
  | .debugHalt core => Sys2Proof.Machine.execDebugHalt core s
  | .debugHaltEnd core => Sys2Proof.Machine.execDebugHaltEnd core s
  | .recheck => Sys2Proof.Machine.execRecheck s
  | .leaveSafe => Sys2Proof.Machine.execLeaveSafe s
  | .restoreLane lane => Sys2Proof.Machine.execRestoreLane lane s
  | .laneGraceExpiry n => Sys2Proof.Machine.execLaneGraceExpiry n s
  | .flashProgramDone ok => Sys2Proof.Machine.execFlashProgramDone ok s
  | .flashStall => Sys2Proof.Machine.execFlashStall s
  | .sealInterval => Sys2Proof.Machine.execSealInterval s
  | .sealNow => Sys2Proof.Machine.execSealNow s
  | .format => Sys2Proof.Machine.execFormat s
  | .jrnVerify => Sys2Proof.Machine.execJrnVerify s
  | .jrnVerifyDone => Sys2Proof.Machine.execJrnVerifyDone s
  | .ackTo value => Sys2Proof.Machine.execAckTo value s
  | .pageRefresh sector => Sys2Proof.Machine.execPageRefresh sector s
  | .adopt n role => Sys2Proof.Machine.execAdopt n role s
  | .calBlockWrite block role b => Sys2Proof.Machine.execCalBlockWrite block role b s
  | .calTagWrite n role tag => Sys2Proof.Machine.execCalTagWrite n role tag s
  | .calZero role => Sys2Proof.Machine.execCalZero role s
  | .calMid role => Sys2Proof.Machine.execCalMid role s
  | .calSpan role => Sys2Proof.Machine.execCalSpan role s
  | .calCompute role => Sys2Proof.Machine.execCalCompute role s
  | .calOut role => Sys2Proof.Machine.execCalOut role s
  | .calAbort role => Sys2Proof.Machine.execCalAbort role s
  | .calMeasureDone => Sys2Proof.Machine.execCalMeasureDone s
  | .keySet k slot b => Sys2Proof.Machine.execKeySet k slot b s
  | .keyErase slot => Sys2Proof.Machine.execKeyErase slot s
  | .entropyTestFail => Sys2Proof.Machine.execEntropyTestFail s
  | .fwBegin => Sys2Proof.Machine.execFwBegin s
  | .fwImageWrite off b => Sys2Proof.Machine.execFwImageWrite off b s
  | .fwVerify => Sys2Proof.Machine.execFwVerify s
  | .fwInstall => Sys2Proof.Machine.execFwInstall s
  | .fwAbort => Sys2Proof.Machine.execFwAbort s
  | .fwRevoke key => Sys2Proof.Machine.execFwRevoke key s
  | .debugUnlock => Sys2Proof.Machine.execDebugUnlock s
  | .debugLock => Sys2Proof.Machine.execDebugLock s
  | .debugLockExpiry => Sys2Proof.Machine.execDebugLockExpiry s
  | .debugPeek a => Sys2Proof.Machine.execDebugPeek a s
  | .jtagTapReset => Sys2Proof.Machine.execJtagTapReset s
  | .domainSwitchedOffByFault n => Sys2Proof.Machine.execDomainSwitchedOffByFault n s
  | .vbatBelowMinimum => Sys2Proof.Machine.execVbatBelowMinimum s
  | .powerOnResetRelease counts size able straps => Sys2Proof.Machine.execPowerOnResetRelease counts size able straps s
  | .dhcpLeaseExpiry iface => Sys2Proof.Machine.execDhcpLeaseExpiry iface s
  | .canBusError p transmit heavy => Sys2Proof.Machine.execCanBusError p transmit heavy s
  | .linkFrameOriginate p tick sd => Sys2Proof.Machine.execLinkFrameOriginate p tick sd s
  | .fwVerifyDone => Sys2Proof.Machine.execFwVerifyDone s
  | .entropyTestPass => Sys2Proof.Machine.execEntropyTestPass s

end Sys2Proof.Machine
end

