-- ==== Sys2Proof/WellFormed.lean ====
section
/-! DEFINITION. Well-formed commands: every operand fits the field that carries it.  A meaning is total on every command; what an
ill-formed one does says nothing about the hardware. -/
namespace Sys2Proof
open Sys2Proof.Machine

/-- An unsigned and a signed number of `w` bits. -/
def u (w x : Nat) : Bool := decide (x < 2 ^ w)
def s (w : Nat) (x : Int) : Bool := decide (-(2 ^ (w - 1) : Int) ≤ x ∧ x < 2 ^ (w - 1))
/-- A number that an object of type `t` can carry. -/
def fits (t : Ty) (x : Int) : Bool :=
  let w := 8 * (tyLen t).getD 0
  if tySigned t then s w x else decide (0 ≤ x ∧ x < 2 ^ w)
def atMost (n : Nat) (b : Bytes) : Bool := decide (b.length ≤ n)
def addrOk (a : Addr) : Bool := u 16 a.index && u 8 a.sub && u 8 a.node
def itemOk (x : Item) : Bool := addrOk x.addr && u 8 x.typ && atMost 1040 x.data

def Instr.wellFormed : Instr → Bool
  | .controllerFrame tick => u 32 tick
  | .upFrame _ _ _ _ _ rtt syms => decide (rtt ≤ 5000) && decide (syms.length ≤ 128)
  | .descData _ tag b => u 8 tag && atMost 4096 b
  | .status _ tag b => u 8 tag && atMost 4096 b
  | .ack _ tag b => u 8 tag && atMost 4096 b
  | .event _ tag b => u 8 tag && atMost 4096 b
  | .segmentResend _ => true
  | .replyTimeout _ => true
  | .trainTimeout _ => true
  | .retrainTimeout _ => true
  | .drainLimit _ => true
  | .laneEnable _ _ => true
  | .laneAttach _ => true
  | .laneRetrain _ => true
  | .laneSafeRelease _ => true
  | .holdTimeoutWrite _ value => fits O.laneHoldTimeout.ty value
  | .laneDivWrite _ value => fits O.laneDiv.ty value
  | .channelEnable _ => true
  | .channelDisable _ => true
  | .cascadeEngage _ => true
  | .cascadeDisengage _ => true
  | .repClear _ => true
  | .repBinsWrite _ value => fits O.chRepBins.ty value
  | .repDataWrite _ b => atMost 8192 b
  | .repModeWrite _ value => fits O.chRepMode.ty value
  | .traceArm _ => true
  | .traceForce _ => true
  | .traceStop _ => true
  | .limitWrite _ field value => fits (limitObj field).ty value
  | .rangePolicyWrite _ field value => fits (rangeObj field).ty value
  | .apertureStart _ => true
  | .apertureStop _ => true
  | .resultWrite => true
  | .resultDispatch => true
  | .streamEnable _ => true
  | .seqArm _ => true
  | .seqStart _ => true
  | .seqStop _ => true
  | .segmentTableWrite off b => decide (off + b.length ≤ 262144) && atMost 1008 b
  | .listWrite off b => decide (off + b.length ≤ 2097152) && atMost 1008 b
  | .guardWrite _ _ field value => fits (guardObj field).ty value
  | .pointStart _ => true
  | .pointStop _ => true
  | .clearAlarm _ => true
  | .pointRecordWrite _ b => decide (b.length = 192)
  | .dispatchPass => true
  | .pointWindowExpiry _ => true
  | .pathMakeTime _ => true
  | .pathSettleEnd _ => true
  | .pointSettleEnd _ => true
  | .pointListenTimeout _ => true
  | .relayBusSlot => true
  | .relayReply _ frame => u 32 frame
  | .relayReread => true
  | .relayFaultLine => true
  | .relayAudit => true
  | .rbcStart => true
  | .releaseOrphans => true
  | .allOff => true
  | .relayCountClear _ => true
  | .relayCountSave => true
  | .scanArm _ => true
  | .scanStart _ => true
  | .scanStop _ => true
  | .scanTimeStart _ => true
  | .scanNextEntry _ => true
  | .scanDelayEnd _ => true
  | .ctbSourceChange field value => fits (ctbObj field).ty value
  | .ctbReacquire => true
  | .ctbEdge _ back => u 32 back
  | .ctbEncoderCount _ _ _ => true
  | .ctbCoastTimeout _ => true
  | .ctbStallTimeout _ => true
  | .ctbInstant _ => true
  | .todSample _ => true
  | .todSourceLoss _ => true
  | .todSwitchHoldoff _ => true
  | .todHoldoverExpiry => true
  | .todSecond => true
  | .todStepApply => true
  | .todWriteApply => true
  | .leapApply => true
  | .rtcLoad counts => u 40 counts
  | .todSet value => fits O.todSet.ty value
  | .todCalSet b => atMost 1020 b
  | .todCancel => true
  | .utcOffsetWrite value => fits O.todUtcOffset.ty value
  | .leapSchedule field value => fits (leapObj field).ty value
  | .ptpMessage _ _ b => atMost 1500 b
  | .ptpInterval _ _ => true
  | .ptpPortFailover => true
  | .tinEdge _ uv _ back code => decide (uv.length ≤ 250) && uv.all (s 32) && u 32 back && u 16 code
  | .tinOverrate _ => true
  | .tinOverrateEnd _ => true
  | .tinStuck _ => true
  | .tinLatchTimeout _ => true
  | .tinLatchClear _ => true
  | .tinConfigWrite _ field value => fits (tinObj field).ty value
  | .tdcArm _ => true
  | .tdcStop _ => true
  | .tdcCalDone _ k1 k2 => u 32 k1 && u 32 k2
  | .tdcTimeout _ => true
  | .tdcWindowEnd _ => true
  | .evioPinChange _ _ => true
  | .ermCycle _ => true
  | .softEvent value => fits O.ermSoft.ty value
  | .selectorWrite _ value => fits O.ermInSel.ty value
  | .lutModeWrite _ field value => fits (lutObj field).ty value
  | .evioPulseEnd _ => true
  | .sysLineSample _ => true
  | .sysLineRelease => true
  | .apStartEdge _ => true
  | .traceEdge _ => true
  | .seqLineEdge _ => true
  | .tiuGateEdge _ _ => true
  | .scanLineEdge _ => true
  | .samUrgentEdge _ _ => true
  | .axdTrigEdge _ _ => true
  | .jrnMarkEdge => true
  | .samConversion _ uV vref => s 32 uV && u 32 vref
  | .samRestart _ => true
  | .samEntryWrite _ value => fits O.samECfg.ty value
  | .samCalZero => true
  | .samCalSpan => true
  | .samCalCompute _ => true
  | .samCalAbort => true
  | .axdArm _ => true
  | .axdStart _ => true
  | .axdStop _ => true
  | .axdStep _ => true
  | .axdFlush _ => true
  | .axdPush _ b => atMost 1020 b
  | .axdTable _ b => atMost 1020 b
  | .axdLevel _ value => fits O.axdLevel.ty value
  | .axdSample _ _ => true
  | .read _ acked a => u 32 acked && addrOk a
  | .write _ acked x => u 32 acked && itemOk x
  | .readMulti _ acked l => u 32 acked && decide (l.length ≤ 255) && l.all addrOk
  | .writeMulti _ acked l => u 32 acked && decide (l.length ≤ 255) && l.all itemOk
  | .peek _ acked a => u 32 acked && addrOk a
  | .lock _ acked node lease l => u 32 acked && u 8 node && u 32 lease && decide (l.length ≤ 255) && l.all fun r => u 16 r.1 && u 16 r.2
  | .renew _ acked handle lease => u 32 acked && u 16 handle && u 32 lease
  | .release _ acked handle => u 32 acked && u 16 handle
  | .commit _ acked handle _ => u 32 acked && u 16 handle
  | .subscribe _ acked action kind a => u 32 acked && u 8 action && u 8 kind && addrOk a
  | .openSession binding src _ _ timeout nonce => u 8 binding && u 64 src && u 16 timeout && decide (nonce.length = 16)
  | .rejoin _ src _ seen timeout nonce => u 64 src && u 32 seen && u 16 timeout && decide (nonce.length = 16)
  | .replay _ acked seen => u 32 acked && u 32 seen
  | .blockRead _ acked a off len => u 32 acked && addrOk a && u 32 off && u 16 len
  | .blockWrite _ acked a off b => u 32 acked && addrOk a && u 32 off && atMost 1012 b
  | .blockWriteLast _ acked a off b => u 32 acked && addrOk a && u 32 off && atMost 1012 b
  | .nop _ acked => u 32 acked
  | .heldRequestExpiry _ => true
  | .sessionTimeout _ => true
  | .openingTimeout _ => true
  | .leaseExpiry _ => true
  | .sessionClose _ => true
  | .bindingWrite field value => fits (bindingObj field).ty value
  | .writeMsg _ len b => u 16 len && atMost 65535 b
  | .readStatus => true
  | .readMsg count => u 16 count
  | .canFrame _ id extended b => (if extended then u 29 id else u 11 id) && atMost 64 b
  | .canReassemblyTimeout _ _ => true
  | .store => true
  | .storeDone _ => true
  | .restore => true
  | .defaults => true
  | .erase => true
  | .mirrorRefresh => true
  | .stickyFlagsRead index sub => u 16 index && u 8 sub
  | .trackerRead _ _ => true
  | .hiwaterRead => true
  | .tinLatchRead _ => true
  | .fcrStatusRead _ _ => true
  | .compatStatusRead _ => true
  | .ethFrame _ _ _ b => atMost 2048 b
  | .mdioPoll _ _ _ => true
  | .prpSupervision => true
  | .dhcpRenew _ => true
  | .dhcpRebind _ => true
  | .arpAgeing _ => true
  | .prpModeWrite field _ value => fits (addressObj field).ty value
  | .canBusOffRecovery _ => true
  | .hlFrameOriginate _ first count => decide (first.val + count ≤ 40)
  | .hlFrame _ _ _ fwd _ cells => decide (fwd ≤ 40) && cells.all fun c => decide (c.length = 50)
  | .hlPortDown _ => true
  | .hlIsolated => true
  | .electDelay => true
  | .dictReq _ _ b => atMost 1053 b
  | .dictRsp _ _ b => atMost 1053 b
  | .notifPacket _ seq b => u 16 seq && atMost 1053 b
  | .resultPacket _ _ seq b => u 16 seq && atMost 1053 b
  | .form priority role uid => u 8 priority && u 8 role && u 64 uid
  | .alive _ uid pos _ => u 64 uid && u 8 pos
  | .breakPacket pos _ => u 8 pos
  | .unwrap mark => s 64 mark
  | .recoverRequest start => s 64 start
  | .recoverReply _ left l => u 8 left && l.all fun e => s 64 e.1 && u 16 e.2
  | .link _ sent rcvd => u 64 sent && u 64 rcvd
  | .aliveSend => true
  | .linkSend _ => true
  | .nodeLeft _ => true
  | .hlRevertHold => true
  | .hlUnwrapMark => true
  | .reform => true
  | .hlEnable _ => true
  | .clockLoss _ => true
  | .clockQualified _ => true
  | .hrcTrimWindow excess => s 32 excess
  | .pllLock => true
  | .relockTimeout => true
  | .qualTimeout => true
  | .steerDone => true
  | .muxSwitchDone => true
  | .clockRevertHold => true
  | .revert => true
  | .refSelWrite value => fits O.clkRefSel.ty value
  | .clockGateWrite mask => fits O.clkGate.ty mask
  | .driftWindow => true
  | .backupLimit => true
  | .domainOn mask => fits O.pmuPdOn.ty mask
  | .domainOff mask => fits O.pmuPdOff.ty mask
  | .domainSwitchDone _ => true
  | .quiet => true
  | .pmuRun => true
  | .standby => true
  | .resetRequest straps => u 9 straps
  | .confirm => true
  | .powerOnReset => true
  | .resetPinLow => true
  | .resetPinHigh straps => u 9 straps
  | .resetStuckGuard straps => u 9 straps
  | .resetPinRearm => true
  | .powerFailWarning => true
  | .watchdogExpiry _ straps => u 9 straps
  | .coreReset core => fits O.pmuCoreReset.ty core
  | .laneReset mask => fits O.pmuLaneReset.ty mask
  | .unitReset mask => fits O.pmuUnitReset.ty mask
  | .bootImageVerified => true
  | .bootConfirmTime => true
  | .wake src detail straps => u 8 src && u 8 detail && u 9 straps
  | .powerOff => true
  | .faultRaise _ _ cause detail _ => u 8 cause && u 32 detail
  | .faultAck => true
  | .fcrSafe => true
  | .faultInject b => decide (b.length = 8)
  | .heartbeatMiss => true
  | .checkpoint => true
  | .coreRejoin _ _ => true
  | .debugHalt _ => true
  | .debugHaltEnd _ => true
  | .recheck => true
  | .leaveSafe => true
  | .restoreLane lane => fits O.fallowRestoreLane.ty lane
  | .laneGraceExpiry _ => true
  | .flashProgramDone _ => true
  | .flashStall => true
  | .sealInterval => true
  | .sealNow => true
  | .format => true
  | .jrnVerify => true
  | .jrnVerifyDone => true
  | .ackTo value => fits O.jrnAckTo.ty value
  | .pageRefresh sector => u 32 sector
  | .adopt _ _ => true
  | .calBlockWrite _ _ b => atMost 1020 b
  | .calTagWrite _ _ tag => fits O.chCalTag.ty tag
  | .calZero _ => true
  | .calMid _ => true
  | .calSpan _ => true
  | .calCompute _ => true
  | .calOut _ => true
  | .calAbort _ => true
  | .calMeasureDone => true
  | .keySet _ _ b => decide (b.length = 34)
  | .keyErase _ => true
  | .entropyTestFail => true
  | .fwBegin => true
  | .fwImageWrite off b => decide (off + b.length ≤ 16777216) && atMost 1008 b
  | .fwVerify => true
  | .fwInstall => true
  | .fwAbort => true
  | .fwRevoke _ => true
  | .debugUnlock => true
  | .debugLock => true
  | .debugLockExpiry => true
  | .debugPeek a => addrOk a
  | .jtagTapReset => true
  | .domainSwitchedOffByFault _ => true
  | .vbatBelowMinimum => true
  | .powerOnResetRelease counts size _ straps => u 40 counts && u 48 size && u 9 straps
  | .dhcpLeaseExpiry _ => true
  | .canBusError _ _ _ => true
  | .linkFrameOriginate _ _ _ => true
  | .fwVerifyDone => true
  | .entropyTestPass => true

end Sys2Proof
end

