-- ==== Sys2Proof/Safety.lean ====
section
/-! DEFINITION. What counts as a safe run, and the terms the statements use. -/
namespace Sys2Proof.Machine

/-- The keys partition never loses its last OWNER key (R546). -/
abbrev State.guarded (s : State) : Prop := s.vault.hasOwner = true

/-- What the cell of an address reads as when it is not listed. -/
def cellDflt (k : Nat) : Val := match lookup (k / 256) (k % 256) with | some l => dfltAt l.o l.i l.g | none => .num 0

/-- The objects, the segment table and list memory are in their canonical form. -/
abbrev Dev.cellsWf (d : Dev) : Prop :=
  tabWf cellDflt d.objs = true ∧ tabWf (fun _ => 0) d.bank.seg = true ∧ tabWf (fun _ => 0) d.bank.list = true

/-- The device as a command finds it: nothing sent yet. -/
def State.ready (s : State) : Dev := s.dev.quietOut

/-- The state with the device `d`; the queue and the keys partition as they are. -/
def State.became (s : State) (d : Dev) : State := { s with dev := d }

/-- A request has been answered without an abort and with an empty body. -/
def Dev.answered (d : Dev) : Dev := { d with jdp := { d.jdp with resp := {} } }

/-- A read has been answered with `body`. -/
def Dev.answers (d : Dev) (body : Bytes) : Dev := { d with jdp := { d.jdp with resp := { body := body } } }

/-- The state after an accepted write that leaves the device `d`. -/
def State.wrote (s : State) (d : Dev) : State := s.became d.answered

/-- The same for a value that the dictionary keeps: its word of bank 1 is rewritten (R45). -/
def State.put (s : State) (l : Loc) (d : Dev) : State := s.wrote (sharedWrite l d)

/-- A write of one object passes conditions 6 to 9 of R375 for an OWNER that holds no lock. -/
abbrev State.takes (s : State) (p : Part) : Prop :=
  partCode s.ready (putPart s.ready p) {} [p] false p = none

/-- The same for a session of a role, whose role suffices. -/
abbrev State.takesAs (s : State) (role : Nat) (p : Part) : Prop :=
  writeRole { role := role } p.l ≤ role ∧ partCode s.ready (putPart s.ready p) { role := role } [p] false p = none

/-- What leaves the device once a dictionary operation is over: sessions whose node left are answered, messages go to their networks. -/
def leaving (v : Vault) (d : Dev) : Vault × Dev := ((settle v d).1, flushOut (settle v d).2)

/-- The next request of session `k` runs at once (R368, R369): the session is open and served, none of its requests is held or
awaited, and its CSEQ can rise. -/
abbrev State.asks (s : State) (k : Nat) : Prop :=
  sesState s.ready k = 2 ∧ served s.ready (sesBinding s.ready k) = true ∧ (s.ready.ses k).awaiting = none ∧
    (s.ready.ses k).held = [] ∧ s.ready.nat O.jdpSesCseq k < 0xFFFFFFFF

/-- The CSEQ of that request. -/
def State.turn (s : State) (k : Nat) : Nat := s.ready.nat O.jdpSesCseq k + 1

/-- The device once the request has been taken in: the time, the acknowledged number and the peer it came from are kept. -/
def State.heard (s : State) (k acked : Nat) : Dev :=
  ((((s.ready.onSes k fun x => { x with lastAt := s.ready.up }).setN O.jdpSesAck acked k).onSes k fun x =>
    { x with iface := sesSrc s.ready k / 2 ^ 48 }).setN O.jdpSesPeer (sesSrc s.ready k % 2 ^ 48) k)

/-- The session as the one who asks. -/
def State.asker (s : State) (k acked : Nat) : Who := whoOf (s.heard k acked) k (s.turn k)

/-- The state after the operation `op` with the body `b`, answered with `body`, that left `v` and `d`. -/
def State.replied (s : State) (k acked op : Nat) (b body : Bytes) (v : Vault) (d : Dev) (rep : List (Nat × Bytes) := []) : State :=
  s.become (leaving v (finish (s.heard k acked) k op (s.turn k) b false body rep { d with jdp := { d.jdp with resp := { body := body } } }))

end Sys2Proof.Machine
end

