-- ==== Sys2Proof/Certificates/Slice0/Obligations.lean ====
section
/-! DEFINITION. The statements of slice 0. -/
open Sys2Proof Sys2Proof.Machine

/-- A step is the front command's effect on the state with the queue's rest; and every command completes, in every state: it answers
a next state with the queue as it is. -/
def Obligations.StepRunsFrontCommand : Prop :=
  ∀ (s : State) (c : Instr) (rest : List Instr), step { s with pending := c :: rest } = exec c { s with pending := rest } ∧
    ∃ (v : Vault) (d : Dev), exec c s = .next { s with vault := v, dev := d }

/-- On an empty queue the block idles (the model's choice: notes/assumptions/2.md). -/
def Obligations.EmptyQueueIdles : Prop := ∀ (s : State), s.pending = [] → step s = .next s

/-- R485, R487, R492, R496: the part as it comes out of reset is held, with nothing queued, and the release of the power-on reset puts
it into BOOT with cause 1 and the reason of that release; with no image in a slot (the model's choice: notes/assumptions/4.md) it asks
for its replacement. -/
def Obligations.PowerOnResetReleasesIntoBoot : Prop :=
  State.reset.pending = [] ∧ State.reset.dev.pmu.held = true ∧ State.reset.dev.nat O.pmuResetPin = 0 ∧
    ∃ e, exec (.powerOnResetRelease 0 8388608 true 0) State.reset = .next (State.reset.became e) ∧ e.pmu.held = false ∧
      e.nat O.pmuResetPin = 1 ∧ e.nat O.devState = 0 ∧ e.nat O.pmuResetCause = 1 ∧ e.nat O.devReason = 0x0101 ∧
      e.nat O.pmuPdState = 0x40000001 ∧ e.replace = true

/-- The part is shipped with an OWNER key (the model's choice of key: notes/assumptions/5.md). -/
def Obligations.ResetHoldsAnOwnerKey : Prop := State.reset.guarded

/-- R546: no step of any command takes the last OWNER key away. -/
def Obligations.StepsKeepAnOwnerKey : Prop := ∀ (s t : State), s.guarded → step s = .next t → t.guarded

/-- R550: a confirmed slot raises the least security version to its own and no step lowers it; a write of a key index sets that key's
revocation bit, no step clears one, and the write is refused with STATE when it would revoke the key of the running slot or of the
only other valid slot. -/
def Obligations.VersionsAndRevocationsNeverGoBack : Prop :=
  (∀ (v : Vault) (d : Dev) (k : Nat), (fwConfirm v d k).1.minSvn = max v.minSvn (fwSvn (fwSlot d k))) ∧
  (∀ (s t : State), step s = .next t →
    s.vault.minSvn ≤ t.vault.minSvn ∧ ∀ k, bit s.vault.revoked k = true → bit t.vault.revoked k = true) ∧
  (∀ (s : State) (key : Fin 4), s.takes (part1 O.secFwRevoke key) →
    let o := fwOther s.ready
    let barred := (fwSlot s.ready s.ready.fw.running ≠ [] ∧ fwKey (fwSlot s.ready s.ready.fw.running) = key) ∨
      (fwValid s.vault s.ready o = true ∧ fwKey (fwSlot s.ready o) = key)
    (¬ barred → ∃ t, exec (.fwRevoke key) s = .next t ∧ bit t.vault.revoked key = true) ∧
    (barred → ∃ t, exec (.fwRevoke key) s = .next t ∧ t.vault = s.vault ∧ t.dev.jdp.resp.code = aState))

/-- R21, R546: an operation of a session below OWNER leaves the keys partition as it is. -/
def Obligations.OnlyAnOwnerChangesKeys : Prop :=
  ∀ (v v' : Vault) (d d' : Dev) (w : Who) (op : Nat) (b : Bytes) (r : Resp) (rep : List (Nat × Bytes)),
    w.role < 3 → runOp v d w op b = .done r v' d' rep → v' = v

/-- R21: the roles rise in their order, and what passes for a role passes for every role above it: a read, an item of a write, its
conditions, a subscription and a lock. -/
def Obligations.RolesAreOrdered : Prop :=
  roleNum .observer < roleNum .operator ∧ roleNum .operator < roleNum .calibrator ∧ roleNum .calibrator < roleNum .owner ∧
  ∀ (d : Dev) (w x : Who), w.role ≤ x.role → x = { w with role := x.role } →
    (∀ l, readCode d w l = none → readCode d x l = none) ∧
    (∀ l, hasEffect d w l = true → hasEffect d x l = true) ∧
    (∀ y l, itemLoc d w y = .ok l → itemLoc d x y = .ok l) ∧
    (∀ after all skip p, partCode d after w all skip p = none → partCode d after x all skip p = none) ∧
    (∀ u, subCode w u = none → subCode x u = none) ∧
    (∀ v b h lease e, lockOp v d w b = opOk v e (lockAnswer h lease) → lockOp v d x b = opOk v e (lockAnswer h lease))

/-- R22: a read of an RW or RWS object is refused for no role, and one of an RO or CONST object exactly for the roles below its own. -/
def Obligations.ReadRightsFollowTheRole : Prop :=
  ∀ (d : Dev) (w : Who) (l : Loc),
    (l.o.acc = .rw ∨ l.o.acc = .rws → ∀ n, readCode d w l ≠ some ⟨aRole, n⟩) ∧
    (l.o.acc = .ro ∨ l.o.acc = .const →
      (w.role < roleNum l.o.role → readCode d w l = some ⟨aRole, roleNum l.o.role⟩) ∧
      (roleNum l.o.role ≤ w.role → ∀ n, readCode d w l ≠ some ⟨aRole, n⟩))

/-- R26: a read or a write of an index that no chapter defines is refused with NO_OBJECT. -/
def Obligations.ReservedIndicesAreRefused : Prop :=
  ∀ (v : Vault) (d : Dev) (w : Who) (index sub : Nat), lookup index sub = none →
    (∀ peek, readAt v d w peek index sub = .error ⟨aNoObject, 0⟩) ∧
    (∀ off len, blockRead d w index sub off len = .error ⟨aNoObject, 0⟩) ∧
    (∀ typ offset data, writeItems v d w [⟨index, sub, typ, offset, data⟩] = .error (0, ⟨aNoObject, 0⟩))

/-- R502: the times of raises are kept by a controller reset and lost at a power-on reset; a new window or threshold of a source empties
the ring of that source and of no other. -/
def Obligations.RingsOfRaisesAreKept : Prop :=
  ∀ (d : Dev),
    (resetHold d).fcr.rings = d.fcr.rings ∧ (clearPower d).fcr.rings = [] ∧
    ∀ (o : Obj) (i g : Nat), o = O.fcrSrcWindow ∨ o = O.fcrSrcThresh →
      tabGet [] (writeEffect d ⟨o, i, g⟩ d).fcr.rings (i * 128 + g) = [] ∧
      ∀ k, k ≠ i * 128 + g → tabGet [] (writeEffect d ⟨o, i, g⟩ d).fcr.rings k = tabGet [] d.fcr.rings k

/-- R375: a write that is refused changes nothing but the answer, which carries the code of the refusal. -/
def Obligations.RefusedWritesChangeNothing : Prop :=
  ∀ (v v' : Vault) (d d' : Dev) (w : Who) (multi : Bool) (xs : List Staged) (r : Resp) (rep : List (Nat × Bytes)),
    writeOp v d w multi xs = .done r v' d' rep → r.code ≠ 0 → v' = v ∧ d' = d ∧ rep = []

/-- R392, R393: an address names one cell: what is put at it reads back there, and every other address reads as before. -/
def Obligations.AddressesNameTheirOwnCells : Prop :=
  ∀ (d : Dev) (x : Val) (index sub : Nat) (l : Loc), sub < 256 → lookup index sub = some l →
    (d.put l.o x l.i l.g).val l.o l.i l.g = x ∧
    ∀ (index' sub' : Nat) (m : Loc), sub' < 256 → lookup index' sub' = some m → (index', sub') ≠ (index, sub) →
      (d.put l.o x l.i l.g).val m.o m.i m.g = d.val m.o m.i m.g

/-- The stores of objects, segments and lists keep their canonical form: keys rising, nothing listed that reads as the default. -/
def Obligations.StoresKeepTheirForm : Prop :=
  State.reset.dev.cellsWf ∧
  ∀ (d : Dev), d.cellsWf →
    (∀ (index sub : Nat) (l : Loc) (x : Val), sub < 256 → lookup index sub = some l → (d.put l.o x l.i l.g).cellsWf) ∧
    (∀ (list : Bool) (k : Nat) (ws : List Nat), (bankWrite list k ws d).cellsWf)

/-- R18: a right shift rounds to the nearest value, a tie to the even one, and narrowing saturates. -/
def Obligations.RoundingIsToNearestEven : Prop :=
  (∀ (x : Int) (k : Nat), 0 < k →
    let r := roundShift x k
    2 * (x - r * 2 ^ k) ≤ 2 ^ k ∧ -(2 ^ k : Int) ≤ 2 * (x - r * 2 ^ k) ∧ (2 * (x - r * 2 ^ k).natAbs = 2 ^ k → r % 2 = 0)) ∧
  (∀ (x : Int), roundShift x 0 = x) ∧
  (∀ (x : Int), (2147483647 < x → narrow32 x = 2147483647) ∧ (x < -2147483648 → narrow32 x = -2147483648) ∧
    (-2147483648 ≤ x → x ≤ 2147483647 → narrow32 x = x))

/-- R69, R74, R75, R83, R84: an up-frame that meets every condition of R69 is held for its frame with its round trip, and one that
fails any of them is rejected and counted, as is one that an injected fault spoils; a lane that does not transmit takes none. A
segment unacknowledged for 16 frames goes out again, 8 times, and then the channel has failed, as it has when a request stays
unanswered; a training attempt that runs out starts the next, the third is a fault of cause 2; a retraining that runs out before
alignment is a fault of cause 6; a drain that reaches its limit ends. Each of them leaves a lane in any other state as it is. -/
def Obligations.LinkFramesAndTimeouts : Prop :=
  ∀ (s : State) (n : Fin 12),
    (∀ (comma : Sym) (aligned inverted : Bool) (age : Fin 4) (rtt : Nat) (syms : List Sym) (b : Bytes) (good : Bool),
      b = symBytes 100 (comma :: syms) →
      good = (aligned && inverted == bit (s.ready.lane n).polInForce 1 && symsOk 96 (comma :: syms) && upCrcOk b &&
        (parseUp b).fcount == (s.ready.frame - age) % 65536 && decide ((parseUp b).sstate ≤ ssFault) && decide (age.val ≤ s.ready.frame)) →
      (s.ready.nat O.laneState n = lsOff ∨ (s.ready.lane n).transmitting = false →
        exec (.upFrame n comma aligned inverted age rtt syms) s = .next (s.became s.ready)) ∧
      (s.ready.nat O.laneState n ≠ lsOff → (s.ready.lane n).transmitting = true →
        (∀ x, s.ready.fcr.inject = some x → x.target ≠ 3 ∨ x.unit ≠ n ∨ x.left = 0) →
        exec (.upFrame n comma aligned inverted age rtt syms) s = .next (s.became
          (if good then s.ready.onLane n fun l =>
            { l with swl := tabPut l.swl (s.ready.frame - age) { parseUp b with rtt := 400 * rtt } }
          else (s.ready.onLane n fun l => { l with rejectedAt := (s.ready.frame - age) :: l.rejectedAt }).bump O.laneLinkErrUp n))) ∧
      (∀ (x : Inject), s.ready.nat O.laneState n ≠ lsOff → (s.ready.lane n).transmitting = true → s.ready.fcr.inject = some x → x.target = 3 →
        x.unit = n → 0 < x.left →
        exec (.upFrame n comma aligned inverted age rtt syms) s = .next (s.became
          (({ s.ready with fcr := { s.ready.fcr with inject := if x.left = 1 then none else some { x with left := x.left - 1 } } }.onLane n
            fun l => { l with rejectedAt := (s.ready.frame - age) :: l.rejectedAt }).bump O.laneLinkErrUp n)))) ∧
    ((s.ready.lane n).inFlight = false ∨ (s.ready.lane n).txPending = true →
      exec (.segmentResend n) s = .next (s.became s.ready)) ∧
    ((s.ready.lane n).inFlight = true → (s.ready.lane n).txPending = false →
      exec (.segmentResend n) s = .next (s.became (if (s.ready.lane n).txResends < 8 then
        (s.ready.onLane n fun l => { l with txPending := true, txResends := l.txResends + 1 }).bump O.laneMsgResends n
        else channelFailed s.ready n))) ∧
    exec (.replyTimeout n) s = .next (s.became (if (s.ready.lane n).request = none then s.ready else channelFailed s.ready n)) ∧
    exec (.trainTimeout n) s = .next (s.became (if s.ready.nat O.laneState n ≠ lsTrain then s.ready
      else if 3 ≤ (s.ready.lane n).attempt then toFault s.ready n 2 else startTrain s.ready n ((s.ready.lane n).attempt + 1))) ∧
    exec (.retrainTimeout n) s = .next (s.became (if s.ready.nat O.laneState n ≠ lsRetrain then s.ready
      else if (s.ready.lane n).aligned then s.ready.onLane n fun l => { l with retrainLate := true } else toFault s.ready n 6)) ∧
    exec (.drainLimit n) s = .next (s.became (if s.ready.nat O.laneState n = lsDrain then drainDone s.ready n else s.ready))

/-- R38, R63, R75, R76, R78, R83: a controller frame advances the clocks, then every lane in order; a reply with the tag and the
type of the request outstanding is taken in and ends that request, and without a request outstanding none is; CMD_REFUSED is taken
in without a request. -/
def Obligations.FramesAndRepliesAreTaken : Prop :=
  ∀ (s : State),
    (∀ (tick : Nat), s.ready.nat O.devState ≠ 6 →
      exec (.controllerFrame tick) s = .next (s.became (let d := driftFrame (frameClock s.ready tick)
        let d := calFrame (poolFullFrame (cascadeSweep (frameLanes (seqFrame d d.frame))))
        if d.frame % 20 = 0 then forUpto 96 (fun n x => statusFollow x n) d else d))) ∧
    (∀ (n : Fin 12) (tag : Nat) (b : Bytes) (q : LMsg), (s.ready.lane n).request = some q → q.tag = tag →
      let d := s.ready.onLane n fun l =>
        { l with request := none, requestAt := none, txSegs := [], inFlight := false, txPending := false }
      (q.typ = 1 → exec (.descData n tag b) s =
        .next (s.became (autostartAfter n s.ready (onDescData d n (beField b 0 2) (b.drop 2))))) ∧
      (q.typ = 2 → b.length = 72 → exec (.status n tag b) s =
        .next (s.became (autostartAfter n s.ready (onStatus d n (parseStatus b))))) ∧
      (beField b 0 1 = q.typ → exec (.ack n tag b) s =
        .next (s.became (autostartAfter n s.ready (onAck d n q (beField b 1 1)))))) ∧
    (∀ (n : Fin 12) (tag : Nat) (b : Bytes), (s.ready.lane n).request = none →
      exec (.descData n tag b) s = .next (s.became (autostartAfter n s.ready s.ready)) ∧
      exec (.status n tag b) s = .next (s.became (autostartAfter n s.ready s.ready)) ∧
      exec (.ack n tag b) s = .next (s.became (autostartAfter n s.ready s.ready))) ∧
    (∀ (n : Fin 12) (tag : Nat) (b : Bytes), beField b 0 1 = 1 →
      exec (.event n tag b) s = .next (s.became (autostartAfter n s.ready (s.ready.onLane n fun l =>
        { l with refused := some (beField b 1 1, beField b 2 4 % 65536) }))))

/-- R34, R65, R82, R83, R92, R95: what the writes of a lane's objects do once they are accepted. -/
def Obligations.LaneWritesAct : Prop :=
  ∀ (s : State) (n : Fin 12),
    (∀ (on : Bool), s.takes (part1 O.laneEnable (b2n on) n) → exec (.laneEnable n on) s = .next (s.put ⟨O.laneEnable, n, 0⟩
      (if on then laneTry (s.ready.setB O.laneEnable true n) n else (s.ready.setB O.laneEnable false n).drainLane n false))) ∧
    (s.takes (part1 O.laneCmd 1 n) → s.ready.nat O.laneState n = lsLost → exec (.laneAttach n) s = .next (s.wrote
      ((s.ready.onLane n fun l => { l.send 2 [] with attach := true, lcmd := lcIdle, descBuf := [] }).setLaneState n lsDescribe))) ∧
    (s.takes (part1 O.laneCmd 1 n) → s.ready.nat O.laneState n = lsFault → exec (.laneAttach n) s = .next (s.wrote
      ((startTrain s.ready n 1).onLane n fun l => { l with attach := true }))) ∧
    (s.takes (part1 O.laneCmd 2 n) → s.ready.nat O.laneState n = lsRun → exec (.laneRetrain n) s = .next (s.wrote
      (toRetrain s.ready n))) ∧
    (s.takes (part1 O.laneCmd 3 n) → s.ready.nat O.laneState n = lsRun → s.ready.nat O.devState ≠ 4 →
      s.ready.nat O.laneSliceState n = ssSafe → (∃ x, (s.ready.lane n).status = some x ∧ rampsDone (s.ready.lane n).desc x = true) →
      exec (.laneSafeRelease n) s = .next (s.wrote
        (s.ready.onLane n fun l => l.send 5 [0xFF]))) ∧
    (∀ (value : Nat), (Instr.holdTimeoutWrite n value).wellFormed = true → s.takes (part1 O.laneHoldTimeout value n) → exec (.holdTimeoutWrite n value) s =
      .next (s.put ⟨O.laneHoldTimeout, n, 0⟩ (holdTimeoutEff (s.ready.setN O.laneHoldTimeout value n) n))) ∧
    (∀ (value : Nat), (Instr.laneDivWrite n value).wellFormed = true → s.takes (part1 O.laneDiv value n) → exec (.laneDivWrite n value) s =
      .next (s.put ⟨O.laneDiv, n, 0⟩ (s.ready.setN O.laneDiv value n)))

/-- R115, R116: an accepted `ch.enable` := 1 of a free channel whose lane runs, with its slot present, unsafed and with a range
to start in, connects at the slice: loop state CONNECT (HOLD-SENSE for mode 2), `ch.enable` 1, the enable time stamped, the
iteration count and the override cleared.  A write of 0 takes a closed loop through its ramp, disconnects a channel that connects or
senses, and leaves a disabled one. -/
def Obligations.ChannelEnableAndDisable : Prop :=
  ∀ (s : State) (n : Fin 96),
    (s.takes (part1 O.chEnable 1 n) → chBound s.ready n = false → s.ready.nat O.laneState (n / 8) = lsRun →
      s.ready.nat O.chForceLoopState n = 0 → slotPresent (s.ready.lane (n / 8)).desc (n % 8) = true →
      bit (s.ready.lane (n / 8)).safed (n % 8) = false → (startRanges s.ready n).isSome = true →
      ∃ e, exec (.channelEnable n) s = .next (s.wrote e) ∧
        e.nat O.chForceLoopState n = (if chMode s.ready n = 2 then 5 else 1) ∧ e.nat O.chEnable n = 1 ∧
        e.int O.chEnabledAt n = s.ready.now ∧ e.nat O.chForceIter n = 0 ∧ e.nat O.chRngOverride n = 0) ∧
    (s.takes (part1 O.chEnable 0 n) → chBound s.ready n = false → s.ready.nat O.chForceLoopState n = 2 →
      exec (.channelDisable n) s = .next (s.wrote
        (((s.ready.setN O.chForceLoopState 3 n).onChan n fun c => { c with drainFirst := true }).setN O.chEnable 0 n))) ∧
    (s.takes (part1 O.chEnable 0 n) → chBound s.ready n = false →
      s.ready.nat O.chForceLoopState n = 1 ∨ s.ready.nat O.chForceLoopState n = 5 →
      exec (.channelDisable n) s = .next (s.wrote (((s.ready.onLane (n / 8) fun l => { l with
        outs := l.outs.setIfInBounds (n % 8) { disconnected (l.outs[n.val % 8]?.getD {}) with dac := 0 } }).toDisabled n).setN O.chEnable 0 n))) ∧
    (s.takes (part1 O.chEnable 0 n) → chBound s.ready n = false → s.ready.nat O.chForceLoopState n = 0 →
      exec (.channelDisable n) s = .next (s.wrote (s.ready.setN O.chEnable 0 n)))

/-- R122, R123, R126, R140, R143, R144: a valid pair with its inner loop closed engages, and a pair disengages; CLEAR and a new
number of bins clear the bins; a write of the bins puts every word in force in the present range (R45: a word spoiled on its way is
marked). -/
def Obligations.CascadeAndBinsAct : Prop :=
  ∀ (s : State) (n : Fin 96),
    (s.takes (part1 O.chCascEngage 1 n) → chanRefused s.ready O.chCascEngage n = false → cascadeValid s.ready n = true →
      s.ready.nat O.chForceLoopState n = 2 → s.ready.on O.chCascEngage n = false →
      exec (.cascadeEngage n) s = .next (s.wrote (engage s.ready n))) ∧
    (s.takes (part1 O.chCascEngage 0 n) → chanRefused s.ready O.chCascEngage n = false → s.ready.on O.chCascEngage n = true →
      exec (.cascadeDisengage n) s = .next (s.wrote (disengage s.ready n false))) ∧
    (s.takes (part1 O.chRepCmd 1 n) → exec (.repClear n) s = .next (s.wrote (repClear s.ready n))) ∧
    ((repClear s.ready n).chan n).bins = [] ∧ (repClear s.ready n).nat O.chRepRange n = 0xFF ∧
    (repClear s.ready n).nat O.chRepCycles n = 0 ∧
    (∀ (value : Nat), (Instr.repBinsWrite n value).wellFormed = true → s.takes (part1 O.chRepBins value n) →
      exec (.repBinsWrite n value) s = .next (s.put ⟨O.chRepBins, n, 0⟩ (repClear (s.ready.setN O.chRepBins value n) n))) ∧
    (∀ (value : Nat), (Instr.repModeWrite n value).wellFormed = true → s.takes (part1 O.chRepMode value n) →
      exec (.repModeWrite n value) s = .next (s.put ⟨O.chRepMode, n, 0⟩ (s.ready.setN O.chRepMode value n))) ∧
    (∀ (b : Bytes), s.takes ⟨0, ⟨O.chRepData, n, 0⟩, b, none⟩ → writeLength s.ready ⟨O.chRepData, n, 0⟩ none b = true →
      chanRefused s.ready O.chRepData n = false → b.length = 4 * repN (s.ready.nat O.chRepBins n) →
      exec (.repDataWrite n b) s = .next (s.wrote (((memWrites s.ready (n / 8) (repN (s.ready.nat O.chRepBins n))).1.onChan n fun c =>
        { c with bins := (List.range (repN (s.ready.nat O.chRepBins n))).foldl (fun t j => tabSet 0 t j (leFieldI b (4 * j) 4)) [],
                 binErr := if (memWrites s.ready (n / 8) (repN (s.ready.nat O.chRepBins n))).2.2 = 2 then
                   List.range (memWrites s.ready (n / 8) (repN (s.ready.nat O.chRepBins n))).2.1 else [],
                 binErr1 := if (memWrites s.ready (n / 8) (repN (s.ready.nat O.chRepBins n))).2.2 = 1 then
                   List.range (memWrites s.ready (n / 8) (repN (s.ready.nat O.chRepBins n))).2.1 else [] }).setN O.chRepRange (repRangeByte (chMode s.ready n == 1)
          (if chMode s.ready n == 1 then (s.ready.chan n).iAct else (s.ready.chan n).vAct)) n)))

/-- R147, R148, R154, R180: a lane trace arms, is forced and stops; a write of a limit has its force range selected again at the
next iteration, and a write of range policy starts a policy test as well; inside a transition interval the values before the write
stay in force until its end (R180, R182). -/
def Obligations.TracesLimitsAndRangesAct : Prop :=
  ∀ (s : State),
    (∀ (n : Fin 12), s.takes (part1 O.chTraceCmd 1 (8 * n)) →
      s.ready.nat O.chTraceState (8 * n) = 0 ∨ s.ready.nat O.chTraceState (8 * n) = 4 →
      ∃ e, exec (.traceArm n) s = .next (s.wrote e) ∧
        e.nat O.chTraceState (8 * n) = (if s.ready.nat O.chTracePre (8 * n) = 0 then 2 else 1) ∧ e.nat O.chTracePreValid (8 * n) = 0 ∧
        e.traces = s.ready.traces.setIfInBounds n {}) ∧
    (∀ (n : Fin 12), s.takes (part1 O.chTraceCmd 2 (8 * n)) → s.ready.nat O.chTraceState (8 * n) = 2 →
      exec (.traceForce n) s = .next (s.wrote (s.ready.setTrace n { s.ready.trace n with forced := true }))) ∧
    (∀ (n : Fin 12), s.takes (part1 O.chTraceCmd 3 (8 * n)) → s.ready.nat O.chTraceState (8 * n) = 3 →
      exec (.traceStop n) s = .next (s.wrote ((s.ready.setTrace n {}).setN O.chTraceState 0 (8 * n)))) ∧
    (∀ (n : Fin 96) (field : LimitField) (value : Int), (Instr.limitWrite n field value).wellFormed = true →
      s.takes (part1 (limitObj field) value n) → exec (.limitWrite n field value) s = .next (s.put ⟨limitObj field, n, 0⟩
        (let d := holdRng s.ready (limitObj field) n (s.ready.setI (limitObj field) value n)
         if field = .absCount then d else limitSat (d.onChan n fun c => { c with reselect := true }) n))) ∧
    (∀ (n : Fin 96) (field : RangeField) (value : Nat), (Instr.rangePolicyWrite n field value).wellFormed = true →
      s.takes (part1 (rangeObj field) value n) → exec (.rangePolicyWrite n field value) s = .next (s.put ⟨rangeObj field, n, 0⟩
        (let d := holdRng s.ready (rangeObj field) n (s.ready.setN (rangeObj field) value n)
         if field = .iFloor ∨ field = .iCeil ∨ field = .iPin ∨ field = .vFloor ∨ field = .vCeil ∨ field = .vPin then
           d.onChan n fun c => { c with reselect := true, policyWait := true }
         else d)))

/-- R187, R190, R199, R200, R203, R205: an aperture sequence starts at the present instant and stops at it; the result of the
granted channel enters the pool with the next sequence number, and the oldest of the pool is judged and offered to the streams;
enabling a stream starts its counts again. -/
def Obligations.AperturesAndResultsAct : Prop :=
  ∀ (s : State),
    (∀ (n : Fin 96), s.takes (part1 O.chApCmd 1 n) → apStartRefused s.ready n = false →
      exec (.apertureStart n) s = .next (s.wrote
        (apBegin s.ready n s.ready.clk))) ∧
    (∀ (n : Fin 96), s.takes (part1 O.chApCmd 2 n) → chBound s.ready n = false → (s.ready.chan n).ap.running = true →
      exec (.apertureStop n) s = .next (s.wrote
        (apRefresh (s.ready.onChan n fun c => { c with ap := { c.ap with stopAt := some s.ready.clk } }) n))) ∧
    (∀ (n g : Nat) (p : Pending), nextGrant (occupied s.ready) = some (n, g) → s.ready.pool.length < 16384 →
      (s.ready.chan n).c = some p →
      ∃ e r, exec .resultWrite s = .next (s.became (poolUsed e)) ∧
        r = resultRecord n (s.ready.chan n).resSeq (s.ready.nat O.todState != 0) p ∧
        e.pool = s.ready.pool ++ [{ bytes := r, chan := n, point := p.acc.bind, seq := (s.ready.chan n).resSeq, dest := p.dest,
                                    ecc := (memWrite s.ready 13).2 }] ∧
        e.byt O.resLast n = r) ∧
    (s.ready.pool = [] → exec .resultDispatch s = .next (s.became s.ready)) ∧
    (∀ (x : PoolRec) (rest : List PoolRec), s.ready.pool = x :: rest → x.ecc = 2 →
      exec .resultDispatch s = .next (s.became (poolUsed ({ s.ready with pool := rest }.raise 50 0 1 3 true)))) ∧
    (∀ (x : PoolRec) (rest : List PoolRec), s.ready.pool = x :: rest → x.ecc ≠ 2 → bit x.dest 0 = false → x.point = 0xFFFF →
      exec .resultDispatch s = .next (s.became
        (let d := poolUsed { (if x.ecc = 1 then countFixed s.ready 13 1 else s.ready) with pool := rest }
         if bit x.dest 1 then forUpto 16 (offerStream { x with jseq := 0 }) d else d))) ∧
    (∀ (k : Fin 16), s.takes (part1 O.resStreamEnable 1 k) →
      ∃ e, exec (.streamEnable k) s = .next (s.put ⟨O.resStreamEnable, k, 0⟩ e) ∧ e.on O.resStreamEnable k = true ∧ e.nat O.resStreamTaken k = 0 ∧
        e.nat O.resStreamDropped k = 0 ∧
        e.streams = s.ready.streams.filter fun x => decide (x.1 < 96 * k.val ∨ 96 * k.val + 96 ≤ x.1))

/-- R218, R220, R226, R231: a sequencer arms, starts at the next frame and halts; accepted bytes of the segment table and of list
memory are put in their bank, and a guard entry comes into force. -/
def Obligations.SequencersAct : Prop :=
  ∀ (s : State),
    (∀ (n : Fin 96), s.takes (part1 O.seqCmd 1 n) → chBound s.ready n = false → s.ready.nat O.seqState n = 0 →
      s.ready.nat O.laneState (n / 8) ≠ 0 → s.ready.nat O.seqStartSrc n ≠ 2 →
      exec (.seqArm n) s = .next (s.wrote (seqArm s.ready n))) ∧
    (∀ (n : Fin 96), s.takes (part1 O.seqCmd 2 n) → chBound s.ready n = false → s.ready.nat O.seqState n = 1 →
      exec (.seqStart n) s = .next (s.wrote (seqSetState ((s.ready.setSeqr n
        { first := s.ready.nat O.seqFirst n, exp := s.ready.nat O.seqExp n, s0 := s.ready.frame + 1 + 3,
          pre := s.ready.int O.seqValue n, startUp := s.ready.up + 500 }).setI O.seqStartTime (s.ready.stamp (frameTime s.ready (s.ready.frame + 1 + 3))) n)
        n 2))) ∧
    (∀ (n : Fin 96), s.takes (part1 O.seqCmd 3 n) → exec (.seqStop n) s = .next (s.wrote (seqHalt s.ready n))) ∧
    (∀ (off : Nat) (b : Bytes), s.takes ⟨0, ⟨O.segTable, 0, 0⟩, b, some off⟩ → off % 16 = 0 → b.length % 16 = 0 →
      off + b.length ≤ 262144 → segmentsOk (words32 b) = true →
      exec (.segmentTableWrite off b) s = .next (s.wrote (bankWrite false (off / 4) (words32 b) s.ready))) ∧
    (∀ (off : Nat) (b : Bytes), s.takes ⟨0, ⟨O.listData, 0, 0⟩, b, some off⟩ → off % 4 = 0 → b.length % 4 = 0 →
      off + b.length ≤ 2097152 →
      exec (.listWrite off b) s = .next (s.wrote (bankWrite true (off / 4) (words32 b) s.ready))) ∧
    (∀ (n : Fin 96) (g : Fin 7) (field : GuardField) (value : Int), (Instr.guardWrite n g field value).wellFormed = true →
      s.takes (part1 (guardObj field) value n g) →
      exec (.guardWrite n g field value) s = .next (s.put ⟨guardObj field, n, g⟩ (s.ready.setI (guardObj field) value n g)))

/-- R236, R239, R240, R245, R246: a request of an idle point with a valid record waits for its dispatch, one of a point that is not
idle counts a skip, one whose record cannot be read ends INVALID; a point that is active is stopped, and CLEAR_ALARM clears the alarm
and its votes; an accepted record puts each of its fields in force and clears the alarm; the dispatcher's pass lets every run progress,
starts pending scans, ends what is refused and grants requests in order; a waiting point ends at its window, where it has one. -/
def Obligations.PointsAct : Prop :=
  ∀ (s : State) (p : Fin 4096),
    (s.takes (part1 O.ptCmd 1 p) → s.ready.nat O.ptState p ≠ 0 →
      exec (.pointStart p) s = .next (s.wrote ((s.ready.bump O.ptSkips p).setN O.ptStatus 13 p))) ∧
    (s.takes (part1 O.ptCmd 1 p) → s.ready.nat O.ptState p = 0 →
      (s.ready.bank.oneBad.filter fun k => k / 256 == 0x4000 + p.val) ≠ [] →
      exec (.pointStart p) s = .next (s.wrote (ptEnd (s.ready.raise 50 0 1 2 true) p 12))) ∧
    (s.takes (part1 O.ptCmd 1 p) → s.ready.nat O.ptState p = 0 → (ptCfgOf s.ready p).valid = true →
      (s.ready.bank.oneBad.filter fun k => k / 256 == 0x4000 + p.val) = [] →
      (s.ready.bank.oneFix.filter fun k => k / 256 == 0x4000 + p.val) = [] →
      exec (.pointStart p) s = .next (s.wrote (pscRefresh (ptSet (s.ready.setRun p
        { cfg := ptCfgOf s.ready p, reqFrame := s.ready.frame, reqTime := s.ready.up, requester := 256, pos := 0 }) p 1)))) ∧
    (s.takes (part1 O.ptCmd 2 p) → s.ready.nat O.ptState p = 1 →
      exec (.pointStop p) s = .next (s.wrote (ptEnd s.ready p 8))) ∧
    (s.takes (part1 O.ptCmd 2 p) → 2 ≤ s.ready.nat O.ptState p → s.ready.nat O.ptState p ≤ 6 →
      exec (.pointStop p) s = .next (s.wrote (ptLeave s.ready p 8))) ∧
    (s.takes (part1 O.ptCmd 3 p) →
      ∃ e, exec (.clearAlarm p) s = .next (s.wrote e) ∧ e.nat O.ptAlarmState p = 0 ∧ e.nat O.ptAlarmVotes p = 0) ∧
    (bit (s.ready.nat O.pmuPdState) 14 = true → s.ready.psc.resetPend = false →
      exec .dispatchPass s = .next (s.became
        (let d := s.ready.setB O.pscSuspended (pscSuspended s.ready)
         let d := d.psc.runs.foldl (fun x e => ptProgress x e.1) d
         let d := forUpto 256 (fun n x => scanPending x n) d
         let d := d.psc.runs.foldl (fun x e => if x.nat O.ptState e.1 = 1 ∧ ptRefused x e.2.cfg then ptEnd x e.1 9 else x) d
         if pscSuspended d then pscRefresh d
         else pscRefresh ((sortReqs (d.psc.runs.filter fun e => d.nat O.ptState e.1 == 1)).foldl passOne
           { start := d, dev := d, held := heldResources d }).dev))) ∧
    (∀ (r : PtRun), s.ready.run? p = some r → exec (.pointWindowExpiry p) s = .next (s.became
      (if s.ready.nat O.ptState p = 1 ∧ r.cfg.window ≠ 0 then ptEnd s.ready p 2 else s.ready))) ∧
    (s.ready.run? p = none → exec (.pointWindowExpiry p) s = .next (s.became s.ready)) ∧
    (∀ (b : Bytes) (ps : List Part) (after : Dev), ps = itemParts 0 ⟨O.ptRecord, p, 0⟩
        ⟨O.ptRecord.idx, O.ptRecord.sub, tyCode O.ptRecord.ty, none, b⟩ → after = ps.foldl putPart s.ready →
      writeLength s.ready ⟨O.ptRecord, p, 0⟩ none b = true → (∀ q ∈ ps, partCode s.ready after {} ps false q = none) →
      ∃ e, exec (.pointRecordWrite p b) s = .next (s.wrote e) ∧ e.nat O.ptAlarmState p = 0 ∧ e.nat O.ptAlarmVotes p = 0 ∧
        ∀ f ∈ recordFields, e.val f.1 p f.2.1 = after.val f.1 p f.2.1)

/-- R240, R242, R243, R249: the times of a point's run: the next relay of its path is made when the last has had its make time, the
path settles, the point settles and opens its aperture or waits for the edge, and a listening point leaves at its time-out. -/
def Obligations.PointTimesAct : Prop :=
  ∀ (s : State) (p : Fin 4096) (r : PtRun), s.ready.run? p = some r →
    (∀ (e : PathEntry), r.pwait = .time → r.making = true → r.cfg.path[r.step]? = some e → r.step + 1 < r.cfg.path.length →
      exec (.pathMakeTime p) s = .next (s.became
        (rbPush (pathChange s.ready p (r.step + 1) true) (.read (driverOf e.relay) (.path p e.relay false) 0)))) ∧
    (s.ready.nat O.ptState p = 2 → r.made = r.cfg.path.length → r.pwait ≠ .latch → r.pwait ≠ .time →
      exec (.pathSettleEnd p) s = .next (s.became (ptProgress (s.ready.setRun p { r with settled := true }) p))) ∧
    (s.ready.nat O.ptState p = 4 → r.cfg.apStart = 1 →
      exec (.pointSettleEnd p) s = .next (s.became ((ptSet s.ready p 5).setRun p { r with awaitEdge := true }))) ∧
    (s.ready.nat O.ptState p = 4 → r.cfg.apStart = 0 →
      exec (.pointSettleEnd p) s = .next (s.became (ptApStart (ptSet s.ready p 5) p (ptSet s.ready p 5).clk))) ∧
    (s.ready.nat O.ptState p = 6 → s.ready.nat O.seqState r.chA = 3 →
      exec (.pointListenTimeout p) s = .next (s.became (ptLeave s.ready p 7)))

/-- R252, R253, R254, R256, R258: a slot of the relay bus sends the operation at the head of the queue, or an idle frame; a good
reply is taken in, and a missing one has the read sent again up to three times; the re-reads, the fault line and the audit queue
their reads. -/
def Obligations.RelayBusActs : Prop :=
  ∀ (s : State),
    (rbRunning s.ready = true → s.ready.rb.queue = [] →
      exec .relayBusSlot s = .next (s.became ((s.ready.onRb fun b =>
        { b with frame := rbCommand 0 0 0 (b.slot % 64), latched := false }).onRb fun b => { b with slot := b.slot + 1 }))) ∧
    (∀ (r : Nat) (on : Bool) (pt : Option Nat) (q : List RbOp), rbRunning s.ready = true → s.ready.rb.queue = .coil r on pt :: q →
      exec .relayBusSlot s = .next (s.became
        ((rbWrite (s.ready.onRb fun b => { b with queue := q }) r on pt).onRb fun b => { b with slot := b.slot + 1 }))) ∧
    (∀ (x : RbRead) (rest : List RbRead) (f : Nat), s.ready.rb.out = x :: rest → rbReplyOk f x.driver x.tag = true →
      exec (.relayReply true f) s = .next (s.became
        (rbAnswer (s.ready.onRb fun b => { b with out := rest }) x.driver (bits f 29 14) (bits f 43 40) x.use))) ∧
    (∀ (x : RbRead) (rest : List RbRead) (f : Nat), s.ready.rb.out = x :: rest → x.tries < 3 →
      exec (.relayReply false f) s = .next (s.became (s.ready.onRb fun b =>
        { b with out := rest, queue := .read x.driver x.use (x.tries + 1) :: b.queue }))) ∧
    (∀ (k p : Nat) (t : List (Nat × Nat)), s.ready.rb.reread = (k, p) :: t →
      exec .relayReread s = .next (s.became (rbPush (s.ready.onRb fun b => { b with reread := t }) (.read (driverOf k) (.path p k true) 0)))) ∧
    (rbRunning s.ready = true → exec .relayFaultLine s = .next (s.became
      (forUpto (s.ready.nat O.rbDrivers) (fun k x => rbPush x (.read k .fault 0)) s.ready))) ∧
    (rbRunning s.ready = true → s.ready.nat O.rbAuditMs ≠ 0 → 1 ≤ s.ready.nat O.rbDrivers →
      exec .relayAudit s = .next (s.became
        (rbPush (s.ready.onRb fun b => { b with auditAt := (s.ready.rb.auditAt % s.ready.nat O.rbDrivers + 1) % s.ready.nat O.rbDrivers })
          (.read (s.ready.rb.auditAt % s.ready.nat O.rbDrivers) .audit 0))))

/-- R255, R259, R260, R263, R264: the relay bus starts with a read of every driver; the commands of the relays break the orphans,
open every relay and clear a count with its record, and the counts are saved. -/
def Obligations.RelayCommandsAct : Prop :=
  ∀ (s : State),
    (rbRunning s.ready = false → s.ready.on O.rbEnable = true → bit (s.ready.nat O.pmuPdState) 14 = true →
      exec .rbcStart s = .next (s.became (forUpto (s.ready.nat O.rbDrivers) (fun k x => rbPush x (.read k .start 0))
        (rbState (s.ready.onRb fun b => { b with silent := 0 }) true)))) ∧
    (s.takes (part1 O.rbCmd 1) → rbCmdRefused s.ready = false → s.ready.rb.orphans = [] →
      exec .releaseOrphans s = .next (s.wrote s.ready)) ∧
    (∀ (k : Nat), s.takes (part1 O.rbCmd 1) → rbCmdRefused s.ready = false → s.ready.rb.orphans = [(k, 1)] →
      exec .releaseOrphans s = .next (s.wrote (rbPush s.ready (.coil (16 * k) ((invRelays s.ready).contains (16 * k)) none)))) ∧
    (s.takes (part1 O.rbCmd 2) → rbCmdRefused s.ready = false →
      exec .allOff s = .next (s.wrote (rbPush s.ready .allOff))) ∧
    (∀ (r : Fin 16384), s.takes (part1 O.rbCountClear r) →
      exec (.relayCountClear r) s = .next (s.wrote ((s.ready.onRb fun b => { b with counts := tabSet 0 b.counts r 0 }).station 4 r
        (leBytes 4 (tabGet 0 s.ready.rb.counts r))))) ∧
    exec .relayCountSave s = .next (s.became (s.ready.onRb fun b => { b with saved := b.counts }))

/-- R248, R250, R251: a scan arms with its counts cleared, starts when asked in time, stops; a grid time starts it, and its next
entry is reached once the points of its group have ended or its delay is over. -/
def Obligations.ScansAct : Prop :=
  ∀ (s : State) (n : Fin 256),
    (s.takes (part1 O.scanCmd 1 n) → s.ready.nat O.scanState n = 0 → s.ready.nat O.scanSrc n = 0 →
      ∃ e, exec (.scanArm n) s = .next (s.wrote e) ∧ e.nat O.scanState n = 1 ∧ e.nat O.scanRunCount n = 0 ∧
        e.nat O.scanLateCount n = 0 ∧ e.nat O.scanSkipped n = 0) ∧
    (s.takes (part1 O.scanCmd 2 n) → s.ready.nat O.scanState n = 1 → s.ready.nat O.scanSrc n = 0 → pscSuspended s.ready = false →
      (s.ready.scan n).pending = none → 0 ≤ s.ready.int O.scanLateTol n →
      exec (.scanStart n) s = .next (s.wrote (scanBegin s.ready n s.ready.clk false))) ∧
    (s.takes (part1 O.scanCmd 3 n) → s.ready.nat O.scanState n = 2 →
      exec (.scanStop n) s = .next (s.wrote (scanSetNext (((((s.ready.psc.runs.filter fun e => e.2.requester == n.val).map (·.1)).foldl ptStop
        s.ready).setScan n {}).setN O.scanState 0 n) n none))) ∧
    (∀ (t : Int), (s.ready.scan n).gridNext = some t → s.ready.nat O.scanSrc n = 1 → s.ready.nat O.scanState n = 1 →
      exec (.scanTimeStart n) s = .next (s.became (scanStart (scanSetGrid s.ready n
        (if s.ready.int O.scanPeriod n ≤ 0 then none else some (t + s.ready.int O.scanPeriod n))) n t false))) ∧
    (s.ready.nat O.scanState n = 2 → (s.ready.scan n).delaying = false →
      ((s.ready.scan n).group.all fun p => s.ready.nat O.ptState p == 0) = true →
      exec (.scanNextEntry n) s = .next (s.became (scanReach s.ready n))) ∧
    (s.ready.nat O.scanState n = 2 → (s.ready.scan n).delaying = true →
      exec (.scanDelayEnd n) s = .next (s.became (scanReach (s.ready.setScan n { s.ready.scan n with delaying := false }) n)))

/-- R265, R268, R269, R270, R272, R275, R277, R278, R279, R284: with PD15 on, a write of the source or of the signal of the present
source starts the time base again, and so does REACQUIRE; an edge in LOCKED or COASTING is tracked, one in ACQUIRE counts for the lock,
one in STALL acquires again; coasting begins when the edge is overdue and ends in a stall that is flagged, counted and raised; the
encoder's two signals changing at once are counted as an error; phase events fall due at their instant. -/
def Obligations.CycleTimeBaseActs : Prop :=
  ∀ (s : State),
    (∀ (value : Nat), (Instr.ctbSourceChange .src value).wellFormed = true → s.takes (part1 O.ctbSrc value) →
      exec (.ctbSourceChange .src value) s = .next (s.put ⟨O.ctbSrc, 0, 0⟩ (ctbRestart (s.ready.setN O.ctbSrc value)))) ∧
    (∀ (value : Nat), (Instr.ctbSourceChange .tin value).wellFormed = true → s.takes (part1 O.ctbTin value) →
      s.ready.nat O.ctbSrc = 1 ∨ s.ready.nat O.ctbSrc = 3 →
      exec (.ctbSourceChange .tin value) s = .next (s.put ⟨O.ctbTin, 0, 0⟩ (ctbRestart (s.ready.setN O.ctbTin value)))) ∧
    (s.takes (part1 O.ctbCmd 1) → exec .ctbReacquire s = .next (s.wrote
      (if ctbState s.ready = csOff then s.ready else ctbRestart s.ready))) ∧
    (∀ (tick : Fin 250) (back now : Nat) (d : Dev), ctbOn s.ready = true → s.ready.nat O.ctbSrc = 1 ∨ s.ready.nat O.ctbSrc = 3 →
      d = (ctbTo s.ready tick).onCtb (fun c => { c with monFound := none }) → now = absTick (ctbTo s.ready tick) (ctbTo s.ready tick).ctb.tick →
      (ctbState d = csLocked ∨ ctbState d = csCoasting → exec (.ctbEdge tick back) s = .next (s.became (ctbTrack d back))) ∧
      (ctbState d = csAcquire → d.coasting = false →
        exec (.ctbEdge tick back) s = .next (s.became (ctbAcquire d (now - back) back))) ∧
      (ctbState d = csStall → exec (.ctbEdge tick back) s = .next (s.became
        (ctbMarked (ctbSet (d.onCtb fun c => { c with rawAt := some (now - back), raws := [] }) csAcquire))))) ∧
    (∀ (tick : Fin 250), ctbOn s.ready = true → ctbState s.ready = csLocked →
      exec (.ctbCoastTimeout tick) s = .next (s.became
        (let d := ctbTo s.ready tick
         if ctbOverdue d 3 then
           ctbMarked (ctbSet ((d.onCtb fun c => { c with inc := if d.nat O.ctbSrc = 4 then c.inc else c.incF }).flag O.ctbFlags 2) csCoasting)
         else d))) ∧
    (∀ (tick : Fin 250), ctbOn s.ready = true → ctbState s.ready = csCoasting →
      exec (.ctbStallTimeout tick) s = .next (s.became
        (let d := ctbTo s.ready tick
         if ctbOverdue d (2 * d.nat O.ctbCoast + 3) then
           (ctbMarked (ctbSet ((((d.flag O.ctbFlags 4).bump O.ctbStalls).setI O.ctbLastStall (d.stamp (ctbStamp d))).onCtb fun c =>
             { c with stallAt := some (d.up + 2 * d.ctb.tick), rawAt := none, raws := [] }) csStall)).raise 55 0 1 0
         else d))) ∧
    (∀ (tick : Fin 250) (a b : Bool), ctbOn s.ready = true → s.ready.nat O.ctbSrc = 4 →
      (ctbTo s.ready tick).ctb.encA = !a → (ctbTo s.ready tick).ctb.encB = !b →
      exec (.ctbEncoderCount tick a b) s = .next (s.became ((((ctbTo s.ready tick).onCtb fun c =>
        { c with encA := a, encB := b }).bump O.ctbEncErrors).flag O.ctbFlags 32))) ∧
    (∀ (tick : Fin 250), exec (.ctbInstant tick) s = .next (s.became (if ctbOn s.ready then ctbTo s.ready tick else s.ready)))

/-- R290, R292, R293, R295, R296, R303: a lost source that is selected and has no qualified successor leaves the time in HOLDOVER,
flagged as a switch and raised; a better qualified source is selected after its hold-off; holdover ends in FREE; a second issues its event; a
pending step and a pending write act at their second; the RTC is loaded. -/
def Obligations.TimeOfDaySourcesAct : Prop :=
  ∀ (s : State),
    (∀ (k : Fin 4) (d : Dev), k.val ≠ 0 → s.ready.nat O.todSrc = k →
      d = (s.ready.onTod fun t => { t with srcs := t.srcs.setIfInBounds k.val {} }).setN O.todQual (clrBit (s.ready.nat O.todQual) k) →
      bestSource d = none → exec (.todSourceLoss k) s = .next (s.became ((((((d.onTod fun t =>
        { t with c := 0, holdAt := d.up, holdSrc := d.nat O.todSrc, step := none }).setN O.todSrc 0).setN O.todState tsHoldover).setN
        O.todHoldoverTime 0).flag O.todFlags 36).raise 56 0 2 0))) ∧
    (∀ (k : Fin 4), srcQualified s.ready k = true → k.val ≠ 0 → s.ready.nat O.todSrc ≠ 0 →
      srcRank s.ready k < srcRank s.ready (s.ready.nat O.todSrc) → todSelects s.ready = true →
      exec (.todSwitchHoldoff k) s = .next (s.became (selectSource s.ready k))) ∧
    (todState s.ready = tsHoldover → exec .todHoldoverExpiry s = .next (s.became
      ((s.ready.setN O.todHoldoverTime (s.ready.up - s.ready.tod.holdAt)).setN O.todState tsFree))) ∧
    exec .todSecond s = .next (s.became (s.ready.event 66 (secondAt s.ready.clk))) ∧
    (∀ (th : Int), s.ready.tod.step = some th → s.ready.tod.write = none →
      let d := s.ready.onTod fun t => { t with t := secondAt s.ready.clk + th, tf := 0, step := none }
      let d := (d.setI O.todLastStep th).flag O.todFlags 16
      exec .todStepApply s = .next (s.became (scanStepped (leapCheck
        (todChanged d 1 (d.stamp (secondAt s.ready.clk)) (secondAt s.ready.clk + th)))))) ∧
    (∀ (v : Int), s.ready.tod.write = some v → exec .todWriteApply s = .next (s.became
      ((todSetNow s.ready v).onTod fun t => { t with step := none }))) ∧
    (∀ (counts : Nat), todState s.ready = tsLocked → exec (.rtcLoad counts) s = .next (s.became (rtcLoadNow s.ready counts)))

/-- R297, R299, R300, R301: a valid set of the time or of the calendar outside LOCKED is taken, CANCEL drops a pending write, a new
UTC offset takes effect with its record, and a leap second is scheduled and applied. -/
def Obligations.TimeOfDayIsSet : Prop :=
  ∀ (s : State),
    (∀ (value : Int), (Instr.todSet value).wellFormed = true → s.takes (part1 O.todSet value) → todState s.ready ≠ tsLocked →
      timeValid value = true → s.ready.nat O.todSetMode ≠ 0 →
      exec (.todSet value) s = .next (s.wrote (todSetValue s.ready value))) ∧
    (∀ (b : Bytes) (t : Int), s.takes ⟨0, ⟨O.todCalSet, 0, 0⟩, b, none⟩ → writeLength s.ready ⟨O.todCalSet, 0, 0⟩ none b = true →
      b.length = 16 → allZero (slice b 12 4) = true → todState s.ready ≠ tsLocked → calendarValue s.ready b = some t →
      exec (.todCalSet b) s = .next (s.wrote (todSetValue s.ready t))) ∧
    (s.takes (part1 O.todCmd 1) → exec .todCancel s = .next (s.wrote
      ((s.ready.onTod fun t => { t with write := none }).setB O.todSetPending false))) ∧
    (∀ (value : Int), (Instr.utcOffsetWrite value).wellFormed = true → s.takes (part1 O.todUtcOffset value) →
      exec (.utcOffsetWrite value) s = .next (s.put ⟨O.todUtcOffset, 0, 0⟩
        (todChanged (s.ready.setI O.todUtcOffset value) 3 (s.ready.int O.todUtcOffset) value))) ∧
    (∀ (field : LeapField) (value : Int), (Instr.leapSchedule field value).wellFormed = true → s.takes (part1 (leapObj field) value) →
      exec (.leapSchedule field value) s = .next (s.put ⟨leapObj field, 0, 0⟩ (s.ready.setI (leapObj field) value))) ∧
    (leapAt s.ready ≠ 0 → exec .leapApply s = .next (s.became (leapApplyNow s.ready)))

/-- R291, R430, R431, R433: what a source delivers is tested and filtered; a Sync of the master in one step and a Delay_Req at a
master are answered; a PTP port whose timer runs out sends what is due; it moves to the other Ethernet port. -/
def Obligations.PtpAndSamplesAct : Prop :=
  ∀ (s : State),
    (∀ (sec ns : Nat) (t : Int), s.ready.coasting = false →
      sampleOffset s.ready (.ptp sec ns t) = (none, false) →
      exec (.todSample (.ptp sec ns t)) s = .next (s.became
        (((s.ready.bump O.todRejects).flag O.todFlags 1).onTod fun x =>
          { x with srcs := x.srcs.setIfInBounds 2 { (s.ready.tod.srcs[2]?.getD {}) with run := 0 } }))) ∧
    (∀ (p : Fin 2) (tick : Fin 250) (b : Bytes), ptpRuns s.ready p = true → ptpTaken s.ready b = true → beField b 0 1 % 16 = 0 →
      fromMaster s.ready b = true → 44 ≤ b.length → bit (beField b 6 1) 1 = false →
      exec (.ptpMessage p tick b) s = .next (s.became (ptpSync s.ready b (ptpCorr b) (rxStamp s.ready tick)))) ∧
    (∀ (p : Fin 2) (tick : Fin 250) (b : Bytes), ptpRuns s.ready p = true → ptpTaken s.ready b = true → beField b 0 1 % 16 = 1 →
      44 ≤ b.length → exec (.ptpMessage p tick b) s = .next (s.became (ptpDelayReq s.ready tick b))) ∧
    (∀ (tick : Fin 250), ptpState s.ready = psMaster →
      exec (.ptpInterval .sync tick) s = .next (s.became (ptpSendSync s.ready tick)) ∧
      exec (.ptpInterval .announce tick) s = .next (s.became (ptpSendAnnounce s.ready))) ∧
    (s.ready.nat O.netPtpPort = 2 → s.ready.nat O.netPtpState ≠ 0 → s.ready.net.ptp.port = 0 → linkUp s.ready 0 = false →
      exec .ptpPortFailover s = .next (s.became (ptpStart (s.ready.onPtp fun x => { x with port := 1 }))))

/-- R306, R307, R308, R310, R311, R312, R313: the voltages of a timing input run tick by tick through its comparator, synchroniser and
filter; a sample that changes the filtered level is an edge at the last raw transition into it less two ticks; an edge of the selected
slope sets the input's latch, is counted and issues its event; an input enters over-rate and leaves it, is declared stuck, and its
latch clears by time and by command; a write of threshold, hysteresis or slope comes into force. -/
def Obligations.TimingInputsAct : Prop :=
  ∀ (s : State) (k : Fin 8),
    (∀ (uv : List Int) (tick : Fin 250) (back code n : Nat), n = absTick s.ready tick →
      exec (.tinEdge k uv tick back code) s = .next (s.became (if tiuOn s.ready then
        (let d := uv.foldl (tinTick k code) (tinHold k code s.ready (n - back - uv.length - (s.ready.tin k).last))
         tinHold k code d (n - (d.tin k).last)) else s.ready))) ∧
    (∀ (code : Nat) (d : Dev) (uv : Int) (x : Tin), x = ((d.tin k).clock ((d.tin k).last + 1) uv
        (comparator (d.nat O.tiuInThresh k) (d.nat O.tiuInHyst k) uv (d.tin k).cmp)).sample →
      ((d.tin k).last + 1 + 4 * (d.up / 2)) % 5 = 0 → d.on O.tiuInLevel k = !x.level →
      tinTick k code d uv = tinFiltered (d.setTin k x) k x.level
        (d.clk + 2 * ((if x.level then x.rise else x.fall : Nat) - 2 - (absTick d 0 : Int))) (if x.level then x.rise else x.fall) code) ∧
    (∀ (rising : Bool) (stop code : Nat) (stamp : Int) (e d : Dev), k.val < 6 → (e.setB O.tiuInLevel rising k).nat O.tiuInState k = 0 →
      d = forUpto 8 (tdcEdge k rising stamp stop code) (e.setB O.tiuInLevel rising k) → d.nat O.tiuInSlope k = 2 →
      tinFiltered e k rising stamp stop code =
        (let x := (((d.setB O.tiuInLatch true k).bump O.tiuInEdges k).setI O.tiuInLastEdge ((d.setB O.tiuInLatch true k).stamp stamp) k).event (2 + k) stamp
         { x with erm := { x.erm with latStamp := tabSet 0 x.erm.latStamp k stamp } })) ∧
    (tiuOn s.ready = true → s.ready.nat O.tiuInState k ≠ 1 →
      exec (.tinOverrate k) s = .next (s.became (forUpto 8 (fun j x =>
        if (j == k.val || (x.nat O.tiuMMode j == 0 && x.nat O.tiuMStopTin j == k.val)) &&
            (x.nat O.tiuMState j == 2 || x.nat O.tiuMState j == 3) then tdcEnd x j 3 else x)
        (((s.ready.setN O.tiuInState 1 k).flag O.tiuInFlags 4 k).bump O.tiuInOverrates k)))) ∧
    (s.ready.nat O.tiuInState k = 1 → exec (.tinOverrateEnd k) s = .next (s.became (s.ready.setN O.tiuInState 0 k))) ∧
    (tiuOn s.ready = true → s.ready.nat O.tiuInStuck k ≠ 0 → s.ready.nat O.tiuInState k = 0 → tinActive s.ready k →
      exec (.tinStuck k) s = .next (s.became (((s.ready.setN O.tiuInState 2 k).flag O.tiuInFlags 8 k).raise 57 0 1 k))) ∧
    (s.ready.nat O.tiuInLatchClr k = 1 → k.val < 6 →
      exec (.tinLatchTimeout k) s = .next (s.became (s.ready.setB O.tiuInLatch false k))) ∧
    (s.takes (part1 O.tiuInCmd 1 k) → k.val < 6 →
      exec (.tinLatchClear k) s = .next (s.wrote (s.ready.setB O.tiuInLatch false k))) ∧
    (∀ (field : TinField) (value : Nat), (Instr.tinConfigWrite k field value).wellFormed = true →
      s.takes (part1 (tinObj field) value k) →
      exec (.tinConfigWrite k field value) s = .next (s.put ⟨tinObj field, k, 0⟩ (s.ready.setN (tinObj field) value k)))

/-- R318, R319, R328: a time measurement unit arms for a free input, stops, enters the measurement once its interpolators are
calibrated and faults when they are not, and ends by time-out and at the end of a window too short for two edges; the gate arms it. -/
def Obligations.TimeMeasurementsAct : Prop :=
  ∀ (s : State) (k : Fin 8),
    (s.takes (part1 O.tiuMCmd 1 k) → tinHeld s.ready k = false → tdcBusy s.ready k = false →
      exec (.tdcArm k) s = .next (s.wrote (tdcArmNow s.ready k 0 false))) ∧
    (s.takes (part1 O.tiuMCmd 2 k) → tinHeld s.ready k = false →
      exec (.tdcStop k) s = .next (s.wrote ((s.ready.setN O.tiuMState 0 k).setN O.tiuMStatus 5 k))) ∧
    (∀ (k1 k2 : Nat), s.ready.nat O.tiuMState k = 1 → k1 + 6144 ≤ k2 → k2 ≤ k1 + 10240 →
      exec (.tdcCalDone k k1 k2) s = .next (s.became
        (((s.ready.setTdc k { s.ready.tdc k with k1 := k1, k2 := k2 }).setN O.tiuMCal (k2 * 2 ^ 32 + k1) k).setN O.tiuMState 2 k))) ∧
    (∀ (k1 k2 : Nat), s.ready.nat O.tiuMState k = 1 → k2 < k1 + 6144 →
      exec (.tdcCalDone k k1 k2) s = .next (s.became
        (((tdcEnd ((s.ready.setTdc k { s.ready.tdc k with k1 := k1, k2 := k2 }).setN O.tiuMCal (k2 * 2 ^ 32 + k1) k) k 4).flag
          O.tiuMFlags 2 k).raise 57 0 2 k))) ∧
    (s.ready.nat O.tiuMState k = 2 ∨ s.ready.nat O.tiuMState k = 3 →
      exec (.tdcTimeout k) s = .next (s.became (tdcEnd s.ready k 2))) ∧
    (s.ready.nat O.tiuMState k = 3 → s.ready.nat O.tiuMMode k = 2 → (s.ready.tdc k).seen < 2 →
      exec (.tdcWindowEnd k) s = .next (s.became (tdcEnd s.ready k 6))) ∧
    (s.ready.nat O.tiuMState k = 3 → s.ready.nat O.tiuMMode k = 2 → 2 ≤ (s.ready.tdc k).seen →
      exec (.tdcWindowEnd k) s = .next (s.became (tdcDone s.ready k
        (roundDiv ((((s.ready.tdc k).seen : Int) - 1) * (10 : Int) ^ 18) ((s.ready.tdc k).tl - (s.ready.tdc k).t0))
        ((s.ready.tdc k).tl - (s.ready.tdc k).t0) (s.ready.tdc k).seen))) ∧
    (∀ (tick : Fin 250), s.ready.nat O.tiuMGate k = 1 → tdcBusy s.ready k = false →
      exec (.tiuGateEdge k tick) s = .next (s.became (tdcArmNow s.ready k tick true))) ∧
    (∀ (tick : Fin 250), s.ready.nat O.tiuMGate k = 1 → tdcBusy s.ready k = true →
      exec (.tiuGateEdge k tick) s = .next (s.became
        (((ermOverrun s.ready (124 + k)).flag O.tiuMFlags 1 k).bump O.tiuMOverruns k)))

/-- R322, R326, R329, R330, R331, R333: a pin's level waits for the synchroniser; in a cycle the consumers see the signals of the
last one and the edges among them; a software event falls due at the frame's start; a new selector makes no edge; a new cell mode
clears the cell; a pulse ends; a changed line value enters the log, and a line value is delivered at its instant. -/
def Obligations.EventRoutingActs : Prop :=
  ∀ (s : State),
    (∀ (p : Fin 16) (level : Bool), exec (.evioPinChange p level) s = .next (s.became
      { s.ready with erm := { s.ready.erm with pins := putBit s.ready.erm.pins p level } })) ∧
    (∀ (c : Fin 50), ermOn s.ready = true →
      ∃ e, exec (.ermCycle c) s = .next (s.became e) ∧ e.erm.was = inputSignals s.ready s.ready.erm.sig ∧ e.erm.fresh = 0 ∧
        e.erm.sig = levelSignals e ∧
        ∀ (i : Nat), i < 187 → ((e.erm.edges.map (·.1)).contains i = true ↔ levelInput i = false ∧
          bit (inputSignals s.ready s.ready.erm.sig) i = true ∧ bit s.ready.erm.was i = false ∧ bit s.ready.erm.fresh i = false)) ∧
    (∀ (k : Fin 8), s.takes (part1 O.ermSoft (2 ^ k.val : Nat)) →
      exec (.softEvent (2 ^ k.val)) s = .next (s.wrote (s.ready.event (77 + k) s.ready.clk))) ∧
    (∀ (c : Fin 192) (value : Nat), (Instr.selectorWrite c value).wellFormed = true → s.takes (part1 O.ermInSel value 0 c) →
      value ≠ s.ready.nat O.ermInSel 0 c → exec (.selectorWrite c value) s = .next (s.put ⟨O.ermInSel, 0, c⟩
        (let d := s.ready.setN O.ermInSel value 0 c
         { d with erm := { d.erm with fresh := setBit d.erm.fresh c } }))) ∧
    (∀ (k : Fin 32) (field : LutField) (value : Nat), (Instr.lutModeWrite k field value).wellFormed = true →
      s.takes (part1 (lutObj field) value k) → exec (.lutModeWrite k field value) s = .next (s.put ⟨lutObj field, k, 0⟩
        (let d := s.ready.setN (lutObj field) value k
         d.setLut k { d.lut k with clear := true }))) ∧
    (∀ (p : Fin 16), bit s.ready.erm.pulse p = true → s.ready.nat O.ermEvioOutMode p = 1 →
      exec (.evioPulseEnd p) s = .next (s.became { s.ready with erm := { s.ready.erm with
        pulse := clrBit s.ready.erm.pulse p, drive := clrBit s.ready.erm.drive p } })) ∧
    (∀ (tick : Fin 250) (t : Int) (v : Nat), ermOn s.ready = true → s.ready.erm.termLog.getLast? = some (t, v) →
      s.ready.erm.terms ≠ v → exec (.sysLineSample tick) s = .next (s.became { s.ready with erm := { s.ready.erm with
        termLog := lastN 512 (s.ready.erm.termLog ++ [((s.ready.clk + 2 * (tick.val : Int)) / 40 * 40, s.ready.erm.terms)]) } })) ∧
    (∀ (t : Int) (v : Nat) (rest : List (Int × Nat)), hlSynced s.ready = true → s.ready.hl.breaking = false →
      s.ready.hl.missing = none → s.ready.erm.samples = (t, v) :: rest →
      exec .sysLineRelease s = .next (s.became (sysDeliver { s.ready with
        erm := { s.ready.erm with samples := rest }, hl := { s.ready.hl with lastFinal := t - 2000 } } v t)))

/-- R328, R344, R355: what an edge does at each kind of consumer: it starts an aperture sequence, holds a trace trigger, starts
sequencers, starts scans, makes an urgent conversion pending, starts or steps an output queue, and hands the journal a mark; an
edge at a consumer still busy with the last one is an overrun. -/
def Obligations.ConsumerEdgesAct : Prop :=
  ∀ (s : State),
    (∀ (n : Fin 96), chBound s.ready n = false → s.ready.nat O.chApStart n = 1 → apState (s.ready.chan n) = 0 →
      apStartRefused s.ready n = false →
      exec (.apStartEdge n) s = .next (s.became (apBegin s.ready n (edgeStamp s.ready n)))) ∧
    (∀ (n : Fin 96), chBound s.ready n = false → s.ready.nat O.chApStart n = 1 → apState (s.ready.chan n) ≠ 0 →
      exec (.apStartEdge n) s = .next (s.became (ermOverrun s.ready n))) ∧
    (∀ (n : Fin 12), s.ready.nat O.chTraceTrigSrc (8 * n) = 1 → s.ready.nat O.chTraceState (8 * n) = 2 →
      exec (.traceEdge n) s = .next (s.became (s.ready.setTrace n { s.ready.trace n with held := true }))) ∧
    (∀ (k : Fin 16), exec (.seqLineEdge k) s = .next (s.became (forUpto 96 (fun i x =>
      let x := match (x.seqr i).seg with
        | some g => if x.nat O.seqState i = 2 ∧ g.guard ≠ 0 ∧ x.nat O.seqGuardLine i (g.guard - 1) = k.val then
            x.setSeqr i { x.seqr i with latch := true } else x
        | none => x
      if x.nat O.seqStartSrc i = 1 ∧ x.nat O.seqStartLine i = k.val then
        seqStartCond x i (frameAtOrAfter x (edgeStamp s.ready (108 + k))) else x) s.ready))) ∧
    (∀ (k : Fin 16), exec (.scanLineEdge k) s = .next (s.became (forUpto 256 (fun n x =>
      if x.nat O.scanSrc n = 3 ∧ scanLine x n = k.val then scanStart x n (edgeStamp s.ready (132 + k)) false else x) s.ready))) ∧
    (∀ (k : Fin 2) (c : Fin 50), s.ready.nat O.samState k ≠ 0 → (s.ready.conv k).urgent = [] →
      exec (.samUrgentEdge k c) s = .next (s.became
        (let t := (s.ready.up + 10 * c + 10) / 20 + 1
         s.ready.setConv k { s.ready.conv k with
           urgent := [(t, t + samDwell (samWordAt s.ready k (s.ready.nat O.samUrgEntry k % 32) t))] }))) ∧
    (∀ (k : Fin 4) (c : Fin 50), axdOn s.ready = true → s.ready.nat O.axdStart k = 1 → s.ready.nat O.axdState k = 1 →
      exec (.axdTrigEdge k c) s = .next (s.became (axdRun s.ready k c))) ∧
    (∀ (k : Fin 4) (c : Fin 50), axdOn s.ready = true → s.ready.nat O.axdState k = 2 → s.ready.nat O.axdMode k = 3 →
      s.ready.nat O.axdFill k ≠ 0 →
      exec (.axdTrigEdge k c) s = .next (s.became (axdPop s.ready k (s.ready.up + 10 * (c + 1))))) ∧
    (s.ready.erm.mark = none → stagingRoom s.ready.jrn.staging false = true →
      ∃ e, exec .jrnMarkEdge s = .next (s.became e) ∧ e.erm.mark = none ∧
        e.jrn = (s.ready.stage (jrecord 5 0xFFFF 0xFF 0 (s.ready.stamp (edgeStamp s.ready 186)) []) false).2.jrn)

/-- R338, R345, R352: a conversion of a running converter with no urgent slot and no enabled entry is a reference conversion;
RESTART restarts every entry; a write of an entry word restarts it at its next slot; the calibration takes its zero, then its span,
ends SINGULAR where the two lie too close, and aborts. -/
def Obligations.ConvertersAct : Prop :=
  ∀ (s : State),
    (∀ (k : Fin 2) (uV : Int) (vref : Nat), s.ready.nat O.samState k ≠ 0 → (samSlot s.ready k).entry = none →
      exec (.samConversion k uV vref) s = .next (s.became
        (let d := s.ready.bump O.samConversions k
         let d := if (List.range 32).any fun e => bit (samWordAt d k e (samSlot s.ready k).first) 31 then d else d.flag O.samFlags 2 k
         let d := d.setConv k { s.ready.conv k with clock := (samSlot s.ready k).last, sinceRef := 0 }
         samReference d k (samCode d k 24 false (samRaw 24 false uV vref))))) ∧
    (∀ (k : Fin 2), s.takes (part1 O.samCmd 1 k) → s.ready.nat O.samState k ≠ 0 →
      exec (.samRestart k) s = .next (s.wrote (samRefRestart (forUpto 32 (fun e x => samEntryRestart x k e) s.ready)))) ∧
    (∀ (e : Fin 64) (value : Nat), (Instr.samEntryWrite e value).wellFormed = true → s.takes (part1 O.samECfg value e) →
      exec (.samEntryWrite e value) s = .next (s.put ⟨O.samECfg, e, 0⟩
        (let d := s.ready.setN O.samECfg value e
         let c := d.conv (e / 32)
         d.setConv (e / 32) (c.setEntry (e % 32) { c.entry (e % 32) with wroteAt := some (s.ready.up / 20) })))) ∧
    (s.takes (part1 O.samCalCmd 1) → s.ready.nat O.samCalState = 0 →
      (∃ e, e < 32 ∧ bit (s.ready.nat O.samECfg (samE (samCalConv s.ready) e)) 31 = true ∧
        samCalMatches s.ready (samCalConv s.ready) (s.ready.nat O.samECfg (samE (samCalConv s.ready) e)) = true) →
      exec .samCalZero s = .next (s.wrote ({ s.ready with sam :=
        { s.ready.sam with e0 := samIdeal s.ready, calSum := 0, calN := 0 } }.setN O.samCalState 1))) ∧
    (s.takes (part1 O.samCalCmd 2) → s.ready.nat O.samCalState = 2 →
      exec .samCalSpan s = .next (s.wrote ({ s.ready with sam :=
        { s.ready.sam with e1 := samIdeal s.ready, calSum := 0, calN := 0 } }.setN O.samCalState 3))) ∧
    (∀ (role : Fin 4), s.takesAs role (part1 O.samCalCmd 3) →
      s.ready.nat O.samCalState = 4 → (s.ready.sam.m1 - s.ready.sam.m0).natAbs < 16384 →
      exec (.samCalCompute role) s = .next (s.wrote (samCalEnd s.ready 6 2))) ∧
    (s.takes (part1 O.samCalCmd 4) → 1 ≤ s.ready.nat O.samCalState → s.ready.nat O.samCalState ≤ 4 →
      exec .samCalAbort s = .next (s.wrote (samCalEnd s.ready 6 4)))

/-- R355, R356: an output in a driven mode arms, starts with its origin one cycle on, stops, steps and flushes; values are pushed
and the table is filled; a level in mode 0 drives the output; at its sample instant a queue pops and a table steps, and an empty
queue is an underrun. -/
def Obligations.OutputsAct : Prop :=
  ∀ (s : State) (k : Fin 4),
    (s.takes (part1 O.axdCmd 1 k) → s.ready.nat O.axdMode k ≠ 0 → s.ready.nat O.axdState k = 0 →
      exec (.axdArm k) s = .next (s.wrote ((s.ready.setAxd k { s.ready.axdK k with i := 0 }).setN O.axdState 1 k))) ∧
    (s.takes (part1 O.axdCmd 2 k) → s.ready.nat O.axdMode k ≠ 0 → s.ready.nat O.axdState k = 1 →
      exec (.axdStart k) s = .next (s.wrote
        ((s.ready.setAxd k { s.ready.axdK k with origin := s.ready.up + 10 }).setN O.axdState 2 k))) ∧
    (s.takes (part1 O.axdCmd 3 k) → exec (.axdStop k) s = .next (s.wrote (s.ready.setN O.axdState 0 k))) ∧
    (s.takes (part1 O.axdCmd 4 k) → s.ready.nat O.axdMode k = 3 → s.ready.nat O.axdState k = 2 →
      exec (.axdStep k) s = .next (s.wrote (axdPop s.ready k (s.ready.up + 10)))) ∧
    (s.takes (part1 O.axdCmd 5 k) → s.ready.nat O.axdState k ≠ 2 →
      exec (.axdFlush k) s = .next (s.wrote (s.ready.setN O.axdFill 0 k))) ∧
    (∀ (b : Bytes), s.takes ⟨0, ⟨O.axdPush, k, 0⟩, b, none⟩ → writeLength s.ready ⟨O.axdPush, k, 0⟩ none b = true →
      2 ≤ b.length → b.length ≤ 512 → b.length % 2 = 0 → s.ready.nat O.axdState k = 0 →
      s.ready.nat O.axdFill k + (words16 b).length ≤ 256 →
      exec (.axdPush k b) s = .next (s.wrote ((s.ready.setAxd k { s.ready.axdK k with
        mem := (List.range (words16 b).length).foldl (fun m j =>
          tabSet 0 m (((s.ready.axdK k).rd + s.ready.nat O.axdFill k + j) % 256) ((words16 b).getD j 0)) (s.ready.axdK k).mem }).setN
        O.axdFill (s.ready.nat O.axdFill k + (words16 b).length) k))) ∧
    (∀ (b : Bytes), s.takes ⟨0, ⟨O.axdTable, k, 0⟩, b, none⟩ → writeLength s.ready ⟨O.axdTable, k, 0⟩ none b = true →
      b.length = 512 → s.ready.nat O.axdState k = 0 → exec (.axdTable k b) s = .next (s.wrote
        ((s.ready.setAxd k { s.ready.axdK k with mem := tabSetRun 0 [] 0 (words16 b), rd := 0 }).setN O.axdFill 256 k))) ∧
    (∀ (value : Nat), (Instr.axdLevel k value).wellFormed = true → s.takes (part1 O.axdLevel value k) →
      (s.ready.setN O.axdLevel value k).nat O.axdMode k = 0 → axdOn s.ready = true →
      exec (.axdLevel k value) s = .next (s.put ⟨O.axdLevel, k, 0⟩ (axdSet (s.ready.setN O.axdLevel value k) k value (s.ready.up + 10)))) ∧
    (∀ (c : Fin 50), s.ready.nat O.axdState k = 2 → s.ready.nat O.axdMode k = 1 → s.ready.nat O.axdFill k = 0 →
      exec (.axdSample k c) s = .next (s.became ((s.ready.bump O.axdUnderruns k).flag O.axdFlags 1 k))) ∧
    (∀ (c : Fin 50), s.ready.nat O.axdState k = 2 → s.ready.nat O.axdMode k = 1 → s.ready.nat O.axdFill k ≠ 0 →
      exec (.axdSample k c) s = .next (s.became (axdPop s.ready k (s.ready.up + 10 * c))))

/-- R45, R360, R375, R376, R377, R385: what a session's next request that reads answers: the value that `readAt` gives, with the
read's effect for READ and READ_MULTI and without it for PEEK, its memory errors counted; a piece of a DOMAIN object; nothing for NOP;
the retained notifications for REPLAY. -/
def Obligations.SessionReadsAct : Prop :=
  ∀ (s : State) (k : Fin 16) (acked : Nat) (d : Dev) (w : Who), s.asks k → d = s.heard k acked → w = s.asker k acked →
    (∀ (a : Addr) (t : Nat) (b : Bytes) (e : Dev), (Instr.read k acked a).wellFormed = true → a.node = d.node →
      readAt s.vault (touchAt d w a.index a.sub) w false a.index a.sub = .ok (t, b, e) → (e.ses k).held = [] →
      exec (.read k acked a) s = .next (s.replied k acked opRead (addrBytes a) (typed t b) s.vault e)) ∧
    (∀ (a : Addr) (t : Nat) (b : Bytes) (e : Dev), (Instr.peek k acked a).wellFormed = true → a.node = d.node →
      readAt s.vault (touchAt d w a.index a.sub) w true a.index a.sub = .ok (t, b, e) → (e.ses k).held = [] →
      exec (.peek k acked a) s = .next (s.replied k acked opPeek (addrBytes a) (typed t b) s.vault e)) ∧
    (∀ (l : List Addr), (Instr.readMulti k acked l).wellFormed = true → 1 ≤ l.length → l.length ≤ 32 → (∀ a ∈ l, a.node = d.node) →
      ((readItems s.vault w false l [] d []).2.ses k).held = [] →
      exec (.readMulti k acked l) s = .next (s.replied k acked opReadMulti (leBytes 1 l.length ++ [0, 0, 0] ++ l.flatMap addrBytes)
        (readItems s.vault w false l [] d []).1 s.vault (readItems s.vault w false l [] d []).2)) ∧
    (∀ (a : Addr) (off len : Nat) (x : Bytes), (Instr.blockRead k acked a off len).wellFormed = true → a.node = d.node →
      blockRead (touchBlock d w a.index a.sub off len) w a.index a.sub off len = .ok x →
      ((touchBlock d w a.index a.sub off len).ses k).held = [] →
      exec (.blockRead k acked a off len) s = .next (s.replied k acked opBlock (blockBody 0 a off len []) x s.vault
        (touchBlock d w a.index a.sub off len))) ∧
    exec (.nop k acked) s = .next (s.replied k acked opNop [] [] s.vault d) ∧
    (∀ (seen : Nat), (Instr.replay k acked seen).wellFormed = true → dseqFollows seen (d.nat O.jdpSesDseq k) = false →
      exec (.replay k acked seen) s = .next (s.replied k acked opResync (resyncBody 2 0 0 seen [] 0)
        (resyncAnswer d k (firstReplayed d k seen) 0 0 []) s.vault d (replay d k seen)))

/-- R375, R377: what a session's next request that writes does: outside its locks an accepted WRITE, WRITE_MULTI or last BLOCK leaves
what the write engine leaves, and a piece of an assembled object is kept for the session. -/
def Obligations.SessionWritesAct : Prop :=
  ∀ (s : State) (k : Fin 16) (acked : Nat) (d : Dev) (w : Who), s.asks k → d = s.heard k acked → w = s.asker k acked →
    (∀ (x : Item) (y : Staged) (v : Vault) (e : Dev), (Instr.write k acked x).wellFormed = true → x.addr.node = d.node →
      y = ⟨x.addr.index, x.addr.sub, x.typ, none, x.data⟩ → holderLock d k d.node y = none →
      writeItems s.vault d w [y] = .ok (v, e) → (e.ses k).held = [] →
      exec (.write k acked x) s = .next (s.replied k acked opWrite (itemBytes x) [] v e)) ∧
    (∀ (l : List Item) (ys : List Staged) (v : Vault) (e : Dev), (Instr.writeMulti k acked l).wellFormed = true → 1 ≤ l.length →
      l.length ≤ 32 → (∀ x ∈ l, x.addr.node = d.node) → ys = l.map (fun x => ⟨x.addr.index, x.addr.sub, x.typ, none, x.data⟩) →
      (∀ y ∈ ys, holderLock d k d.node y = none) → writeItems s.vault d w ys = .ok (v, e) → (e.ses k).held = [] →
      exec (.writeMulti k acked l) s = .next (s.replied k acked opWriteMulti
        (leBytes 1 l.length ++ [0, 0, 0] ++ l.flatMap itemBytes) [] v e)) ∧
    (∀ (a : Addr) (l : Loc) (b : Bytes), (Instr.blockWrite k acked a 0 b).wellFormed = true → a.node = d.node →
      lookup a.index a.sub = some l → l.o.acc ≠ .ro → l.o.acc ≠ .const → writeRole w l ≤ w.role → l.o.ty = .domain →
      partialObj l.o = false →
      exec (.blockWrite k acked a 0 b) s = .next (s.replied k acked opBlock (blockBody 1 a 0 b.length b) [] s.vault
        (d.onSes k fun x => { x with block := some (blockKey (addrBytes a), b) }))) ∧
    (∀ (a : Addr) (l : Loc) (b : Bytes) (y : Staged) (v : Vault) (e : Dev), (Instr.blockWriteLast k acked a 0 b).wellFormed = true →
      a.node = d.node → lookup a.index a.sub = some l → l.o.acc ≠ .ro → l.o.acc ≠ .const → writeRole w l ≤ w.role →
      l.o.ty = .domain → partialObj l.o = false → y = ⟨a.index, a.sub, tyCode .domain, none, b⟩ →
      holderLock d k d.node y = none → writeItems s.vault (d.onSes k fun x => { x with block := none }) w [y] = .ok (v, e) →
      (e.ses k).held = [] →
      exec (.blockWriteLast k acked a 0 b) s = .next (s.replied k acked opBlock (blockBody 2 a 0 b.length b) [] v e))

/-- R378, R380, R381, R384: LOCK takes a lease, RENEW extends it, RELEASE frees it, COMMIT writes what is staged under it and keeps
or frees it, and SUBSCRIBE adds a subscription. -/
def Obligations.SessionLocksAct : Prop :=
  ∀ (s : State) (k : Fin 16) (acked : Nat) (d : Dev) (w : Who), s.asks k → d = s.heard k acked → w = s.asker k acked →
    (∀ (lease : Nat) (l : List (Nat × Nat)), (Instr.lock k acked d.node lease l).wellFormed = true → 1 ≤ l.length → l.length ≤ 8 →
      1 ≤ w.role → lockCode d k d.node lease l = none →
      exec (.lock k acked d.node lease l) s = .next (s.replied k acked opLock (lockBody d.node lease l)
        (lockAnswer (takeLock d k d.node lease l 0).1 lease) s.vault (takeLock d k d.node lease l 0).2)) ∧
    (∀ (handle lease j : Nat), (Instr.renew k acked handle lease).wellFormed = true → namedLock d k handle = .ok j →
      leaseOk lease = true → lockFar d j = none →
      exec (.renew k acked handle lease) s = .next (s.replied k acked opRenew (leBytes 2 handle ++ [0, 0] ++ leBytes 4 lease)
        (leBytes 4 lease) s.vault (renewLock d j lease))) ∧
    (∀ (handle j : Nat), (Instr.release k acked handle).wellFormed = true → handle ≠ 0xFFFF → namedLock d k handle = .ok j →
      exec (.release k acked handle) s = .next (s.replied k acked opRelease (leBytes 2 handle ++ [0, 0])
        (leBytes 2 (freeLock d j).2 ++ [0, 0]) s.vault (freeLock d j).1)) ∧
    (∀ (handle j : Nat) (v : Vault) (e : Dev), (Instr.commit k acked handle false).wellFormed = true → namedLock d k handle = .ok j →
      lockFar d j = none → writeItems s.vault d w (d.lock j).staged = .ok (v, e) → (e.ses k).held = [] →
      exec (.commit k acked handle false) s = .next (s.replied k acked opCommit (leBytes 2 handle ++ leBytes 1 0 ++ [0])
        (leBytes 2 (d.lock j).staged.length ++ [0, 0]) v (freeLock e j).1)) ∧
    (∀ (handle j : Nat) (v : Vault) (e : Dev), (Instr.commit k acked handle true).wellFormed = true → namedLock d k handle = .ok j →
      lockFar d j = none → writeItems s.vault d w (d.lock j).staged = .ok (v, e) → (e.ses k).held = [] →
      exec (.commit k acked handle true) s = .next (s.replied k acked opCommit (leBytes 2 handle ++ leBytes 1 1 ++ [0])
        (leBytes 2 (d.lock j).staged.length ++ [0, 0]) v (setStaged e j []))) ∧
    (∀ (kind : Nat) (a : Addr) (u : Sub), (Instr.subscribe k acked 1 kind a).wellFormed = true → a.node = d.node → kind ≤ 4 →
      u = subOf kind a.node a.index a.sub → subCode w u = none → (d.ses k).subs.contains u = false → (d.ses k).subs.length < 48 →
      exec (.subscribe k acked 1 kind a) s = .next (s.replied k acked opSubscribe (subBody 1 kind a)
        (subAnswer ((d.ses k).subs.length + 1)) s.vault (setSubs d k ((d.ses k).subs ++ [u]))))

/-- R365, R368, R369, R381, R386, R391: OPEN starts a session in a free slot under a key of its own; REJOIN gives it a new key,
CSEQ 0 and none of its locks; a held request is discarded, and a session ends by time, by CLOSE and with its binding; an expired
lease is freed, its owner told. -/
def Obligations.SessionsOpenAndEnd : Prop :=
  ∀ (s : State),
    (∀ (binding src : Nat) (key : Fin 16) (role : Fin 4) (timeout : Nat) (nonce : Bytes) (rk : RoleKey) (j : Nat),
      (Instr.openSession binding src key role timeout nonce).wellFormed = true → served s.ready binding = true →
      s.vault.key key = some rk → s.ready.jdp.openNonces.contains nonce = false → s.ready.ringMember = false →
      role.val ≤ roleNum rk.role → s.ready.on O.secRngState = false → freeSlot s.ready role = some j →
      exec (.openSession binding src key role timeout nonce) s = .next (s.become (leaving s.vault
        (let nd := (s.ready.random 16).1
         let d := (s.ready.random 16).2
         let id := nextSid d 17 d.jdp.lastSid
         let e := sessionStart d j id role key (if timeout = 0 then d.nat O.jdpTimeoutDefault else timeout) binding src
           (sesKey rk.key id nonce nd) nonce
         sesRespond e j opResync 0 false (resyncAnswer e j 0 0 0 nd))))) ∧
    (∀ (k : Fin 16) (src : Nat) (key : Fin 16) (seen timeout : Nat) (nonce : Bytes) (rk : RoleKey),
      (Instr.rejoin k src key seen timeout nonce).wellFormed = true → s.ready.sesOpen k = true →
      sessionOf s.ready (s.ready.nat O.jdpSesId k) = some k.val → served s.ready (sesBinding s.ready k) = true →
      s.ready.nat O.jdpSesId k < 65536 → sesRole s.ready k < 256 →
      s.vault.key key = some rk → (s.ready.ses k).nonces.contains nonce = false → s.ready.ringMember = false →
      sesRole s.ready k ≤ roleNum rk.role → s.ready.on O.secRngState = false →
      dseqFollows seen (s.ready.nat O.jdpSesDseq k) = false →
      exec (.rejoin k src key seen timeout nonce) s = .next (s.become (leaving s.vault
        (let nd := (s.ready.random 16).1
         let d := (s.ready.random 16).2.onSes k fun x => { x with
           keyId := key, key := sesKey rk.key (s.ready.nat O.jdpSesId k) nonce nd, lastAt := s.ready.up, held := [], kept := [], block := none, awaiting := none, absent := false, gathered := [],
           nonces := lastN 16 (x.nonces ++ [nonce]), iface := src / 2 ^ 48 }
         let d := ((d.setN O.jdpSesCseq 0 k).setN O.jdpSesPeer (src % 2 ^ 48) k).setN O.jdpSesTimeout
           (if timeout = 0 then d.nat O.jdpTimeoutDefault else timeout) k
         let x := freeLocks (d.bump O.jdpSesRejoins k) k 2
         let d := sesRespond x.1 k opResync 0 false (resyncAnswer x.1 k (firstReplayed x.1 k seen) x.2.1 x.2.2 nd)
         (replay x.1 k seen).foldl (fun y e => sesSend y k 4 0x40 0 e.1 e.2) d)))) ∧
    (∀ (k : Fin 16) (h : HeldReq) (t : List HeldReq), (s.ready.ses k).held = h :: t →
      exec (.heldRequestExpiry k) s = .next (s.became ((s.ready.onSes k fun x => { x with held := t }).bump O.jdpCntHeldExpired))) ∧
    (∀ (k : Fin 16), s.ready.sesOpen k = true →
      ∃ e, exec (.sessionTimeout k) s = .next (s.became e) ∧ e.sesOpen k = false ∧ e.ses k = {} ∧
        e.jdp.retained = s.ready.jdp.retained.filter fun n => n.slot != k.val) ∧
    (∀ (k : Fin 16), sesState s.ready k = 1 →
      exec (.openingTimeout k) s = .next (s.became (endSession s.ready k))) ∧
    (∀ (k : Fin 16), s.takes (part1 O.jdpSesCmd 1 k) → s.ready.sesOpen k = true →
      exec (.sessionClose k) s = .next (s.wrote (endSession s.ready k))) ∧
    (∀ (k : Fin 32) (slot : Nat), slot = s.ready.nat O.jdpLockOwner k → slot ≠ 0xFF →
      exec (.leaseExpiry k) s = .next (s.became (lockLost ((freeLock s.ready k).1.onSes slot fun x =>
        { x with expired := x.expired ++ [s.ready.nat O.jdpLockHandle k] }) slot (s.ready.nat O.jdpLockHandle k) 1
        (freeLock s.ready k).2))) ∧
    (∀ (field : BindingField) (value : Nat), (Instr.bindingWrite field value).wellFormed = true →
      s.takes (part1 (bindingObj field) value) → exec (.bindingWrite field value) s = .next (s.put ⟨bindingObj field, 0, 0⟩
        (bindingEff s.ready (s.ready.setN (bindingObj field) value) (bindingObj field))))

/-- R388: the host SPI port takes a message in, answers its status with the flags cleared, gives out the oldest message and counts
an unknown command; a CAN frame of another identifier is only counted by the node's error state, and a partial message is dropped. -/
def Obligations.PortMessagesAct : Prop :=
  ∀ (s : State),
    (∀ (len : Nat) (b : Bytes), spiUp s.ready = true → 32 ≤ len → len ≤ 1056 → b.length = len → s.ready.jdp.spiIn.length < 4 →
      served s.ready bindSpi = false →
      exec (.writeMsg true len b) s = .next (s.become (leaving s.vault
        ({ s.ready with jdp := { s.ready.jdp with spiIn := s.ready.jdp.spiIn ++ [b] } }.bump O.netSpiMsgsIn)))) ∧
    (∀ (len : Nat) (b : Bytes), spiUp s.ready = true → 32 ≤ len → len ≤ 1056 → b.length = len → s.ready.jdp.spiIn = [] →
      served s.ready bindSpi = true →
      exec (.writeMsg true len b) s = .next (s.become
        (let x := receive s.vault ({ s.ready with jdp := { s.ready.jdp with spiIn := [] } }.bump O.netSpiMsgsIn) bindSpi 0 b
         leaving x.1 x.2))) ∧
    (spiUp s.ready = true →
      ∃ e, exec .readStatus s = .next (s.became e) ∧ e.jdp.spiOvr = false ∧ e.jdp.spiErr = false ∧ e.jdp.resp.body.length = 4 ∧
        e.objs = s.ready.objs) ∧
    (∀ (count : Nat) (m : Bytes) (rest : List Bytes), spiUp s.ready = true → s.ready.jdp.spiOut = m :: rest → m.length ≤ count →
      ∃ e, exec (.readMsg count) s = .next (s.became e) ∧ e.jdp.resp.body = [0] ++ m ∧ e.jdp.spiOut = rest) ∧
    (∀ (p : Fin 2) (id : Nat) (b : Bytes), s.ready.nat O.netCanState p = 1 → s.ready.nat O.netCanRec p = 0 →
      id < s.ready.nat O.jdpCanBase →
      exec (.canFrame p id false b) s = .next (s.become (leaving s.vault (canConfine s.ready p (s.ready.nat O.netCanTec p) 0)))) ∧
    (∀ (p : Fin 2) (c : Fin 8), exec (.canReassemblyTimeout p c) s = .next (s.became
      { s.ready with jdp := { s.ready.jdp with can := tabDel s.ready.jdp.can (p * 8 + c) } }))

/-- R396, R400, R402: STORE begins a new image of the stored objects, its end puts the image in the slot that is not active, or
raises F053; RESTORE and DEFAULTS run the effects of what they put in force; ERASE empties both slots; the mirrors take the values
of their refresh. -/
def Obligations.ConfigurationActs : Prop :=
  ∀ (s : State),
    (∀ (n : Nat), s.takes (part1 O.devCfgCmd 1) → cfgWriting s.ready = false →
      n = (match activeImage s.ready.cfg with | some (b, _) => imageSeq b | none => 0) → n ≠ 0xFFFFFFFF →
      imageSize s.ready ≤ 131072 →
      exec .store s = .next (s.wrote ({ s.ready with cfg := { s.ready.cfg with writing := some (imageOf s.ready (n + 1)) } }.setN
        O.devCfgState 1))) ∧
    (∀ (b : Bytes), s.ready.cfg.writing = some b → activeImage s.ready.cfg = none →
      exec (.storeDone true) s = .next (s.became (cfgObjects ({ s.ready with
        cfg := { s.ready.cfg with writing := none, slotA := b } }.setN O.devCfgState 2)))) ∧
    (∀ (b : Bytes), s.ready.cfg.writing = some b →
      exec (.storeDone false) s = .next (s.became ((({ s.ready with cfg := { s.ready.cfg with writing := none } }.setN
        O.devCfgState 3).raise 53 0 1 2)))) ∧
    (s.takes (part1 O.devCfgCmd 2) → cfgIdle s.ready = true →
      exec .restore s = .next (s.wrote (restoreEffects s.ready (applyImage s.ready fun _ => true)))) ∧
    (s.takes (part1 O.devCfgCmd 3) → cfgIdle s.ready = true →
      exec .defaults s = .next (s.wrote (restoreEffects s.ready
        { s.ready with objs := dropWhere (fun l => isStored l.o) s.ready.objs }))) ∧
    (s.takes (part1 O.devCfgCmd 4) → cfgWriting s.ready = false →
      exec .erase s = .next (s.wrote (cfgObjects { s.ready with cfg := { slotA := [], slotB := [] } }))) ∧
    (∀ (m d : Dev), alive s.ready = true → m = mirrorValues s.vault (forUpto 12 compareLane s.ready) →
      d = (objectSubs { m with mirror := mirrorCopy m, mirrorAt := m.now }).foldl (objectNotify s.vault m.mirror)
        { m with mirror := mirrorCopy m, mirrorAt := m.now } →
      exec .mirrorRefresh s = .next (s.become
        (let x := takeInbound s.vault (askAgain (forUpto 16 (fun k x => if x.sesOpen k then drainQueue x k else x) d))
         leaving x.1 x.2)))

/-- R24, R206, R313, R347, R499, R510: a read of an object whose reading has an effect answers its value and leaves the effect: a
sticky object is cleared, a tracker starts from the next conversion, the high-water mark falls to the present use. -/
def Obligations.ReadsWithEffectAct : Prop :=
  ∀ (s : State),
    (∀ (index sub : Nat) (l : Loc) (d : Dev), lookup index sub = some l → d = touchAt s.ready {} index sub → readCode d {} l = none →
      readLost d l 0 1020 = false → l.o.ty ≠ .domain → hasEffect d {} l = true → l.o ≠ O.samEMin → l.o ≠ O.samEMax →
      l.o ≠ O.resPoolHiwater →
      exec (.stickyFlagsRead index sub) s = .next (s.became ((d.setN l.o 0 l.i l.g).answers
        (typed (tyCode l.o.ty) (encodeVal l.o.ty (readVal s.vault d {} l)))))) ∧
    (∀ (max : Bool) (e : Fin 64) (l : Loc) (d : Dev), l = ⟨if max then O.samEMax else O.samEMin, e, 0⟩ →
      d = readTouch s.ready {} l 0 1020 → readCode d {} l = none → readLost d l 0 1020 = false → hasEffect d {} l = true →
      exec (.trackerRead max e) s = .next (s.became ((trackerRead d l.o e).answers
        (typed (tyCode l.o.ty) (encodeVal l.o.ty (readVal s.vault d {} l)))))) ∧
    (∀ (l : Loc) (d : Dev), l = ⟨O.resPoolHiwater, 0, 0⟩ → d = readTouch s.ready {} l 0 1020 → readCode d {} l = none →
      readLost d l 0 1020 = false → hasEffect d {} l = true →
      exec .hiwaterRead s = .next (s.became ((d.setN O.resPoolHiwater (d.nat O.resPoolUsed)).answers
        (typed (tyCode l.o.ty) (encodeVal l.o.ty (readVal s.vault d {} l)))))) ∧
    (∀ (k : Fin 8) (l : Loc) (d : Dev), l = ⟨O.tiuInLatch, k, 0⟩ → d = readTouch s.ready {} l 0 1020 → readCode d {} l = none →
      readLost d l 0 1020 = false → hasEffect d {} l = true →
      exec (.tinLatchRead k) s = .next (s.became ((d.setN O.tiuInLatch 0 k).answers
        (typed (tyCode l.o.ty) (encodeVal l.o.ty (readVal s.vault d {} l)))))) ∧
    (∀ (severe : Bool) (w : Fin 8) (l : Loc) (d : Dev), l = ⟨if severe then O.fcrSevere else O.fcrStatus, 0, w⟩ →
      d = readTouch s.ready { role := 1 } l 0 1020 → readCode d { role := 1 } l = none → readLost d l 0 1020 = false →
      hasEffect d { role := 1 } l = true →
      exec (.fcrStatusRead severe w) s = .next (s.became ((d.setN l.o 0 0 w).answers
        (typed (tyCode l.o.ty) (encodeVal l.o.ty (readVal s.vault d { role := 1 } l)))))) ∧
    (∀ (k : Fin 16) (l : Loc) (d : Dev), l = ⟨O.compatBlkStatus, k, 0⟩ → d = readTouch s.ready {} l 0 1020 → readCode d {} l = none →
      readLost d l 0 1020 = false → hasEffect d {} l = true →
      exec (.compatStatusRead k) s = .next (s.became ((d.setN O.compatBlkStatus 0 k).answers
        (typed (tyCode l.o.ty) (encodeVal l.o.ty (readVal s.vault d {} l))))))

/-- R426, R427, R428, R429, R434: a good frame for the port is counted and an ARP message taken in, a bad one counted as an error; the
PHY poll sets link and duplex; PRP supervision, the DHCP timers and ARP ageing act; a new PRP mode or address closes the interface's
sessions and starts it again; a bus-off CAN port recovers, and a bus error moves its error counters. -/
def Obligations.NetworksAct : Prop :=
  ∀ (s : State),
    (∀ (p : Fin 2) (tick : Fin 250) (b : Bytes), linkUp s.ready p = true → 60 ≤ b.length → b.length ≤ 1518 →
      beField b 12 2 = 0x0806 → macTaken s.ready (ifOf s.ready p) (beField b 0 6) = true → prp s.ready = false →
      exec (.ethFrame p tick true b) s = .next (s.become (leaving s.vault
        (arpIn (s.ready.bump O.netEthRxFrames p) (ifOf s.ready p) (b.drop 14))))) ∧
    (∀ (p : Fin 2) (tick : Fin 250) (b : Bytes), linkUp s.ready p = true →
      exec (.ethFrame p tick false b) s = .next (s.become (leaving s.vault (s.ready.bump O.netEthRxErrors p)))) ∧
    (∀ (p : Fin 2) (link : Fin 4) (full : Bool) (d : Dev), ethOn s.ready p = true → ifUp s.ready (ifOf s.ready p) = false →
      d = (s.ready.setN O.netEthLink link p).setN O.netEthDuplex (b2n full) p → ifUp d (ifOf s.ready p) = false →
      exec (.mdioPoll p link full) s = .next (s.became d)) ∧
    (∀ (n : Nat), prp s.ready = true → n = (prpAge s.ready).net.supSeq → exec .prpSupervision s = .next (s.became
      (ethSend ((prpAge s.ready).onNet fun x => { x with supSeq := (n + 1) % 65536 }) 0 prpMac 0x88FB
        ([0, 1] ++ beBytes 2 n ++ [20, 6] ++ beBytes 6 (macOf ((prpAge s.ready).onNet fun x =>
          { x with supSeq := (n + 1) % 65536 }) 0) ++ [0, 0])))) ∧
    (∀ (iface : Fin 2), (s.ready.iface iface).dhcp = 3 → exec (.dhcpRenew iface) s = .next (s.became
      (dhcpSend (s.ready.onIf iface fun f => { f with dhcp := 4 }) iface 3))) ∧
    (∀ (iface : Fin 2), (s.ready.iface iface).dhcp = 4 → exec (.dhcpRebind iface) s = .next (s.became
      (dhcpSend (s.ready.onIf iface fun f => { f with dhcp := 5 }) iface 3))) ∧
    (∀ (iface : Fin 2), (s.ready.iface iface).dhcp = 5 → ifUp s.ready iface = true → exec (.dhcpLeaseExpiry iface) s = .next (s.became
      (dhcpDiscover (ifClear s.ready iface) iface))) ∧
    (∀ (iface : Fin 2), exec (.arpAgeing iface) s = .next (s.became (s.ready.onIf iface fun f =>
      { f with arp := f.arp.filter fun e => decide (s.ready.up < e.seen + 60000000000) }))) ∧
    (∀ (iface : Fin 2) (value : Nat), (Instr.prpModeWrite .prpMode iface value).wellFormed = true →
      s.takes (part1 O.netPrpMode value) →
      exec (.prpModeWrite .prpMode iface value) s = .next (s.put ⟨O.netPrpMode, 0, 0⟩
        (ptpStart (ifStart (ifStart (endIface (endIface (s.ready.setN O.netPrpMode value) 0) 1) 0) 1)))) ∧
    (∀ (field : AddressField) (iface : Fin 2) (value : Nat), field ≠ .prpMode →
      (Instr.prpModeWrite field iface value).wellFormed = true → s.takes (part1 (addressObj field) value iface) →
      exec (.prpModeWrite field iface value) s = .next (s.put ⟨addressObj field, iface, 0⟩
        (ifStart (endIface (s.ready.setN (addressObj field) value iface) iface) iface))) ∧
    (∀ (p : Fin 2), s.ready.nat O.netCanState p = 3 →
      exec (.canBusOffRecovery p) s = .next (s.became (canConfine s.ready p 0 0))) ∧
    (∀ (p : Fin 2) (heavy : Bool), s.ready.nat O.netCanState p ≠ 0 → s.ready.nat O.netCanState p ≠ 3 →
      exec (.canBusError p true heavy) s = .next (s.became
        (canConfine s.ready p (s.ready.nat O.netCanTec p + 8) (s.ready.nat O.netCanRec p)))) ∧
    (∀ (p : Fin 2), s.ready.nat O.netCanState p ≠ 0 → s.ready.nat O.netCanState p ≠ 3 →
      exec (.canBusError p false true) s = .next (s.became
        (canConfine s.ready p (s.ready.nat O.netCanTec p) (s.ready.nat O.netCanRec p + 8))))

/-- R436, R438: a head originates cells of its frame, each cell in order; a node takes a received head cell in and then the cells that
follow; a node that sends link frames originates one of forty cells; a bad port goes down after three bad frames. -/
def Obligations.RingFramesAct : Prop :=
  ∀ (s : State),
    (∀ (tick : Fin 250) (d : Dev), s.ready.hl.head = true → hlSynced s.ready = true → d = startFrame s.ready tick → d.hl.cell = 0 →
      exec (.hlFrameOriginate tick 0 1) s = .next (s.became (originateCell d 0 (d.clk + 2 * (tick.val : Int))))) ∧
    (∀ (tick : Fin 250) (first : Fin 40), s.ready.hl.head = true → hlSynced s.ready = true → first.val ≠ 0 →
      s.ready.hl.cell = first → exec (.hlFrameOriginate tick first 1) s = .next (s.became
        (originateCell s.ready first (s.ready.clk + 2 * (tick.val : Int))))) ∧
    (∀ (p : Fin 2) (tick : Fin 250) (sd : Fin 5) (fwd : Nat) (b : Bytes), hlState s.ready ≠ hsOff →
      exec (.hlFrame p tick sd fwd 0 [b]) s = .next (s.become (leaving s.vault (headIn s.ready p tick sd fwd b)))) ∧
    (∀ (p : Fin 2) (tick : Fin 250) (sd : Fin 5) (fwd : Nat) (first : Fin 40) (b : Bytes), hlState s.ready ≠ hsOff →
      first.val ≠ 0 → exec (.hlFrame p tick sd fwd first [b]) s = .next (s.become
        (let x := cellIn (s.vault, s.ready) p first tick b
         leaving x.1 x.2))) ∧
    (∀ (p : Fin 2) (tick : Fin 250) (sd : Fin 5), sendsLink s.ready p = true →
      exec (.linkFrameOriginate p tick sd) s = .next (s.became
        (let a := takeFit 1053 ((s.ready.port p).ctl.filter fun b => beField b 1 1 = dstNeighbour)
         let d := s.ready.onPort p fun q =>
           { q with ctl := a.2 ++ q.ctl.filter (fun b => beField b 1 1 ≠ dstNeighbour), sentAt := stampAt s.ready tick sd }
         let h : Header := { dir := 2, ring := 0, late := false, remote := d.nat O.hlPortState p == 0, hop := 0, nodes := 0,
                             epoch := d.nat O.hlEpoch, mark := d.clk + 2 * (tick.val : Int), acc := 0 }
         let z := List.replicate 5 0
         forUpto 40 (fun k x => sendCell x p k (if k = 0 then headCell z z true h
           else cellBytes k z z true (slice a.1 (27 * (k - 1)) 27))) d))) ∧
    (∀ (p : Fin 2), hlState s.ready ≠ hsOff → s.ready.nat O.hlPortState p ≠ 0 →
      exec (.hlPortDown p) s = .next (s.became (portDown ((s.ready.bump O.hlPortBad p 0 (3 - (s.ready.port p).bad)).onPort p fun x =>
        { x with bad := 3 }) p)))

/-- R439, R440, R442: a member that hears no frame isolates; a node that may lead begins to form after its delay; a better candidate
makes a head resign; a head keeps what a member's ALIVE says, flags a second holder of a number, drops a member that left and forms
the ring again on REFORM; a member announces itself; enabling starts the search and disabling ends it. -/
def Obligations.RingFormsAndKeepsMembers : Prop :=
  ∀ (s : State),
    (s.ready.hl.head = false → hlState s.ready ≠ hsOff → hlState s.ready ≠ hsSearch → hlState s.ready ≠ hsIsolated →
      exec .hlIsolated s = .next (s.became (isolate s.ready))) ∧
    (hlState s.ready = hsSearch → s.ready.nat O.hlRole = 0 → exec .electDelay s = .next (s.became (startForm s.ready))) ∧
    (∀ (priority role uid : Nat), s.ready.hl.head = true → uid ≠ s.ready.nat O.idUid →
      listLt [1 - b2n (role == 1), priority, uid]
        [1 - b2n (s.ready.nat O.hlRole == 1), s.ready.nat O.hlPriority, s.ready.nat O.idUid] = true →
      exec (.form priority role uid) s = .next (s.became (resign s.ready))) ∧
    (∀ (node : Fin 64) (uid pos : Nat) (measured : Bool), s.ready.hl.head = true → node.val ≠ 0 →
      tabFind s.ready.hl.alive node = none →
      exec (.alive node uid pos measured) s = .next (s.became
        (let d := s.ready.onHl fun h => { h with
           alive := tabPut h.alive node s.ready.up, uids := tabPut h.uids node uid, hops := tabPut h.hops node pos,
           linksOk := tabPut h.linksOk node (b2n measured) }
         headCheck (setMembers d (setBit (members d) node))))) ∧
    (∀ (node : Fin 64) (t uid pos : Nat) (measured : Bool), s.ready.hl.head = true → tabFind s.ready.hl.alive node = some t →
      tabGet uid s.ready.hl.uids node ≠ uid → s.ready.hl.conflict = false →
      exec (.alive node uid pos measured) s = .next (s.became
        (((s.ready.onHl fun h => { h with conflict := true }).flag O.hlFlags 8).raise 63 0 1 node))) ∧
    (s.ready.hl.head = false → s.ready.nat O.hlNode ≠ 0xFF → hlSynced s.ready = true →
      exec .aliveSend s = .next (s.became (sendCtl s.ready 0 2 (leBytes 8 (s.ready.nat O.idUid) ++ leBytes 1 s.ready.hl.pos ++
        leBytes 1 (b2n ((s.ready.port 0).measured && (s.ready.port 1).measured)))))) ∧
    (∀ (node : Fin 64), s.ready.hl.head = true → node.val ≠ 0 → bit (members s.ready) node = true →
      exec (.nodeLeft node) s = .next (s.become (leaving s.vault (nodeGone s.ready node)))) ∧
    (s.takes (part1 O.hlCmd 1) → s.ready.hl.head = true → exec .reform s = .next (s.wrote (startForm s.ready))) ∧
    (s.takes (part1 O.hlEnable 1) → exec (.hlEnable true) s = .next (s.put ⟨O.hlEnable, 0, 0⟩ (hlSearch (s.ready.setI O.hlEnable 1)))) ∧
    (s.takes (part1 O.hlEnable 0) → exec (.hlEnable false) s = .next (s.put ⟨O.hlEnable, 0, 0⟩ (hlOff (s.ready.setI O.hlEnable 0))))

/-- R447, R452, R453: a head in step takes a break in, plans the unwrap at a mark and runs again at that mark; a member keeps the mark,
loses its cut at it, answers a recovery with its terms from the asked instant on, and follows what the head sends back. -/
def Obligations.RingBreaksAndRecovers : Prop :=
  ∀ (s : State),
    (∀ (pos : Nat) (port : Fin 2), s.ready.hl.head = true → hlSynced s.ready = true →
      exec (.breakPacket pos port) s = .next (s.became (headWrapped s.ready pos port))) ∧
    (∀ (mark : Int), s.ready.hl.head = false →
      exec (.unwrap mark) s = .next (s.became (s.ready.onHl fun h => { h with unwrapAt := some mark }))) ∧
    (∀ (m : Int), s.ready.hl.head = true → hlState s.ready = hsWrapped → m = (s.ready.clk + 1000000 + 7999) / 8000 * 8000 →
      exec .hlRevertHold s = .next (s.became
        (sendCtl (s.ready.onHl fun h => { h with unwrapAt := some m }) dstAll 4 (leInt 8 m)))) ∧
    (∀ (m : Int), s.ready.hl.unwrapAt = some m → hlState s.ready = hsWrapped → s.ready.hl.cut = 0 → s.ready.hl.head = true →
      exec .hlUnwrapMark s = .next (s.became (askRecover ((s.ready.onHl fun h =>
        { h with unwrapAt := none, cut := 0, ringState := 1, breaks := [], recalc := 3 }).setN O.hlState hsSync)))) ∧
    (∀ (m : Int) (p : Fin 2), s.ready.hl.unwrapAt = some m → hlState s.ready = hsWrapped → s.ready.hl.cut = 2 ^ p.val →
      portUp s.ready p = true → s.ready.hl.head = false →
      exec .hlUnwrapMark s = .next (s.became (staleFollow ((s.ready.onHl fun h =>
        { h with unwrapAt := none, cut := 0 }).setN O.hlState hsSync)))) ∧
    (∀ (start : Int) (l : List (Int × Nat)), s.ready.hl.head = false →
      l = (start, termAt s.ready start) :: s.ready.erm.termLog.filter (fun e => decide (start < e.1)) →
      exec (.recoverRequest start) s = .next (s.became (sendEntries s.ready 0 ((l.length + 102) / 103) l))) ∧
    (∀ (node : Fin 64) (l : List (Int × Nat)), s.ready.hl.head = false →
      exec (.recoverReply node 0 l) s = .next (s.became
        (staleFollow ((sysRecover s.ready l).onHl fun h => { h with breaking := false })))) ∧
    (∀ (node : Fin 64) (left : Nat) (t : Int) (l : List (Int × Nat)), s.ready.hl.head = true → s.ready.hl.missing = some t →
      s.ready.hl.recovering = [node.val] → left ≠ 0 →
      exec (.recoverReply node left l) s = .next (s.became (s.ready.onHl fun h =>
        { h with recovered := h.recovered ++ l.map fun e => (node.val, e.1, e.2) })))

/-- R389, R443, R450, R451: a node runs the head's forwarded operation, keeps the result and sends it; the head takes the awaited
response; it queues another node's notification for the sessions its mask names and offers a record to its stream; a LINK packet
measures its port, and a node sends LINK. -/
def Obligations.RingPacketsAct : Prop :=
  ∀ (s : State),
    (∀ (k : Fin 16) (role : Fin 4) (b : Bytes) (r : Resp) (v : Vault) (d : Dev) (rep : List (Nat × Bytes)), s.ready.hl.head = false →
      16 ≤ b.length → leField b 4 4 ≠ 0 → (s.ready.jdp.fwdKept.any fun x => x.slot == k.val && x.request == b) = false →
      runOp s.vault s.ready { slot := k, role := role, cseq := leField b 4 4, remote := true } (leField b 1 1) (b.drop 16) =
        .done r v d rep →
      exec (.dictReq k role b) s = .next (s.become
        (let x := respBytes r
         let a := routed (8 + 2 * b2n x.1) (leField b 1 1) (leField b 2 2) (leField b 4 4) x.2
         leaving v (sendDict { d with jdp := { d.jdp with
           resp := r, fwdKept := d.jdp.fwdKept.filter (·.slot != k.val) ++
             lastN 64 (d.jdp.fwdKept.filter (·.slot == k.val) ++ [⟨k, b, a⟩]) } } ptRsp 0 (16 * role + k) a)))) ∧
    (∀ (node : Fin 64) (k : Fin 16) (b req : Bytes) (cseq op : Nat), s.ready.hl.head = true →
      (s.ready.ses k).awaiting = some (node.val, cseq, op, req) → leField b 4 4 = cseq → leField b 1 1 = op →
      leField b 2 2 = s.ready.nat O.jdpSesId k →
      exec (.dictRsp node k b) s = .next (s.become
        (let x := farDone s.vault s.ready k node op cseq req (bit (leField b 0 1) 1) (b.drop 16)
         leaving x.1 x.2))) ∧
    (∀ (node : Fin 64) (seq : Nat) (b : Bytes) (d : Dev), s.ready.hl.head = true →
      d = notifLost (gapIn s.ready node ptNotif seq (leField b 2 2)).2 (fun u => u.node == node.val && u.kind != 0)
        (gapIn s.ready node ptNotif seq (leField b 2 2)).1 →
      exec (.notifPacket node seq b) s = .next (s.became (forUpto 16 (fun k y =>
        if bit (leField b 0 2) k && y.sesOpen k && (y.ses k).subs.any (subMeets node (b.drop 4)) then
          (y.queueNotif k (leField (b.drop 4) 0 1) node 0 ((b.drop 4).drop 12)).1
        else y) d))) ∧
    (∀ (node : Fin 64) (stream : Fin 16) (seq : Nat) (b : Bytes) (d : Dev), s.ready.hl.head = true →
      d = notifLost (gapIn s.ready node ptResult seq (leField b 0 2)).2 (fun u => u.node == node.val && u.kind == 0)
        (gapIn s.ready node ptResult seq (leField b 0 2)).1 →
      exec (.resultPacket node stream seq b) s = .next (s.became
        ((resultEntries 14 (b.drop 4)).foldl (fun y e => deliverResult y stream node e.1 e.2) d))) ∧
    (∀ (p : Fin 2) (sent rcvd : Nat), hlState s.ready ≠ hsOff →
      exec (.link p sent rcvd) s = .next (s.became (headCheck ((s.ready.onPort p fun y => { y with measured := true }).setN O.hlPortDelay
        ((((s.ready.port p).rcvdAt : Int) - (s.ready.port p).sentAt - ((sent : Int) - rcvd)) * 200 +
          roundDiv (s.ready.int O.hlPortAsym p) 2).toNat p)))) ∧
    (∀ (p : Fin 2), hlState s.ready ≠ hsOff → hlState s.ready ≠ hsHeld →
      exec (.linkSend p) s = .next (s.became
        (let x := ownPacket s.ready ptLink dstNeighbour 0 (leBytes 8 (s.ready.port p).sentAt ++ leBytes 8 (s.ready.port p).rcvdAt)
         queueOn x.2 p false x.1)))

/-- R456, R457, R459, R461, R462, R464: the loss of a source that is not in use takes its qualification away, and of the one in use
moves the core; a source qualifies; a coarse trim window sets a bit of the code and a fine one moves it by a step; the PLL locks; steering ends
LOCKED on its reference; a multiplexer switch that waits is done. -/
def Obligations.ClockSourcesAct : Prop :=
  ∀ (s : State),
    (s.ready.clkg.ref ≠ 1 → exec (.clockLoss 0) s = .next (s.became (trimFollow (setQual s.ready 0 false)))) ∧
    (s.ready.clkg.ref = 1 → exec (.clockLoss 0) s = .next (s.became (refLost (trimFollow (setQual s.ready 0 false))))) ∧
    (s.ready.clkg.ref ≠ 2 → exec (.clockLoss 1) s = .next (s.became (trimFollow (setQual (setQual s.ready 3 false) 1 false)))) ∧
    exec (.clockLoss 2) s = .next (s.became (hrcLost s.ready)) ∧
    (refQualified s.ready 1 = true →
      exec (.clockQualified 1) s = .next (s.became (refAvailable (setQual (setQual s.ready 1 true) 3 false)))) ∧
    exec (.clockQualified 0) s = .next (s.became (refAvailable (setQual s.ready 0 true))) ∧
    (∀ (excess : Int), s.ready.nat O.clkTrimSrc ≠ 0 → cgState s.ready ≠ cgLimp → 12 ≤ s.ready.clkg.coarse →
      exec (.hrcTrimWindow excess) s = .next (s.became
        ((fineWindow s.ready (excess * 10000)).setN O.clkTrimSrc (wantTrim (fineWindow s.ready (excess * 10000)))))) ∧
    (∀ (excess : Int) (d : Dev), s.ready.nat O.clkTrimSrc ≠ 0 → cgState s.ready ≠ cgLimp → s.ready.clkg.coarse = 11 →
      d = (s.ready.setN O.clkHrcTrim (if 0 < excess then clrBit (s.ready.nat O.clkHrcTrim) 0
        else setBit (s.ready.nat O.clkHrcTrim) 0)).onClk (fun c => { c with coarse := 12 }) →
      exec (.hrcTrimWindow excess) s = .next (s.became (d.setN O.clkTrimSrc (wantTrim d)))) ∧
    (cgState s.ready = cgLocking → s.ready.clkg.sysPll = true →
      exec .pllLock s = .next (s.became (samRestartAll (toLocked s.ready)))) ∧
    (cgState s.ready = cgRelock → s.ready.clkg.sysPll = true →
      exec .pllLock s = .next (s.became (samRestartAll (trimFollow
        ((s.ready.setN O.clkLastRelock (s.ready.up - s.ready.clkg.switchAt)).setN O.clkState cgBackup))))) ∧
    (cgState s.ready = cgSteer → s.ready.clkg.pendPll = none → refQualified s.ready s.ready.clkg.ref = true →
      exec .steerDone s = .next (s.became
        (toLocked ((s.ready.setN O.clkInput s.ready.clkg.ref).setN O.clkTrimSrc s.ready.clkg.ref)))) ∧
    (∀ (k : Nat), s.ready.clkg.pendPll = some k → s.ready.clkg.pendSys = false → sourceAlive s.ready (s.ready.nat O.clkInput) = true →
      exec .muxSwitchDone s = .next (s.became (muxFollow ((s.ready.onClk fun c => { c with pendPll := none }).setN O.clkInput k))))

/-- R458, R467, R473, R474, R475: a relock that takes too long leaves no clock and one that never qualifies leaves LIMP, each raised;
BACKUP steers back on its own after the hold and on REVERT; a new reference choice in LOCKED switches; the gates follow their mask;
a drift window without a sample starts afresh; the backup limit is raised. -/
def Obligations.ClockLimitsAct : Prop :=
  ∀ (s : State),
    (cgState s.ready = cgRelock → exec .relockTimeout s = .next (s.became (toNoclock (s.ready.raise 62 0 4 0)))) ∧
    (cgState s.ready = cgBypass → s.ready.pmu.held = false → exec .qualTimeout s = .next (s.became
      (((s.ready.setN O.clkState cgLimp).flag O.clkFlags 8).raise 62 0 3 0))) ∧
    (s.takes (part1 O.clkCmd 1) → cgState s.ready = cgBackup → s.ready.clkg.pendPll = none → chooseRef s.ready ≠ 0 →
      exec .revert s = .next (s.wrote (steerTo s.ready (chooseRef s.ready)))) ∧
    (cgState s.ready = cgBackup → s.ready.on O.clkRevertAuto = true → chooseRef s.ready ≠ 0 → s.ready.clkg.pendPll = none →
      exec .clockRevertHold s = .next (s.became (steerTo s.ready (chooseRef s.ready)))) ∧
    (∀ (value : Nat) (d : Dev), (Instr.refSelWrite value).wellFormed = true → s.takes (part1 O.clkRefSel value) →
      d = s.ready.setN O.clkRefSel value → cgState d = cgLocked → chooseRef d ≠ 0 → chooseRef d ≠ d.clkg.ref →
      exec (.refSelWrite value) s = .next (s.put ⟨O.clkRefSel, 0, 0⟩
        (steerTo (switchPll (d.onClk fun c => { c with backAt := some d.up }) 3) (chooseRef d)))) ∧
    (∀ (mask : Nat), (Instr.clockGateWrite mask).wellFormed = true → s.takes (part1 O.clkGate mask) →
      exec (.clockGateWrite mask) s = .next (s.put ⟨O.clkGate, 0, 0⟩ (gateFollow (s.ready.setN O.clkGate mask)))) ∧
    (s.ready.clkg.driftN = 0 → exec .driftWindow s = .next (s.became
      (s.ready.onClk fun c => { c with driftSum := 0, driftN := 0, driftBad := false }))) ∧
    (cgState s.ready = cgBackup → exec .backupLimit s = .next (s.became (s.ready.raise 62 2 6 0)))

/-- R192, R479, R481, R485: domains are switched on and off once nothing forbids it, and their switching ends; QUIET and RUN act on the
domains they take; a domain that loses its power ends what runs in it, a lane's together with its slices; the reset of lanes and of
units acts on those named. -/
def Obligations.DomainsSwitch : Prop :=
  ∀ (s : State),
    (∀ (mask : Nat), (Instr.domainOn mask).wellFormed = true → s.takes (part1 O.pmuPdOn mask) → firstCode (onCode s.ready) mask = 0 →
      exec (.domainOn mask) s = .next (s.wrote (eachBit mask askOn s.ready))) ∧
    (∀ (mask : Nat), (Instr.domainOff mask).wellFormed = true → s.takes (part1 O.pmuPdOff mask) →
      firstCode (offCode s.ready 0) mask = 0 →
      exec (.domainOff mask) s = .next (s.wrote (eachBit mask askOff s.ready))) ∧
    (∀ (n : Fin 31), bit s.ready.pmu.onPend n = true →
      exec (.domainSwitchDone n) s = .next (s.became (pstateFollow
        ((domainUp s.ready n).onPmu fun p => { p with quiet := clrBit p.quiet n })))) ∧
    (∀ (n : Fin 31), bit s.ready.pmu.onPend n = false → bit s.ready.pmu.offPend n = true →
      n.val ≠ 28 ∨ bit s.ready.pmu.quiet 28 = false →
      exec (.domainSwitchDone n) s = .next (s.became (pstateFollow (domainDown s.ready n)))) ∧
    (bit s.ready.pmu.onPend 28 = false → bit s.ready.pmu.offPend 28 = true → bit s.ready.pmu.quiet 28 = true →
      exec (.domainSwitchDone 28) s = .next (s.became (pstateFollow (retain s.ready 28)))) ∧
    (s.takes (part1 O.pmuCmd 2) → bit s.ready.pmu.power 28 = false →
      exec .quiet s = .next (s.wrote
        (let m := forUpto 21 (fun n m => if 1 ≤ n && quietTakes s.ready n then setBit m n else m) 0
         pstateFollow (eachBit m askOff (s.ready.onPmu fun p => { p with quiet := p.quiet ||| m }))))) ∧
    (s.takes (part1 O.pmuCmd 3) → exec .pmuRun s = .next (s.wrote
      (eachBit s.ready.pmu.quiet (fun x n => if onCode x n = 0 then askOn x n else x) s.ready))) ∧
    (∀ (n : Fin 12), bit s.ready.pmu.power (n + 1) = true →
      exec (.domainSwitchedOffByFault ⟨n + 1, by omega⟩) s = .next (s.became
        (cascadeSweep (((s.ready.laneCut n).flag O.fallowLanes (1 <<< n.val)).updateFallow)))) ∧
    (∀ (mask : Nat), s.takes (part1 O.pmuLaneReset mask) → mask < 4096 → (Instr.laneReset mask).wellFormed = true →
      exec (.laneReset mask) s = .next (s.wrote (forUpto 12 (fun n x =>
        if bit mask n && bit x.pmu.power (n + 1) then
          askOn (x.laneCut n) (n + 1)
        else x) s.ready))) ∧
    (∀ (mask : Nat), (Instr.unitReset mask).wellFormed = true → s.takes (part1 O.pmuUnitReset mask) → mask < 2 ^ 24 →
      (∀ k, k < 24 → bit mask k = true → bit s.ready.pmu.power (gateDomain k) = true → resetIdle s.ready k = true) →
      exec (.unitReset mask) s = .next (s.wrote (forUpto 24 (fun k x => if bit mask k then unitAgain x k else x) s.ready)))

/-- R485, R487, R490: a reset request holds the controller for what is left of its millisecond and starts again with cause 3; a
power-on reset clears what does not survive; the reset pin holds in reset and releases with cause 2; the stuck guard starts with cause
5 and the pin is armed again; a watchdog that expires on the passive core resets that core, on the active core hands over, and with no
standby resets with cause 4. -/
def Obligations.ResetsAct : Prop :=
  ∀ (s : State),
    (∀ (straps t : Nat), s.ready.pmu.resetDue = some t → exec (.resetRequest straps) s = .next (s.became
      (resetRelease s.vault (resetHold { relayCountSave s.ready with up := (relayCountSave s.ready).up + (t - s.ready.up) }) 3 straps))) ∧
    exec .powerOnReset s = .next (s.became (clearPower s.ready)) ∧
    (s.ready.nat O.pmuResetPin = 1 → s.ready.nat O.devState ≠ 5 → s.ready.nat O.devState ≠ 6 →
      exec .resetPinLow s = .next (s.became ((resetHold s.ready).setN O.pmuResetPin 2))) ∧
    (∀ (straps : Nat), s.ready.nat O.pmuResetPin = 2 → exec (.resetPinHigh straps) s = .next (s.became
      (resetRelease s.vault (s.ready.setN O.pmuResetPin 1) 2 straps))) ∧
    (∀ (straps : Nat), s.ready.nat O.pmuResetPin = 2 → exec (.resetStuckGuard straps) s = .next (s.became
      (resetRelease s.vault (((s.ready.setN O.pmuResetPin 3).flag O.pmuFlags 8).onPmu fun p => { p with stuckPend := true }) 5
        straps))) ∧
    (s.ready.nat O.pmuResetPin = 3 → exec .resetPinRearm s = .next (s.became (s.ready.setN O.pmuResetPin 1))) ∧
    (∀ (core : Fin 2) (straps : Nat) (d : Dev), coreOn s.ready core = true →
      d = ((s.ready.bump O.pmuWdtExpiries).flag O.pmuFlags 1).raise (66 + core) 0 1 0 → core.val ≠ coreActive d →
      exec (.watchdogExpiry core straps) s = .next (s.became (coreReset d core))) ∧
    (∀ (core : Fin 2) (straps : Nat) (d : Dev), coreOn s.ready core = true →
      d = ((s.ready.bump O.pmuWdtExpiries).flag O.pmuFlags 1).raise (66 + core) 0 1 0 → core.val = coreActive d →
      d.on O.fcrCoreStandby = false →
      exec (.watchdogExpiry core straps) s = .next (s.became (controllerReset s.vault d 4 straps))) ∧
    (∀ (core : Nat), (Instr.coreReset core).wellFormed = true → s.takes (part1 O.pmuCoreReset core) → core ≠ coreActive s.ready →
      exec (.coreReset core) s = .next (s.wrote (coreReset s.ready core)))

/-- R288, R482, R483, R484, R487, R489, R492, R494: STANDBY keeps the time on the RTC and leaves state 5; a wake starts the controller
with its source kept; power off leaves state 6; the power-fail warning saves the relay counts; the release of a power-on reset begins
BOOT with cause 1; a verified image is entered, in service or in LIMP's HEATH; the running image is confirmed by time and by command;
a battery below its minimum invalidates the RTC. -/
def Obligations.StandbyAndBootAct : Prop :=
  ∀ (s : State),
    (s.takes (part1 O.pmuCmd 4) → standbyRefused { s.ready with draws := s.ready.draws + 1 } = false →
      ∃ e, exec .standby s = .next (s.wrote e) ∧ e.nat O.devState = 5 ∧
        e.nat O.devReason = 0x0120) ∧
    (∀ (src detail straps : Nat), s.ready.nat O.devState = 5 → exec (.wake src detail straps) s = .next (s.became
      (controllerReset s.vault (((s.ready.setN O.pmuWakeSrc src).setN O.pmuWakeDetail detail).setI O.pmuWakeAt 0) 6 straps))) ∧
    exec .powerOff s = .next (s.became ((clearPower s.ready).setN O.devState 6)) ∧
    (s.ready.on O.fcrFirstHeld = false → (relayCountSave s.ready).on O.fcrFirstHeld = false →
      exec .powerFailWarning s = .next (s.became
        ((((relayCountSave s.ready).flag O.pmuFlags 16).bump O.pmuPfailCount).raise 64 0 1 0))) ∧
    (∀ (counts size straps : Nat), s.ready.nat O.pmuResetPin = 0 → 8388608 ≤ size → size ≤ 1073741824 →
      exec (.powerOnResetRelease counts size true straps) s = .next (s.became
        (let d := (todPowerUp ((s.ready.setN O.pmuResetPin 1).setN O.devState 0) counts)
         resetRelease s.vault ((flashDiscover (d.setI O.pmuResetTime d.now) size true).setN O.jrnState 0) 1 straps))) ∧
    (∀ (slot : Nat), s.ready.nat O.devState = 0 → s.ready.pmu.held = false → s.ready.pmu.bootSlot = some slot →
      cgState s.ready = cgLocked →
      exec .bootImageVerified s = .next (s.became (enterService (coresStart (bootImage s.ready)) 0x0111))) ∧
    (∀ (slot : Nat), s.ready.nat O.devState = 0 → s.ready.pmu.held = false → s.ready.pmu.bootSlot = some slot →
      cgState s.ready = cgLimp →
      exec .bootImageVerified s = .next (s.became (todOnRtc
        (((coresStart (bootImage s.ready)).setN O.pmuBootTime ((coresStart (bootImage s.ready)).up -
          (coresStart (bootImage s.ready)).pmu.releasedAt)).enterState 1 0x0110)))) ∧
    (s.ready.nat O.devState = 2 ∨ s.ready.nat O.devState = 3 → bit s.ready.fw.confirmed s.ready.fw.running = false →
      exec .bootConfirmTime s = .next (s.become ((fwConfirm s.vault s.ready s.ready.fw.running).1,
        bootObjects (fwConfirm s.vault s.ready s.ready.fw.running).2))) ∧
    (s.takes (part1 O.pmuCmd 5) → bit s.ready.fw.confirmed s.ready.fw.running = false →
      exec .confirm s = .next (s.become ((fwConfirm s.vault s.ready s.ready.fw.running).1,
        (bootObjects (fwConfirm s.vault s.ready s.ready.fw.running).2).answered))) ∧
    exec .vbatBelowMinimum s = .next (s.became
      ((s.ready.onTod fun t => { t with rtcSec := 0, rtcSub := 0, rtcRaw := 0, rtcLoad := none }).setB O.todRtcValid false))

/-- R499, R507, R509, R519, R524: a fault whose source is no core is raised with the injection its source awaits; FAULT_ACK puts the first
fault into the history and frees it; SAFE enters safe from service; an injection waits for its source; RECHECK drops what no longer
holds; SAFE is left for MEADOW or FALLOW; a lane is restored, and one in grace counts as lost.
R512, R514: a missed heartbeat hands the work of the active core over; a checkpoint is dated; a core that joins again stands by, or is
lost after a failure; the debugger halts a core, and the end of the halt lets it stand by again. -/
def Obligations.FaultsAndCoresAct : Prop :=
  ∀ (s : State),
    (∀ (src : Fin 256) (level : Fin 3) (cause detail : Nat) (line : Bool) (d : Dev), src.val ≠ 51 → src.val ≠ 52 →
      d = errorLine s.ready src line →
      exec (.faultRaise src level cause detail line) s = .next (s.became
        ((injected d src cause detail).2.raise src level cause detail (injected d src cause detail).1))) ∧
    (s.takes (part1 O.fcrCmd 1) →
      ∃ e, exec .faultAck s = .next (s.wrote e) ∧ e.nat O.fcrFirstHeld = 0 ∧ e.byt O.fcrFirst = [] ∧ e.fcr.firstAt = none ∧
        e.fcr.merged = 0) ∧
    (s.takes (part1 O.fcrCmd 2) → s.ready.nat O.devState = 2 →
      exec .fcrSafe s = .next (s.wrote (s.ready.enterSafe 0x0204))) ∧
    (∀ (b : Bytes), s.takes ⟨0, ⟨O.fcrInject, 0, 0⟩, b, none⟩ → writeLength s.ready ⟨O.fcrInject, 0, 0⟩ none b = true →
      b.length = 8 → injectOk (leField b 0 1) (leField b 1 1) = true → leField b 2 2 ≠ 0 → allZero (b.drop 4) = true →
      s.ready.fcr.inject = none →
      exec (.faultInject b) s = .next (s.wrote (s.ready.onFcr fun f =>
        { f with inject := some ⟨leField b 0 1, leField b 1 1, leField b 2 2⟩ }))) ∧
    (∀ (d : Dev), s.takes (part1 O.fallowCmd 1) → s.ready.nat O.devState = 3 →
      d = s.ready.onFcr (fun f => { f with holds := clrBit f.holds 4 }) → d.fallowHolds ≠ 0 →
      exec .recheck s = .next (s.wrote ((d.setN O.fallowCauses (d.nat O.fallowCauses &&& d.fallowHolds)).setN O.fallowLost
        (d.fallowHolds % 64)))) ∧
    (s.takes (part1 O.fallowCmd 2) → s.ready.nat O.devState = 4 → cgState s.ready = cgLocked → safeLine s.ready = false →
      s.ready.fallowHolds = 0 → exec .leaveSafe s = .next (s.wrote (leaveFallow s.ready 0x0205))) ∧
    (s.takes (part1 O.fallowCmd 2) → s.ready.nat O.devState = 4 → cgState s.ready = cgLocked → safeLine s.ready = false →
      s.ready.fallowHolds ≠ 0 → exec .leaveSafe s = .next (s.wrote
        ((s.ready.onPmu fun p => { p with upSince := s.ready.up }).enterFallow 0x0206))) ∧
    (∀ (n : Fin 12) (d : Dev), s.takes (part1 O.fallowRestoreLane n) → bit (s.ready.nat O.fallowIsolated) n = true →
      d = (s.ready.setN O.fallowIsolated (clrBit (s.ready.nat O.fallowIsolated) n)).setN O.fallowLanes
        (clrBit (s.ready.nat O.fallowLanes) n) →
      exec (.restoreLane n) s = .next (s.wrote (askOn (d.setN O.fallowLost (d.fallowHolds % 64)) (n + 1)))) ∧
    (∀ (n : Fin 12), s.ready.nat O.laneState n = 9 → s.ready.on O.laneEnable n = true →
      exec (.laneGraceExpiry n) s = .next (s.became ((s.ready.flag O.fallowLanes (1 <<< n.val)).updateFallow))) ∧
    (s.ready.on O.fcrCoreStandby = true → coreHalted s.ready (coreActive s.ready) = false →
      exec .heartbeatMiss s = .next (s.became (takeover s.ready (coreActive s.ready) 1))) ∧
    exec .checkpoint s = .next (s.became (s.ready.onFcr fun f => { f with ckptAt := s.ready.up })) ∧
    (∀ (c : Fin 2), bit s.ready.fcr.rejoining c = true → c.val ≠ coreActive s.ready →
      exec (.coreRejoin c true) s = .next (s.became
        ((s.ready.onFcr fun f => { f with rejoining := clrBit f.rejoining c }).setN O.fcrCoreStandby 1))) ∧
    (∀ (c : Fin 2) (d : Dev), bit s.ready.fcr.rejoining c = true →
      d = (s.ready.onFcr fun f => { f with rejoining := clrBit f.rejoining c }).raise 68 0 2 c → coreLost d c = false →
      exec (.coreRejoin c false) s = .next (s.became ((d.loseCore c).updateFallow))) ∧
    (∀ (c : Fin 2), s.ready.on O.dbgUnlocked = true → coreHalted s.ready c = false → coreOn s.ready c = true →
      ∃ e, exec (.debugHalt c) s = .next (s.became e) ∧ e.fcr.halted = setBit s.ready.fcr.halted c ∧ e.on O.dbgAttached = true) ∧
    (∀ (c : Fin 2), coreHalted s.ready c = true → bit s.ready.fcr.deferred c = false → c.val ≠ coreActive s.ready →
      bit s.ready.fcr.rejoining c = false →
      ∃ e, exec (.debugHaltEnd c) s = .next (s.became e) ∧ e.fcr.halted = clrBit s.ready.fcr.halted c ∧
        e.on O.fcrCoreStandby = true)

/-- R517, R528, R531, R533, R534, R536, R538: a programmed page write takes the next waiting record into the head page, a failed one
is repeated; a stalled writer is lost; the seal interval seals an open page that has room, and SEAL the page; FORMAT of an empty
journal draws its identity and keeps what it dropped in a record; VERIFY checks the pages held; the acknowledged sequence rises up to
the sealed one; an old sealed page is copied forward. -/
def Obligations.JournalActs : Prop :=
  ∀ (s : State),
    (∀ (d e : Dev) (seq : Nat) (b : Bytes) (p : JPage), s.ready.nat O.jrnState ≠ 0 → s.ready.nat O.jrnState ≠ 4 →
      s.ready.jrn.holding = false →
      d = (s.ready.onJrn fun j => { j with failRun := 0, unavailable := false, lastDoneAt := s.ready.up }).setN O.jrnState 1 →
      nextRecord d = some (seq, b, e) → p = writePage e seq → p.slots.length + 1 < 62 → e.erm.mark = none →
      exec (.flashProgramDone true) s = .next (s.became
        ((setHeadPage e { p with slots := p.slots ++ [b], progAt := e.clk }).onJrn fun j => { j with sinceSeal := j.sinceSeal + 1 }))) ∧
    (s.ready.nat O.jrnState ≠ 0 → s.ready.nat O.jrnState ≠ 4 → (flashFailed s.ready).erm.mark = none →
      exec (.flashProgramDone false) s = .next (s.became (flashFailed s.ready))) ∧
    (s.ready.nat O.jrnState = 1 → s.ready.jrn.unavailable = false →
      exec .flashStall s = .next (s.became (writerLost s.ready))) ∧
    (∀ (p : JPage), openPage s.ready.jrn = some p → s.ready.jrn.sinceSeal ≠ 0 → s.ready.jrn.unavailable = false → p.slots.length < 61 →
      exec .sealInterval s = .next (s.became
        (((setHeadPage s.ready { p with
            slots := p.slots ++ [sealRecord s.vault.kj p p.slots.length s.ready.now], progAt := s.ready.clk }).onJrn fun j =>
          { j with lastSealAt := s.ready.up, sinceSeal := 0 }).setN O.jrnSeqSealed (p.next - 1)))) ∧
    (s.takes (part1 O.jrnCmd 2) → exec .sealNow s = .next (s.wrote (sealPage s.ready s.vault.kj))) ∧
    (s.takes (part1 O.jrnCmd 1) → s.ready.jrn.staging = [] → s.ready.jrn.ring = [] → s.vault.kj ≠ [] →
      ∃ (e : Dev) (n : Int), exec .format s = .next (s.wrote (e.station 9 0 (leInt 8 n ++ leBytes 8 (leNat (s.ready.random 8).1)))) ∧
        n = sumI (s.ready.jrn.pages.map fun x => (pageRecords x.2 : Int)) ∧
        e.jrn.pages = [] ∧ e.jrn.jid = leNat (s.ready.random 8).1 ∧ e.jrn.sinceSeal = 0 ∧ e.nat O.jrnFlashPasses = 0) ∧
    (s.takes (part1 O.jrnCmd 3) → s.ready.nat O.jrnVerifyState ≠ 1 →
      exec .jrnVerify s = .next (s.wrote (s.ready.setN O.jrnVerifyState 1))) ∧
    (s.ready.nat O.jrnVerifyState = 1 → verifyFrom s.vault.kj none (heldPages s.ready.jrn) = none →
      exec .jrnVerifyDone s = .next (s.became (s.ready.setN O.jrnVerifyState 2))) ∧
    (∀ (b : Nat), s.ready.nat O.jrnVerifyState = 1 → verifyFrom s.vault.kj none (heldPages s.ready.jrn) = some b →
      exec .jrnVerifyDone s = .next (s.became
        (((s.ready.setN O.jrnVerifyState 3).setN O.jrnVerifyBad b).flag O.jrnFlags 1))) ∧
    (∀ (value : Nat), (Instr.ackTo value).wellFormed = true → s.takes (part1 O.jrnAckTo value) → s.ready.nat O.jrnAck ≤ value →
      value ≤ s.ready.nat O.jrnSeqSealed → s.ready.jrn.holding = false →
      exec (.ackTo value) s = .next (s.wrote (s.ready.setN O.jrnAck value))) ∧
    (∀ (sector : Nat) (p : JPage), s.ready.jrn.page sector = some p → p.sealed = true → sector ≠ s.ready.jrn.head →
      openPage s.ready.jrn = none → s.ready.jrn.holding = false → s.ready.jrn.staging.length < 512 →
      s.ready.int O.jrnRefreshAge < s.ready.clk - p.progAt →
      exec (.pageRefresh sector) s = .next (s.became (moveHead
        ((setHeadPage s.ready { p with flag := 1, gen := (p.gen + 1) % 65536, progAt := s.ready.clk }).onJrn fun j =>
          { j with pages := tabDel j.pages sector }))))

/-- R542, R543, R544: the block of a channel is adopted with the slice's serial number, written whole and given a tag, with the role of
the session that asks; the calibration measures zero, middle and span on a channel held in HOLD-SENSE, computes or ends SINGULAR,
moves the output, aborts; a measurement that has its frames gives its mean and moves on. -/
def Obligations.CalibrationActs : Prop :=
  ∀ (s : State) (role : Fin 4),
    (∀ (n : Fin 96) (ds : Desc), s.takesAs role (part1 O.chCalCmd 1 n) → descOf s.ready n = some ds →
      exec (.adopt n role) s = .next (s.wrote ((calReplace s.ready n
        (calSeal false (splice (chanBlock s.ready n) 0 (padTo 16 ds.serial))) role 3).setN O.chCalState 0 n))) ∧
    (∀ (n : Fin 96) (b : Bytes), s.takesAs role ⟨0, ⟨O.chCalBlock, n, 0⟩, b, none⟩ →
      writeLength s.ready ⟨O.chCalBlock, n, 0⟩ none b = true → calBlockOk n b = true →
      exec (.calBlockWrite (.chan n) role b) s = .next (s.wrote (calReplace s.ready n b role 2))) ∧
    (∀ (b : Bytes), s.takesAs role ⟨0, ⟨O.calSam, 0, 0⟩, b, none⟩ → writeLength s.ready ⟨O.calSam, 0, 0⟩ none b = true →
      calBlockOk keySam b = true →
      exec (.calBlockWrite .sam role b) s = .next (s.wrote (calReplace s.ready keySam b role 2))) ∧
    (∀ (n : Fin 96) (tag : Nat), (Instr.calTagWrite n role tag).wellFormed = true → s.takesAs role (part1 O.chCalTag tag n) →
      exec (.calTagWrite n role tag) s = .next (s.wrote
        (calReplace s.ready n (calSeal false (splice (chanBlock s.ready n) 28 (leBytes 2 tag))) role 2))) ∧
    (∀ (n : Nat), n = calTargetChan s.ready → calTargetOk s.ready = true → s.ready.nat O.chForceLoopState n = 5 →
      calSerialOk s.ready n = true → s.ready.nat O.laneState (n / 8) = lsRun →
      (s.takesAs role (part1 O.calChCmd 1) → calSt s.ready = 0 →
        ∃ d, exec (.calZero role) s = .next (s.wrote d) ∧ calSt d = 1 ∧ d.cal.proc.running = 1 ∧ d.cal.proc.chan = n ∧
          d.cal.proc.e0 = calApplied s.ready ∧ d.cal.proc.count = 0) ∧
      (s.takesAs role (part1 O.calChCmd 2) → calSt s.ready = 2 →
        ∃ d, exec (.calMid role) s = .next (s.wrote d) ∧ calSt d = 1 ∧ d.cal.proc.running = 2 ∧ d.cal.proc.hasMid = true ∧
          d.cal.proc.e1 = calApplied s.ready ∧ d.cal.proc.count = 0) ∧
      (s.takesAs role (part1 O.calChCmd 3) → calSt s.ready = 2 ∨ calSt s.ready = 3 →
        ∃ d, exec (.calSpan role) s = .next (s.wrote d) ∧ calSt d = 1 ∧ d.cal.proc.running = 3 ∧
          d.cal.proc.e2 = calApplied s.ready ∧ d.cal.proc.count = 0)) ∧
    (s.takesAs role (part1 O.calChCmd 4) → calSt s.ready = 4 → (s.ready.cal.proc.m2 - s.ready.cal.proc.m0).natAbs < 2 ^ 26 →
      exec (.calCompute role) s = .next (s.wrote (calFinish s.ready 6 2))) ∧
    (∀ (n : Nat) (p : CalProc), n = calTargetChan s.ready → s.takesAs role (part1 O.calChCmd 5) → calSt s.ready = 0 →
      calTargetOk s.ready = true → s.ready.nat O.chForceLoopState n = 0 → calSerialOk s.ready n = true →
      s.ready.nat O.laneState (n / 8) = lsRun → canForce (descOf s.ready n) (calTargetCur s.ready) (calTargetRange s.ready) = true →
      s.ready.nat O.chCalState n = 0 → bit (s.ready.lane (n / 8)).safed (n % 8) = false →
      p = { s.ready.cal.proc with
        running := 4, role := role, chan := n, cur := calTargetCur s.ready, range := calTargetRange s.ready,
        sumN := 0, sumC := 0, count := 0, wait := connectFrames s.ready n } →
      exec (.calOut role) s = .next (s.wrote ((calSend { s.ready with cal := { s.ready.cal with proc := p } } p
        (roundDiv (dacLimOf (calEntryOf s.ready)) 10)).setN O.calChState 1))) ∧
    (s.takesAs role (part1 O.calChCmd 6) → calSt s.ready = 1 → s.ready.cal.proc.running < 4 →
      exec (.calAbort role) s = .next (s.wrote (calFinish s.ready 6 3))) ∧
    (calSt s.ready = 1 → s.ready.nat O.calChFrames ≤ s.ready.cal.proc.count → s.ready.cal.proc.running = 1 →
      exec .calMeasureDone s = .next (s.became ((s.ready.onProc fun p =>
        { p with m0 := roundDiv p.sumN p.count, running := 0 }).setN O.calChState 2)))

/-- R546, R550: KEY_SET unwraps the key with the session's key and puts it into the slot, KEY_ERASE empties a slot while an OWNER key
stays, and each ends the slot's sessions and is recorded; a revoked firmware key stays revoked. -/
def Obligations.KeysAct : Prop :=
  ∀ (s : State),
    (∀ (k slot : Fin 16) (b : Bytes) (w : Who) (v : Vault) (d : Dev), w = whoOf s.ready k (nextCseq s.ready k) →
      writeRole w ⟨O.secKeySet, slot, 0⟩ ≤ w.role → b.length = 34 → writeLength s.ready ⟨O.secKeySet, slot, 0⟩ none b = true →
      partCode s.ready s.ready w [⟨0, ⟨O.secKeySet, slot, 0⟩, b, none⟩] false ⟨0, ⟨O.secKeySet, slot, 0⟩, b, none⟩ = none →
      leField b 0 1 ≤ 3 → leField b 1 1 = 0 →
      v = s.vault.setKey slot (some { role := roleOf (leField b 0 1), key := unwrapKey w.key slot w.cseq (b.drop 2) }) →
      v.hasOwner = true →
      d = keyRecord (s.ready.random 32).2 slot (roleNum (roleOf (leField b 0 1))) 1 (keyFp (unwrapKey w.key slot w.cseq (b.drop 2))) →
      exec (.keySet k slot b) s = .next (s.become (v, (endKeySessions d slot).answered))) ∧
    (∀ (slot : Fin 16) (x : RoleKey) (v : Vault), s.takes (part1 O.secKeyCmd 1 slot) → s.vault.key slot = some x →
      v = (s.vault.setKey slot none).setLabel slot [] → v.hasOwner = true →
      exec (.keyErase slot) s = .next (s.become (v, (endKeySessions (keyRecord s.ready slot (roleNum x.role) 2 (keyFp x.key))
        slot).answered))) ∧
    (∀ (key : Fin 4), s.takes (part1 O.secFwRevoke key) → fwSlot s.ready s.ready.fw.running = [] →
      fwValid s.vault s.ready (fwOther s.ready) = false →
      exec (.fwRevoke key) s = .next (s.become ({ s.vault with revoked := setBit s.vault.revoked key }, s.ready.answered)))

/-- R390, R547, R549, R551, R573: an update begins in the slot that does not run, takes the image piece by piece, is verified, installed
or aborted; the debug port opens for its duration and closes again, peeks only while open, and the TAP reset detaches it; the entropy
test sets and clears the generator's state. -/
def Obligations.UpdateAndDebugAct : Prop :=
  ∀ (s : State),
    (s.takes (part1 O.secFwCmd 1) → s.ready.nat O.secFwState = 0 →
      ∃ e, exec .fwBegin s = .next (s.wrote e) ∧ e.nat O.secFwState = 1 ∧ fwSlot e (fwOther s.ready) = [] ∧ e.fw.verifying = false) ∧
    (∀ (off : Nat) (b : Bytes), s.takes ⟨0, ⟨O.secFwImage, 0, 0⟩, b, some off⟩ →
      writeLength s.ready ⟨O.secFwImage, 0, 0⟩ (some off) b = true → s.ready.nat O.secFwState = 1 → s.ready.fw.verifying = false →
      off = (fwSlot s.ready (fwOther s.ready)).length → off + b.length ≤ 459008 →
      exec (.fwImageWrite off b) s = .next (s.wrote
        (setFwSlot s.ready (fwOther s.ready) (fwSlot s.ready (fwOther s.ready) ++ b)))) ∧
    (s.takes (part1 O.secFwCmd 2) → s.ready.nat O.secFwState = 1 → s.ready.fw.verifying = false →
      exec .fwVerify s = .next (s.wrote { s.ready with fw := { s.ready.fw with verifying := true } })) ∧
    (s.ready.fw.verifying = true → exec .fwVerifyDone s = .next (s.became
      (let r := fwCheck s.vault (fwSlot s.ready (fwOther s.ready))
       ({ s.ready with fw := { s.ready.fw with verifying := false } }.setN O.secFwResult r).setN O.secFwState
         (if r = 1 then 2 else 4)))) ∧
    (s.takes (part1 O.secFwCmd 3) → s.ready.nat O.secFwState = 2 → bit s.ready.fw.confirmed s.ready.fw.running = true →
      exec .fwInstall s = .next (s.wrote ((fwRecord { s.ready with fw := { s.ready.fw with
        preferred := fwOther s.ready, confirmed := clrBit s.ready.fw.confirmed (fwOther s.ready),
        trials := s.ready.nat O.secFwTrials } } (fwOther s.ready) 1).setN O.secFwState 3))) ∧
    (s.takes (part1 O.secFwCmd 4) → s.ready.nat O.secFwState = 1 ∨ s.ready.nat O.secFwState = 2 →
      exec .fwAbort s = .next (s.wrote ({ s.ready with fw := { s.ready.fw with verifying := false } }.setN O.secFwState 0))) ∧
    (∀ (t : Nat), s.takes (part1 O.secDbgCmd 1) → t = s.ready.nat O.secDbgDuration →
      exec .debugUnlock s = .next (s.wrote
        (debugRecord ({ s.ready with fw := { s.ready.fw with dbgUntil := s.ready.up + t } }.setN O.dbgUnlocked 1) 1 t))) ∧
    (s.takes (part1 O.secDbgCmd 2) → s.ready.on O.dbgUnlocked = true →
      exec .debugLock s = .next (s.wrote (debugRecord (s.ready.setN O.dbgUnlocked 0) 2 0))) ∧
    (s.ready.on O.dbgUnlocked = true →
      exec .debugLockExpiry s = .next (s.became (debugRecord (s.ready.setN O.dbgUnlocked 0) 2 0))) ∧
    (∀ (a : Addr) (t : Nat) (b : Bytes) (d e : Dev), s.ready.on O.dbgUnlocked = true →
      d = (s.ready.bump O.dbgPeeks).setN O.dbgLastPeek (leNat (addrBytes a)) → a.node = d.node →
      readAt s.vault (touchAt d {} a.index a.sub) {} true a.index a.sub = .ok (t, b, e) →
      exec (.debugPeek a) s = .next (s.became (e.answers (typed t b)))) ∧
    exec .jtagTapReset s = .next (s.became (s.ready.setN O.dbgAttached 0)) ∧
    exec .entropyTestFail s = .next (s.became (s.ready.setB O.secRngState true)) ∧
    exec .entropyTestPass s = .next (s.became (s.ready.setB O.secRngState false))
end

