-- ==== Sys2Proof/Laws/State.lean ====
section
/-! SUPPORT. Reading the state after a named update: one lemma for each reader and each update. -/
namespace Sys2Proof.Machine

/-! How a command's operation acts. -/

@[simp] theorem run_ready (s : State) (f : Vault → Dev → Dev) : run s f = .next (s.became (f s.vault s.ready)) := rfl
@[simp] theorem runBoth_ready (s : State) (f : Vault → Dev → Vault × Dev) : runBoth s f = .next (s.become (f s.vault s.ready)) := rfl
theorem runNet_ready (s : State) (f : Vault → Dev → Vault × Dev) :
    runNet s f = .next (s.become ((settle (f s.vault s.ready).1 (f s.vault s.ready).2).1,
      flushOut (settle (f s.vault s.ready).1 (f s.vault s.ready).2).2)) := rfl
@[simp] theorem become_vault (s : State) (x : Vault × Dev) : (s.become x).vault = x.1 := rfl
@[simp] theorem become_dev (s : State) (x : Vault × Dev) : (s.become x).dev = x.2 := rfl
@[simp] theorem become_pending (s : State) (x : Vault × Dev) : (s.become x).pending = s.pending := rfl
@[simp] theorem became_vault (s : State) (d : Dev) : (s.became d).vault = s.vault := rfl
@[simp] theorem became_dev (s : State) (d : Dev) : (s.became d).dev = d := rfl
@[simp] theorem became_pending (s : State) (d : Dev) : (s.became d).pending = s.pending := rfl
theorem become_same (s : State) (d : Dev) : s.become (s.vault, d) = s.became d := rfl

/-! Sparse stores. -/

theorem tabFind_put_same {α : Type} (k : Nat) (v : α) : (t : Tab α) → tabFind (tabPut t k v) k = some v
  | [] => by simp [tabPut, tabFind]
  | (j, w) :: t => by
    have ih := tabFind_put_same k v t
    unfold tabPut
    split
    · simp [tabFind]
    · split
      · simp [tabFind]
      · have : j ≠ k := by omega
        simp [tabFind, this, ih]

theorem tabFind_put_ne {α : Type} (k k' : Nat) (v : α) (h : k ≠ k') : (t : Tab α) → tabFind (tabPut t k v) k' = tabFind t k'
  | [] => by simp [tabPut, tabFind, h]
  | (j, w) :: t => by
    have ih := tabFind_put_ne k k' v h t
    unfold tabPut
    split
    · simp [tabFind, h]
    · split
      · next hk => subst hk; simp [tabFind, h]
      · simp [tabFind, ih]

theorem tabFind_del_same {α : Type} (k : Nat) : (t : Tab α) → tabFind (tabDel t k) k = none
  | [] => rfl
  | (j, w) :: t => by
    have ih := tabFind_del_same k t
    unfold tabDel
    split
    · exact ih
    · next h => simp [tabFind, h, ih]

theorem tabFind_del_ne {α : Type} (k k' : Nat) (h : k ≠ k') : (t : Tab α) → tabFind (tabDel t k) k' = tabFind t k'
  | [] => rfl
  | (j, w) :: t => by
    have ih := tabFind_del_ne k k' h t
    unfold tabDel
    split
    · next hj => subst hj; simp [tabFind, h, ih]
    · simp [tabFind, ih]

theorem tabGet_set_same {α : Type} [DecidableEq α] (e : α) (t : Tab α) (k : Nat) (v : α) : tabGet e (tabSet e t k v) k = v := by
  unfold tabGet tabSet
  split
  · next h => simp [tabFind_del_same, h]
  · simp [tabFind_put_same]

theorem tabGet_set_ne {α : Type} [DecidableEq α] (e e' : α) (t : Tab α) (k k' : Nat) (v : α) (h : k ≠ k') :
    tabGet e' (tabSet e t k v) k' = tabGet e' t k' := by
  unfold tabGet tabSet
  split
  · rw [tabFind_del_ne k k' h]
  · rw [tabFind_put_ne k k' v h]

/-! Objects. -/

@[simp] theorem val_put_same (d : Dev) (o : Obj) (v : Val) (i g : Nat) : (d.put o v i g).val o i g = v :=
  tabGet_set_same _ _ _ _
theorem val_put_ne (d : Dev) (o p : Obj) (v : Val) (i g j k : Nat) (h : objKey o i g ≠ objKey p j k) :
    (d.put o v i g).val p j k = d.val p j k :=
  tabGet_set_ne _ _ _ _ _ _ h
@[simp] theorem int_setI_same (d : Dev) (o : Obj) (v : Int) (i g : Nat) : (d.setI o v i g).int o i g = v := by
  simp [Dev.int, Dev.setI, numOf]
@[simp] theorem nat_setN_same (d : Dev) (o : Obj) (v : Nat) (i g : Nat) : (d.setN o v i g).nat o i g = v := by
  simp [Dev.nat, Dev.int, Dev.setN, numOf]
@[simp] theorem on_setB_same (d : Dev) (o : Obj) (v : Bool) (i g : Nat) : (d.setB o v i g).on o i g = v := by
  cases v <;> simp [Dev.on, Dev.int, Dev.setB, numOf, b2n]
@[simp] theorem byt_setBytes_same (d : Dev) (o : Obj) (v : Bytes) (i g : Nat) : (d.setBytes o v i g).byt o i g = v := by
  simp [Dev.byt, Dev.setBytes, bytesOf]
theorem nat_setN_ne (d : Dev) (o p : Obj) (v i g j k : Nat) (h : objKey o i g ≠ objKey p j k) :
    (d.setN o v i g).nat p j k = d.nat p j k := by
  simp only [Dev.nat, Dev.int, Dev.setN, val_put_ne d o p _ i g j k h]

/-- Two objects of one family lie at different keys. -/
theorem objKey_ne (o p : Obj) (i : Nat) (hs : o.stride = p.stride) (h : o.idx * 256 + o.sub ≠ p.idx * 256 + p.sub) :
    objKey o i 0 ≠ objKey p i 0 := by
  intro e
  apply h
  unfold objKey at e
  rw [hs, Nat.add_mul, Nat.add_mul, Nat.zero_mul, Nat.zero_mul, Nat.add_zero, Nat.add_zero, Nat.add_right_comm,
    Nat.add_right_comm (p.idx * 256)] at e
  exact Nat.add_right_cancel e

/-! The named fields after an object is put. -/

@[simp] theorem put_lane (d : Dev) (o : Obj) (v : Val) (i g n : Nat) : (d.put o v i g).lane n = d.lane n := rfl
@[simp] theorem put_chan (d : Dev) (o : Obj) (v : Val) (i g n : Nat) : (d.put o v i g).chan n = d.chan n := rfl
@[simp] theorem put_up (d : Dev) (o : Obj) (v : Val) (i g : Nat) : (d.put o v i g).up = d.up := rfl
@[simp] theorem put_frame (d : Dev) (o : Obj) (v : Val) (i g : Nat) : (d.put o v i g).frame = d.frame := rfl
@[simp] theorem val_setLane (d : Dev) (n : Nat) (l : Link) (o : Obj) (i g : Nat) : (d.setLane n l).val o i g = d.val o i g := rfl
@[simp] theorem val_setChan (d : Dev) (n : Nat) (c : Chan) (o : Obj) (i g : Nat) : (d.setChan n c).val o i g = d.val o i g := rfl
@[simp] theorem nat_onLane (d : Dev) (n : Nat) (f : Link → Link) (o : Obj) (i g : Nat) : (d.onLane n f).nat o i g = d.nat o i g := rfl
@[simp] theorem nat_onChan (d : Dev) (n : Nat) (f : Chan → Chan) (o : Obj) (i g : Nat) : (d.onChan n f).nat o i g = d.nat o i g := rfl

@[simp] theorem put_tin (d : Dev) (o : Obj) (v : Val) (i g k : Nat) : (d.put o v i g).tin k = d.tin k := rfl
@[simp] theorem put_tdc (d : Dev) (o : Obj) (v : Val) (i g k : Nat) : (d.put o v i g).tdc k = d.tdc k := rfl
@[simp] theorem put_ses (d : Dev) (o : Obj) (v : Val) (i g k : Nat) : (d.put o v i g).ses k = d.ses k := rfl
@[simp] theorem put_trace (d : Dev) (o : Obj) (v : Val) (i g k : Nat) : (d.put o v i g).trace k = d.trace k := rfl
@[simp] theorem val_setTin (d : Dev) (k : Nat) (x : Tin) (o : Obj) (i g : Nat) : (d.setTin k x).val o i g = d.val o i g := rfl
@[simp] theorem val_setTdc (d : Dev) (k : Nat) (x : Tdc) (o : Obj) (i g : Nat) : (d.setTdc k x).val o i g = d.val o i g := rfl
@[simp] theorem val_setSes (d : Dev) (k : Nat) (x : Session) (o : Obj) (i g : Nat) : (d.setSes k x).val o i g = d.val o i g := rfl
@[simp] theorem chan_setLane (d : Dev) (n k : Nat) (l : Link) : (d.setLane n l).chan k = d.chan k := rfl
@[simp] theorem lane_setChan (d : Dev) (n k : Nat) (c : Chan) : (d.setChan n c).lane k = d.lane k := rfl

/-! A component after its own update. -/

@[simp] theorem lane_setLane (d : Dev) (n : Fin 12) (l : Link) : (d.setLane n l).lane n = l := by simp [Dev.setLane, Dev.lane]
@[simp] theorem chan_setChan (d : Dev) (n : Fin 96) (c : Chan) : (d.setChan n c).chan n = c := by simp [Dev.setChan, Dev.chan]
@[simp] theorem tin_setTin (d : Dev) (k : Fin 8) (x : Tin) : (d.setTin k x).tin k = x := by simp [Dev.setTin, Dev.tin]
@[simp] theorem tdc_setTdc (d : Dev) (k : Fin 8) (x : Tdc) : (d.setTdc k x).tdc k = x := by simp [Dev.setTdc, Dev.tdc]
theorem lane_setLane_ne (d : Dev) (n k : Nat) (l : Link) (h : n ≠ k) : (d.setLane n l).lane k = d.lane k := by
  simp [Dev.setLane, Dev.lane, h]
theorem chan_setChan_ne (d : Dev) (n k : Nat) (c : Chan) (h : n ≠ k) : (d.setChan n c).chan k = d.chan k := by
  simp [Dev.setChan, Dev.chan, h]

/-! Wire values. -/

theorem leNat_leBytes : (n x : Nat) → leNat (leBytes n x) = x % 256 ^ n
  | 0, x => by simp [leBytes, leNat, Nat.mod_one]
  | n + 1, x => by
    have ih := leNat_leBytes n (x / 256)
    have e : (256 : Nat) ^ (n + 1) = 256 * 256 ^ n := by rw [Nat.pow_succ, Nat.mul_comm]
    simp only [leBytes, leNat, ih, BitVec.toNat_ofNat]
    rw [e, Nat.mod_mul]

theorem pow256 (n : Nat) : 256 ^ n = 2 ^ (8 * n) := by rw [Nat.pow_mul]

theorem leNat_leInt (n : Nat) (x : Int) : leNat (leInt n x) = ofSigned (8 * n) x := by
  have hp : (0 : Int) < 2 ^ (8 * n) := by exact_mod_cast Nat.two_pow_pos (8 * n)
  have h1 := Int.emod_lt_of_pos x hp
  have h0 := Int.emod_nonneg x (Int.ne_of_gt hp)
  rw [leInt, leNat_leBytes, pow256, ofSigned, Nat.mod_eq_of_lt]
  have : ((2 ^ (8 * n) : Nat) : Int) = 2 ^ (8 * n) := by push_cast; rfl
  omega

theorem ofSigned_unsigned (w : Nat) (x : Int) (h0 : 0 ≤ x) (h1 : x < 2 ^ w) : (ofSigned w x : Int) = x := by
  rw [ofSigned, Int.emod_eq_of_lt h0 h1]; omega

theorem toSigned_ofSigned (w : Nat) (x : Int) (hw : 0 < w) (h0 : -(2 ^ (w - 1) : Int) ≤ x) (h1 : x < 2 ^ (w - 1)) :
    toSigned w (ofSigned w x) = x := by
  have e : (2 : Int) ^ w = 2 * 2 ^ (w - 1) := by
    obtain ⟨k, rfl⟩ : ∃ k, w = k + 1 := ⟨w - 1, by omega⟩
    simp [Int.pow_succ, Int.mul_comm]
  have en : (2 : Nat) ^ w = 2 * 2 ^ (w - 1) := by
    obtain ⟨k, rfl⟩ : ∃ k, w = k + 1 := ⟨w - 1, by omega⟩
    simp [Nat.pow_succ, Nat.mul_comm]
  have c : ((2 ^ (w - 1) : Nat) : Int) = 2 ^ (w - 1) := by push_cast; rfl
  have p : (0 : Int) < 2 ^ (w - 1) := by rw [← c]; exact_mod_cast Nat.two_pow_pos (w - 1)
  unfold toSigned ofSigned
  by_cases hx : 0 ≤ x
  · have hm : x % (2 : Int) ^ w = x := Int.emod_eq_of_lt hx (by omega)
    simp only [hm]
    have hl : x.toNat % 2 ^ w = x.toNat := Nat.mod_eq_of_lt (by omega)
    rw [hl, if_pos (by omega)]; omega
  · have hm : x % (2 : Int) ^ w = x + 2 ^ w := by
      rw [← Int.add_emod_right, Int.emod_eq_of_lt (by omega) (by omega)]
    simp only [hm]
    have hl : (x + 2 ^ w).toNat % 2 ^ w = (x + 2 ^ w).toNat := Nat.mod_eq_of_lt (by omega)
    rw [hl, if_neg (by omega)]; omega

/-- The types whose values are plain numbers. -/
def plainTy : Ty → Bool
  | .q32 | .str | .domain => false
  | _ => true

/-- A number that fits a type is what its wire bytes spell. -/
theorem decode_encode (t : Ty) (x : Int) (hp : plainTy t = true) (h : fits t x = true) : decodeVal t (encodeVal t (.num x)) = .num x := by
  have len : ∀ n (v : Nat), (leBytes n v).length = n := by
    intro n; induction n with
    | zero => intro v; rfl
    | succ n ih => intro v; simp [leBytes, ih]
  cases t <;> simp only [plainTy, Bool.false_eq_true] at hp <;>
    simp only [fits, tyLen, tySigned, s, Option.getD_some, if_true, Bool.false_eq_true, if_false] at h <;>
    replace h := of_decide_eq_true h <;>
    simp only [decodeVal, encodeVal, tyLen, tySigned, Option.getD_some, if_true, Bool.false_eq_true, if_false, leSigned] <;>
    first
    | (rw [leNat_leInt, ofSigned_unsigned _ _ h.1 h.2])
    | (rw [leNat_leInt]; simp only [leInt, len]; rw [toSigned_ofSigned _ _ (by decide) h.1 h.2])

/-- A well-formed number written to an object that keeps it comes into force as it is. -/
theorem putPart_num (d : Dev) (o : Obj) (x : Int) (i g : Nat) (ho : operates o = false) (hb : o ≠ O.pmuPdBoot)
    (hp : plainTy o.ty = true) (h : fits o.ty x = true) : putPart d (part1 o x i g) = d.setI o x i g := by
  simp only [putPart, part1, ho, Bool.false_eq_true, if_false, fixedBits, hb, decode_encode o.ty x hp h, Dev.setI]

/-- An object that only operates keeps no value. -/
theorem putPart_operates (d : Dev) (o : Obj) (x : Int) (i g : Nat) (ho : operates o = true) : putPart d (part1 o x i g) = d := by
  simp only [putPart, part1, ho, if_true]

end Sys2Proof.Machine
end

