-- ==== Sys2Proof/Laws/Tab.lean ====
section
/-! SUPPORT. Sparse stores keep their canonical form: keys strictly rising, and no entry equal to the default of its key. -/
namespace Sys2Proof.Machine

/-- A lower bound that rises is a weaker demand. -/
theorem tabSorted_mono {α : Type} (a b : Nat) (h : a ≤ b) : (t : Tab α) → tabSorted (some b) t = true → tabSorted (some a) t = true
  | [], _ => rfl
  | (j, w) :: t, hs => by
    simp only [tabSorted, Bool.and_eq_true, decide_eq_true_eq] at hs ⊢
    exact ⟨by omega, hs.2⟩

/-- A store that is sorted above some key is sorted. -/
theorem tabSorted_none {α : Type} (a : Nat) : (t : Tab α) → tabSorted (some a) t = true → tabSorted none t = true
  | [], _ => rfl
  | (j, w) :: t, hs => by
    simp only [tabSorted, Bool.and_eq_true, Bool.true_and] at hs ⊢
    exact hs.2

/-- Putting a key above the lower bound keeps the keys rising. -/
theorem tabSorted_put {α : Type} (k : Nat) (v : α) : (lo : Option Nat) → (t : Tab α) → (∀ l, lo = some l → l < k) →
    tabSorted lo t = true → tabSorted lo (tabPut t k v) = true
  | lo, [], hl, _ => by
    cases lo with
    | none => rfl
    | some l => simp [tabPut, tabSorted, hl l rfl]
  | lo, (j, w) :: t, hl, hs => by
    simp only [tabSorted, Bool.and_eq_true] at hs
    unfold tabPut
    split
    · next hk =>
      simp only [tabSorted, Bool.and_eq_true, decide_eq_true_eq]
      refine ⟨?_, hk, hs.2⟩
      cases lo with
      | none => rfl
      | some l => exact decide_eq_true (hl l rfl)
    · split
      · next hk =>
        subst hk; simp only [tabSorted, Bool.and_eq_true]
        exact hs
      · next h1 h2 =>
        simp only [tabSorted, Bool.and_eq_true]
        exact ⟨hs.1, tabSorted_put k v (some j) t (by intro l hl'; injection hl' with hl'; omega) hs.2⟩

/-- Removing a key keeps the keys rising. -/
theorem tabSorted_del {α : Type} (k : Nat) : (lo : Option Nat) → (t : Tab α) → tabSorted lo t = true → tabSorted lo (tabDel t k) = true
  | lo, [], _ => by cases lo <;> rfl
  | lo, (j, w) :: t, hs => by
    simp only [tabSorted, Bool.and_eq_true] at hs
    unfold tabDel
    split
    · next h =>
      cases lo with
      | none => exact tabSorted_del k none t (tabSorted_none j t hs.2)
      | some l =>
        have hl : l < j := of_decide_eq_true hs.1
        exact tabSorted_del k (some l) t (tabSorted_mono l j (Nat.le_of_lt hl) t hs.2)
    · simp only [tabSorted, Bool.and_eq_true]
      exact ⟨hs.1, tabSorted_del k (some j) t hs.2⟩

theorem mem_tabPut {α : Type} (k : Nat) (v : α) (p : Nat × α) : (t : Tab α) → p ∈ tabPut t k v → p = (k, v) ∨ p ∈ t
  | [], h => by simp [tabPut] at h; exact .inl h
  | (j, w) :: t, h => by
    unfold tabPut at h
    split at h
    · simpa using h
    · split at h
      · simp only [List.mem_cons] at h ⊢
        rcases h with h | h
        · exact .inl h
        · exact .inr (.inr h)
      · simp only [List.mem_cons] at h ⊢
        rcases h with h | h
        · exact .inr (.inl h)
        · rcases mem_tabPut k v p t h with h | h
          · exact .inl h
          · exact .inr (.inr h)

theorem mem_tabDel {α : Type} (k : Nat) (p : Nat × α) : (t : Tab α) → p ∈ tabDel t k → p ∈ t
  | [], h => h
  | (j, w) :: t, h => by
    unfold tabDel at h
    split at h
    · exact List.mem_cons_of_mem _ (mem_tabDel k p t h)
    · simp only [List.mem_cons] at h ⊢
      rcases h with h | h
      · exact .inl h
      · exact .inr (mem_tabDel k p t h)

/-- A write keeps the canonical form. -/
theorem tabWf_set {α : Type} [DecidableEq α] (d : Nat → α) (t : Tab α) (k : Nat) (v : α) (h : tabWf d t = true) :
    tabWf d (tabSet (d k) t k v) = true := by
  simp only [tabWf, Bool.and_eq_true, List.all_eq_true, decide_eq_true_eq] at h ⊢
  unfold tabSet
  split
  · exact ⟨tabSorted_del k none t h.1, fun p hp => h.2 p (mem_tabDel k p t hp)⟩
  · next hv =>
    refine ⟨tabSorted_put k v none t (by intro l hl; cases hl) h.1, fun p hp => ?_⟩
    rcases mem_tabPut k v p t hp with e | e
    · subst e; exact hv
    · exact h.2 p e

/-- So does a write of consecutive cells. -/
theorem tabWf_setRun {α : Type} [DecidableEq α] (d : α) : (k : Nat) → (vs : List α) → (t : Tab α) → tabWf (fun _ => d) t = true →
    tabWf (fun _ => d) (tabSetRun d t k vs) = true
  | _, [], _, h => h
  | k, v :: vs, t, h => tabWf_setRun d (k + 1) vs _ (tabWf_set (fun _ => d) t k v h)

end Sys2Proof.Machine
end

