-- ==== Sys2Proof/Laws/Write.lean ====
section
/-! SUPPORT. What a write of one object answers, once its conditions hold. -/
namespace Sys2Proof.Machine

/-- A write of one part that passes its conditions and whose action succeeds leaves what the action leaves, answered. -/
theorem ownerWrite_one (v : Vault) (d : Dev) (p : Part) (x : Vault × Dev)
    (h : partCode d (putPart d p) {} [p] false p = none) (ha : partAct d {} p v (putPart d p) = .ok x) :
    ownerWrite v d [p] = (x.1, x.2.answered) := by
  have hs : superseded p [] = false := by simp [superseded]
  simp [ownerWrite, writeParts, runParts, hs, h, ha, Dev.answered]

/-- The command form of `ownerWrite_one` for an action on the device alone. -/
theorem runBoth_write (s : State) (p : Part) (e : Dev) (h : s.takes p)
    (ha : partAct s.ready {} p s.vault (putPart s.ready p) = .ok (s.vault, e)) :
    runBoth s (fun v d => ownerWrite v d [p]) = .next (s.wrote e) := by
  rw [runBoth_ready, ownerWrite_one s.vault s.ready p (s.vault, e) h ha]
  rfl

/-- A number written to an object that keeps it comes into force, with the effect of the write. -/
theorem runBoth_put (s : State) (o : Obj) (x : Int) (i g : Nat) (h : s.takes (part1 o x i g)) (ho : operates o = false)
    (hb : (o == O.pmuPdBoot) = false) (hp : plainTy o.ty = true) (hf : fits o.ty x = true) :
    runBoth s (fun v d => ownerWrite v d [part1 o x i g]) =
      .next (s.put ⟨o, i, g⟩ (writeEffect s.ready ⟨o, i, g⟩ (s.ready.setI o x i g))) := by
  refine runBoth_write s _ _ h ?_
  rw [putPart_num s.ready o x i g ho (by simpa using hb) hp hf]
  simp only [partAct, part1, ho, Bool.not_false, if_true]

/-- Objects outside ranging and limits act at once (R180, R182). -/
theorem holdRng_plain (old d : Dev) (o : Obj) (n : Nat) (h : o.idx % 16 ≠ 2 ∧ o.idx % 16 ≠ 3) : holdRng old o n d = d := by
  unfold holdRng
  rw [if_neg (by omega)]

/-- The effect of a write in the channel pages. -/
theorem writeEffect_channel (old d : Dev) (o : Obj) (i g : Nat) (h : 0x3000 ≤ o.idx ∧ o.idx < 0x3010) :
    writeEffect old ⟨o, i, g⟩ d = chanEffect (holdRng old o i d) o i g := by
  have h1 : o ≠ O.laneEnable := by rintro rfl; revert h; decide
  have h2 : o ≠ O.laneHoldTimeout := by rintro rfl; revert h; decide
  simp only [writeEffect, if_neg h1, if_neg h2, if_pos h]

/-- A command written to an object that only operates: its action on the device as it is. -/
theorem runBoth_do (s : State) (o : Obj) (x : Int) (i g : Nat) (e : Dev) (h : s.takes (part1 o x i g)) (ho : operates o = true)
    (ha : partAct s.ready {} (part1 o x i g) s.vault s.ready = .ok (s.vault, e)) :
    runBoth s (fun v d => ownerWrite v d [part1 o x i g]) = .next (s.wrote e) := by
  refine runBoth_write s _ _ h ?_
  rw [putPart_operates s.ready o x i g ho]; exact ha

/-- OWNER may write whatever a role may write. -/
theorem writeRole_le (who : Who) (l : Loc) : writeRole who l ≤ 3 := by
  have h : ∀ r : Role, roleNum r ≤ 3 := fun r => by cases r <;> decide
  unfold writeRole
  dsimp only
  split
  · exact Nat.le_refl 3
  · split
    · exact Nat.le_refl 3
    · split
      · exact Nat.le_refl 3
      · exact h _

/-- A write of an object by its bytes, once length and conditions hold. -/
theorem runBoth_bytes (s : State) (l : Loc) (off : Option Nat) (b : Bytes) (e : Dev) (hl : writeLength s.ready l off b = true)
    (hv : oneView l = l) (hr : (l.o == O.ptRecord) = false) (h : s.takes ⟨0, l, b, off⟩)
    (ha : partAct s.ready {} ⟨0, l, b, off⟩ s.vault (putPart s.ready ⟨0, l, b, off⟩) = .ok (s.vault, e)) :
    runBoth s (fun v d => bytesWrite v d {} l off b) = .next (s.wrote e) := by
  have hs : ∀ p : Part, superseded p [] = false := fun p => by simp [superseded]
  have hr' : ¬ l.o = O.ptRecord := by simpa using hr
  rw [runBoth_ready]
  unfold State.takes at h
  simp only [bytesWrite, Nat.not_lt.mpr (writeRole_le {} l), if_false, hl, Bool.not_true, Bool.false_eq_true, itemParts, hv, hr', writeParts,
    List.foldl_cons, List.foldl_nil, runParts, hs, h, ha, written]
  rfl

/-- A write of one number by a session of a role, once its conditions hold for that role. -/
theorem runBoth_role (s : State) (role : Nat) (p : Part) (e : Dev) (hw : writeRole { role := role } p.l ≤ role)
    (h : partCode s.ready (putPart s.ready p) { role := role } [p] false p = none)
    (ha : partAct s.ready { role := role } p s.vault (putPart s.ready p) = .ok (s.vault, e)) :
    runBoth s (fun v d => roleWrite v d role p) = .next (s.wrote e) := by
  have hs : ∀ p : Part, superseded p [] = false := fun p => by simp [superseded]
  rw [runBoth_ready]
  simp only [roleWrite, Nat.not_lt.mpr hw, if_false, writeParts, List.foldl_cons, List.foldl_nil, runParts, hs, h, ha, written,
    Bool.false_eq_true]
  rfl

end Sys2Proof.Machine
end

