-- ==== Sys2Proof/Tests/Slice0.lean ====
section
/-! SUPPORT. Tests: the ill-formed terms that the checks refuse, a few values worked by hand from the rules, and for every statement
with hypotheses a state and operands that meet all of them. -/
namespace Sys2Proof.Tests
set_option Elab.async false
open Sys2Proof Sys2Proof.Machine

/-- A part that runs: every domain powered, in MEADOW, clocks locked, 2 ms up. -/
def base : Dev :=
  let d : Dev := { State.reset.dev with
    up := 2000000, frame := 4000, pmu := { ({} : Pmu) with held := false, power := 2 ^ 31 - 1 }
    clkg := { ({} : Clk) with ref := 1, sysPll := true } }
  (((d.setN O.devState 2).setN O.pmuPdState (2 ^ 31 - 1)).setN O.clkState cgLocked).setN O.clkQualified 7

def upd (d : Dev) (f : Dev → Dev) : Dev := f d
def st (d : Dev) : State := { State.reset with dev := d }

/-- A point's execution, and a path entry, for the witnesses about points. -/
def run0 : PtRun :=
  { cfg := ptCfgOf base 4095, reqFrame := 3990, reqTime := 0, requester := 256, pos := 0, chA := 95 }
def entry0 : PathEntry := ⟨false, 16383, 0, 1, 1⟩
/-- A point's record of zeros, and a reply of driver 1023 with tag 63. -/
def recordBytes : Bytes := List.replicate 192 0
def replyFrame : Nat := let v := 5 * 2 ^ 36 + 1023 * 2 ^ 22 + 63; v * 256 + crc8 (beBytes 5 v)

/-- An outcome that decides well is an outcome that exists. -/
theorem ok_read {x : Except Abort (Nat × Bytes × Dev)} {P : Nat → Bytes → Dev → Prop} [∀ t b e, Decidable (P t b e)]
    (h : (match x with | .ok (t, b, e) => decide (P t b e) | _ => false) = true) : ∃ t b e, x = .ok (t, b, e) ∧ P t b e := by
  split at h
  · exact ⟨_, _, _, rfl, of_decide_eq_true h⟩
  · exact absurd h (by decide)
theorem ok_write {E : Type} {x : Except E (Vault × Dev)} {P : Vault → Dev → Prop} [∀ v e, Decidable (P v e)]
    (h : (match x with | .ok (v, e) => decide (P v e) | _ => false) = true) : ∃ v e, x = .ok (v, e) ∧ P v e := by
  split at h
  · exact ⟨_, _, rfl, of_decide_eq_true h⟩
  · exact absurd h (by decide)
theorem ok_any {E A : Type} {x : Except E A} {P : A → Prop} [∀ a, Decidable (P a)]
    (h : (match x with | .ok a => decide (P a) | _ => false) = true) : ∃ a, x = .ok a ∧ P a := by
  split at h
  · exact ⟨_, rfl, of_decide_eq_true h⟩
  · exact absurd h (by decide)
theorem ok_is {E A : Type} [DecidableEq A] {x : Except E A} {a : A}
    (h : (match x with | .ok b => decide (b = a) | _ => false) = true) : x = .ok a := by
  split at h
  · exact congrArg _ (of_decide_eq_true h)
  · exact absurd h (by decide)

/-- A descriptor with every slot and one range of each kind. -/
def range0 : RangeEntry := ⟨1000000, 1000000, 1000000, 10, false, 1000000⟩
def desc0 : Desc := ⟨[], 0, [], 255, 4, 1, 2, 1, 1, 0, 0, [range0], [range0], 0⟩

/-! The smoke test: one ill-formed term for every check. -/

/-- Numbers, addresses, items and lists out of bounds. -/
theorem test_ill_formed_refused : (
    [.controllerFrame (2 ^ 32), .descData 0 (2 ^ 8) [], .status 0 (2 ^ 8) [], .ack 0 (2 ^ 8) [], .event 0 (2 ^ 8) [],
     .holdTimeoutWrite 0 (2 ^ 64), .laneDivWrite 0 (2 ^ 64), .repBinsWrite 0 (2 ^ 64), .repModeWrite 0 (2 ^ 64),
     .limitWrite 0 .vPos (2 ^ 64), .rangePolicyWrite 0 .iFloor (2 ^ 64), .guardWrite 0 0 .kind (2 ^ 64), .relayReply false (2 ^ 32),
     .ctbSourceChange .src (2 ^ 64), .ctbEdge 0 (2 ^ 32), .rtcLoad (2 ^ 40), .todSet (2 ^ 64), .utcOffsetWrite (2 ^ 64),
     .leapSchedule .instant (2 ^ 64), .tinEdge 0 [] 0 (2 ^ 32) 0, .tinEdge 0 [2 ^ 31] 0 0 0, .tinEdge 0 (List.replicate 251 0) 0 0 0, .tinEdge 0 [] 0 0 (2 ^ 16), .tinConfigWrite 0 .thresh (2 ^ 64),
     .tdcCalDone 0 (2 ^ 32) 0, .tdcCalDone 0 0 (2 ^ 32), .softEvent (2 ^ 64), .selectorWrite 0 (2 ^ 64), .lutModeWrite 0 .ff (2 ^ 64),
     .samConversion 0 (2 ^ 32) 0, .samConversion 0 0 (2 ^ 32), .samEntryWrite 0 (2 ^ 64), .axdLevel 0 (2 ^ 64), .read 0 (2 ^ 32) ⟨0, 0, 0⟩,
     .read 0 0 ⟨2 ^ 16, 0, 0⟩, .write 0 (2 ^ 32) ⟨⟨0, 0, 0⟩, 0, []⟩, .write 0 0 ⟨⟨2 ^ 16, 0, 0⟩, 0, []⟩, .readMulti 0 (2 ^ 32) [],
     .writeMulti 0 (2 ^ 32) [], .peek 0 (2 ^ 32) ⟨0, 0, 0⟩, .peek 0 0 ⟨2 ^ 16, 0, 0⟩, .lock 0 (2 ^ 32) 0 0 [], .lock 0 0 (2 ^ 8) 0 [],
     .lock 0 0 0 (2 ^ 32) [], .renew 0 (2 ^ 32) 0 0, .renew 0 0 (2 ^ 16) 0, .renew 0 0 0 (2 ^ 32), .release 0 (2 ^ 32) 0,
     .release 0 0 (2 ^ 16), .commit 0 (2 ^ 32) 0 false, .commit 0 0 (2 ^ 16) false, .subscribe 0 (2 ^ 32) 0 0 ⟨0, 0, 0⟩,
     .subscribe 0 0 (2 ^ 8) 0 ⟨0, 0, 0⟩, .subscribe 0 0 0 (2 ^ 8) ⟨0, 0, 0⟩, .subscribe 0 0 0 0 ⟨2 ^ 16, 0, 0⟩,
     .openSession (2 ^ 8) 0 0 0 0 (List.replicate 16 0), .openSession 0 (2 ^ 64) 0 0 0 (List.replicate 16 0),
     .openSession 0 0 0 0 (2 ^ 16) (List.replicate 16 0), .rejoin 0 (2 ^ 64) 0 0 0 (List.replicate 16 0),
     .rejoin 0 0 0 (2 ^ 32) 0 (List.replicate 16 0), .rejoin 0 0 0 0 (2 ^ 16) (List.replicate 16 0), .replay 0 (2 ^ 32) 0,
     .replay 0 0 (2 ^ 32), .blockRead 0 (2 ^ 32) ⟨0, 0, 0⟩ 0 0, .blockRead 0 0 ⟨2 ^ 16, 0, 0⟩ 0 0, .blockRead 0 0 ⟨0, 0, 0⟩ (2 ^ 32) 0,
     .blockRead 0 0 ⟨0, 0, 0⟩ 0 (2 ^ 16), .blockWrite 0 (2 ^ 32) ⟨0, 0, 0⟩ 0 [], .blockWrite 0 0 ⟨2 ^ 16, 0, 0⟩ 0 [],
     .blockWrite 0 0 ⟨0, 0, 0⟩ (2 ^ 32) [], .blockWriteLast 0 (2 ^ 32) ⟨0, 0, 0⟩ 0 [], .blockWriteLast 0 0 ⟨2 ^ 16, 0, 0⟩ 0 []] : List Instr).all (fun i => !i.wellFormed) = true := by decide +kernel
theorem test_ill_formed_refused_more : (
    [.blockWriteLast 0 0 ⟨0, 0, 0⟩ (2 ^ 32) [], .nop 0 (2 ^ 32), .bindingWrite .udpPort (2 ^ 64), .writeMsg false (2 ^ 16) [],
     .readMsg (2 ^ 16), .stickyFlagsRead (2 ^ 16) 0, .stickyFlagsRead 0 (2 ^ 8), .prpModeWrite .prpMode 0 (2 ^ 64),
     .notifPacket 0 (2 ^ 16) [], .resultPacket 0 0 (2 ^ 16) [], .form (2 ^ 8) 0 0, .form 0 (2 ^ 8) 0, .form 0 0 (2 ^ 64),
     .alive 0 (2 ^ 64) 0 false, .alive 0 0 (2 ^ 8) false, .breakPacket (2 ^ 8) 0, .unwrap (2 ^ 64), .recoverRequest (2 ^ 64),
     .recoverReply 0 (2 ^ 8) [], .link 0 (2 ^ 64) 0, .link 0 0 (2 ^ 64), .hrcTrimWindow (2 ^ 32), .refSelWrite (2 ^ 64),
     .clockGateWrite (2 ^ 64), .domainOn (2 ^ 64), .domainOff (2 ^ 64), .resetRequest (2 ^ 9), .resetPinHigh (2 ^ 9),
     .resetStuckGuard (2 ^ 9), .watchdogExpiry 0 (2 ^ 9), .coreReset (2 ^ 64), .laneReset (2 ^ 64), .unitReset (2 ^ 64), .wake (2 ^ 8) 0 0,
     .wake 0 (2 ^ 8) 0, .wake 0 0 (2 ^ 9), .faultRaise 0 0 (2 ^ 8) 0 false, .faultRaise 0 0 0 (2 ^ 32) false, .restoreLane (2 ^ 64),
     .ackTo (2 ^ 64), .pageRefresh (2 ^ 32), .calTagWrite 0 0 (2 ^ 64), .debugPeek ⟨2 ^ 16, 0, 0⟩, .powerOnResetRelease (2 ^ 40) 0 false 0,
     .powerOnResetRelease 0 (2 ^ 48) false 0, .powerOnResetRelease 0 0 false (2 ^ 9), .upFrame 0 .bad false false 0 5001 [],
     .segmentTableWrite 262145 [], .listWrite 2097153 [], .pointRecordWrite 0 [],
     .readMulti 0 0 [⟨0, 2 ^ 8, 0⟩], .readMulti 0 0 [⟨0, 0, 2 ^ 8⟩], .writeMulti 0 0 [⟨⟨0, 0, 0⟩, 2 ^ 8, []⟩], .lock 0 0 0 0 [(2 ^ 16, 0)],
     .lock 0 0 0 0 [(0, 2 ^ 16)], .openSession 0 0 0 0 0 [], .rejoin 0 0 0 0 0 [], .canFrame 0 (2 ^ 11) false [],
     .canFrame 0 (2 ^ 29) true [], .hlFrameOriginate 0 39 2, .hlFrame 0 0 0 41 0 [], .hlFrame 0 0 0 0 0 [[]],
     .recoverReply 0 0 [(2 ^ 63, 0)], .recoverReply 0 0 [(0, 2 ^ 16)], .faultInject [], .keySet 0 0 [], .fwImageWrite 16777217 []] : List Instr).all (fun i => !i.wellFormed) = true := by decide +kernel
/-- Byte strings and lists that are too long. -/
theorem test_too_long_refused (b : Bytes) (l : List Addr) (xs : List Item) (rs : List (Nat × Nat)) (h : 65535 < b.length)
    (hl : 255 < l.length) (hx : 255 < xs.length) (hr : 255 < rs.length) :
    (Instr.upFrame 0 .bad false false 0 0 (b.map .data)).wellFormed = false ∧
    (Instr.descData 0 0 b).wellFormed = false ∧
    (Instr.status 0 0 b).wellFormed = false ∧
    (Instr.ack 0 0 b).wellFormed = false ∧
    (Instr.event 0 0 b).wellFormed = false ∧
    (Instr.repDataWrite 0 b).wellFormed = false ∧
    (Instr.segmentTableWrite 0 b).wellFormed = false ∧
    (Instr.listWrite 0 b).wellFormed = false ∧
    (Instr.todCalSet b).wellFormed = false ∧
    (Instr.ptpMessage 0 0 b).wellFormed = false ∧
    (Instr.axdPush 0 b).wellFormed = false ∧
    (Instr.axdTable 0 b).wellFormed = false ∧
    (Instr.blockWrite 0 0 ⟨0, 0, 0⟩ 0 b).wellFormed = false ∧
    (Instr.blockWriteLast 0 0 ⟨0, 0, 0⟩ 0 b).wellFormed = false ∧
    (Instr.writeMsg false 0 b).wellFormed = false ∧
    (Instr.canFrame 0 0 false b).wellFormed = false ∧
    (Instr.ethFrame 0 0 false b).wellFormed = false ∧
    (Instr.dictReq 0 0 b).wellFormed = false ∧
    (Instr.dictRsp 0 0 b).wellFormed = false ∧
    (Instr.notifPacket 0 0 b).wellFormed = false ∧
    (Instr.resultPacket 0 0 0 b).wellFormed = false ∧
    (Instr.calBlockWrite .sam 0 b).wellFormed = false ∧
    (Instr.fwImageWrite 0 b).wellFormed = false ∧
    (Instr.readMulti 0 0 l).wellFormed = false ∧
    (Instr.writeMulti 0 0 xs).wellFormed = false ∧
    (Instr.lock 0 0 0 0 rs).wellFormed = false := by
  refine ⟨?_, ?_, ?_, ?_, ?_, ?_, ?_, ?_, ?_, ?_, ?_, ?_, ?_, ?_, ?_, ?_, ?_, ?_, ?_, ?_, ?_, ?_, ?_, ?_, ?_, ?_⟩ <;>
    simp [Instr.wellFormed, atMost, u, addrOk] <;> omega

/-! The two blocks of zeros are accepted: their checksums, taken in steps that the kernel can follow. -/

theorem zeros_add (c a b : Nat) : (List.replicate (a + b) (0 : Byte)).foldl crcByte c =
    (List.replicate b (0 : Byte)).foldl crcByte ((List.replicate a (0 : Byte)).foldl crcByte c) := by
  rw [← List.replicate_append_replicate, List.foldl_append]
theorem crc_480 : (List.replicate 480 (0 : Byte)).foldl crcByte 0xFFFFFFFF = 6515133 := by
  rw [show (480 : Nat) = 160 + 160 + 160 from rfl, zeros_add, zeros_add,
    show (List.replicate 160 (0 : Byte)).foldl crcByte 0xFFFFFFFF = 475290725 by decide +kernel,
    show (List.replicate 160 (0 : Byte)).foldl crcByte 475290725 = 64332339 by decide +kernel]
  decide +kernel
theorem crc_of (b : Bytes) (n : Nat) (h : b.foldl crcByte 0xFFFFFFFF = n) : crc32c b = n ^^^ 0xFFFFFFFF := by
  unfold crc32c; rw [h]
theorem crc_636 : crc32c (List.replicate 636 0) = 4257612980 := by
  have h : (List.replicate 636 (0 : Byte)).foldl crcByte 0xFFFFFFFF = 37354315 := by
    rw [show (636 : Nat) = 480 + 156 from rfl, zeros_add, crc_480]
    decide +kernel
  exact (crc_of _ _ h).trans (by decide)
theorem crc_940 : crc32c (List.replicate 940 0) = 1019239861 := by
  have h : (List.replicate 940 (0 : Byte)).foldl crcByte 0xFFFFFFFF = 3275727434 := by
    rw [show (940 : Nat) = 480 + 160 + 160 + 140 from rfl, zeros_add, zeros_add, zeros_add, crc_480,
      show (List.replicate 160 (0 : Byte)).foldl crcByte 6515133 = 534250289 by decide +kernel,
      show (List.replicate 160 (0 : Byte)).foldl crcByte 534250289 = 4236892545 by decide +kernel]
    decide +kernel
  exact (crc_of _ _ h).trans (by decide)
def chanZeros : Bytes := List.replicate 60 0 ++ leBytes 4 4257612980 ++ List.replicate 576 0
def samZeros : Bytes := List.replicate 28 0 ++ leBytes 4 1019239861 ++ List.replicate 912 0
theorem chanZeros_ok : calBlockOk 95 chanZeros = true := by
  have h : chanZeros.drop 64 ++ chanZeros.take 60 = List.replicate 636 0 := by decide +kernel
  have v : calValid false chanZeros = true := by
    unfold calValid
    rw [if_neg (by decide), h, crc_636]
    decide +kernel
  unfold calBlockOk
  rw [if_neg (by decide +kernel), v]
  decide +kernel
theorem samZeros_ok : calBlockOk keySam samZeros = true := by
  have h : samZeros.drop 32 ++ samZeros.take 28 = List.replicate 940 0 := by decide +kernel
  have v : calValid true samZeros = true := by
    unfold calValid
    rw [if_pos rfl, h, crc_940]
    decide +kernel
  unfold calBlockOk
  rw [if_pos (by decide +kernel), v]
  decide +kernel
/-- A part with a meaning of its own is taken once nothing else bars it. -/
theorem takesAs_of (s : State) (role : Nat) (p : Part) (h0 : writeRole { role := role } p.l ≤ role) (h1 : locked s.ready { role := role } p.l = none)
    (h2 : divergentBars s.ready p = false) (h3 : meaningCode p = 0) (h4 : masksShared [p] p = false)
    (h5 : relationCode (putPart s.ready p) p.l = 0)
    (h6 : ∀ n, stateCode s.ready (putPart s.ready p) { role := role } p.l n = 0) : s.takesAs role p := by
  refine ⟨h0, ?_⟩
  unfold partCode
  simp [h1, h2, h3, h4, h5, h6]

/-! Values worked by hand in the specification's examples. -/

/-- Chapter 16: where channel 37, point P0300, and selector 110 lie. -/
theorem test_addresses : lookup 0x3251 2 = some ⟨O.chForceVLevel, 37, 0⟩ ∧ lookup 0x412C 0 = some ⟨O.ptRecord, 300, 0⟩ ∧
    lookup 0x2510 0x6F = some ⟨O.ermInSel, 0, 110⟩ ∧ lookup 0x3004 0x41 = some ⟨O.chCoefKi, 0, 3⟩ := by decide +kernel
/-- Chapter 14, one WRITE: its body. -/
theorem test_write_item : itemBytes ⟨⟨0x3251, 2, 0⟩, 0x0B, leBytes 8 1500000000⟩ =
    [0x51, 0x32, 0x02, 0x00, 0x0B, 0x00, 0x08, 0x00, 0x00, 0x2F, 0x68, 0x59, 0, 0, 0, 0] := by decide +kernel
/-- Chapter 15: the entry of the dictionary map. -/
theorem test_map_entry : (mapEntry O.chForceVLevel 0).2 = [0x01, 0x30, 0x02, 0x0B, 1, 1, 1, 0, 8, 0, 0, 0, 0x60, 0, 0x10, 0] := by
  decide +kernel
/-- Chapter 10: day 10,043 of the epoch. -/
theorem test_day : dayOf ⟨2027, 7, 1⟩ = 10043 := by decide
/-- R18: ties go to the even value. -/
theorem test_ties : roundShift (-6) 2 = -2 ∧ roundShift 6 2 = 2 ∧ roundShift 2 2 = 0 ∧ roundShift 10 2 = 2 := by decide
/-- The check value of CRC-32C over the digits 1 to 9, and SHA-256 of "abc". -/
theorem test_crc : crc32c [0x31, 0x32, 0x33, 0x34, 0x35, 0x36, 0x37, 0x38, 0x39] = 0xE3069283 := by decide +kernel
theorem test_sha : (sha256 [0x61, 0x62, 0x63]).take 4 = [0xBA, 0x78, 0x16, 0xBF] := by decide +kernel
/-- An object with nothing written has the default of its table. -/
theorem test_defaults : State.reset.dev.nat O.laneDiv 11 = 1 ∧ State.reset.dev.nat O.chForceMode 95 = 2 := by decide +kernel

/-- R306, R307: code 310 is 1.000 V; a level that stays passes the filter, and one of two samples does not. -/
theorem test_comparator : comparator 310 0 1000001 false = true ∧ comparator 310 0 1000000 false = false ∧
    comparator 310 0 999999 true = false := by decide
def levelAfter (uv : List Int) : Option (Bool × Nat) :=
  match exec (.tinEdge 7 uv 200 0 0) (st base) with
  | .next t => some (t.dev.on O.tiuInLevel 7, t.dev.nat O.tiuInEdges 7)
  | _ => none
theorem test_filter : levelAfter (List.replicate 40 3300000) = some (true, 1) ∧
    levelAfter (List.replicate 10 3300000 ++ List.replicate 40 0) = some (false, 0) ∧
    levelAfter (List.replicate 15 3300000 ++ List.replicate 40 0) = some (false, 1) := by decide +kernel

theorem witness_EmptyQueueIdles : ∃ s : State, s.pending = [] := ⟨State.reset, rfl⟩

theorem witness_StepsKeepAnOwnerKey : ∃ s t : State, s.guarded ∧ step s = .next t :=
  ⟨State.reset, State.reset, by decide +kernel, rfl⟩

/-- Both cases of the write: the key of the running slot is barred, another is not. -/
theorem witness_VersionsAndRevocationsNeverGoBack :
    (∃ s t : State, step s = .next t) ∧
    (∃ s : State, s.takes (part1 O.secFwRevoke 3) ∧
      ¬ ((fwSlot s.ready s.ready.fw.running ≠ [] ∧ fwKey (fwSlot s.ready s.ready.fw.running) = 3) ∨
        (fwValid s.vault s.ready (fwOther s.ready) = true ∧ fwKey (fwSlot s.ready (fwOther s.ready)) = 3))) ∧
    (∃ s : State, ∃ key : Fin 4, s.takes (part1 O.secFwRevoke key) ∧
      fwSlot s.ready s.ready.fw.running ≠ [] ∧ fwKey (fwSlot s.ready s.ready.fw.running) = key) :=
  ⟨⟨State.reset, State.reset, rfl⟩, ⟨st base, by decide +kernel, by decide +kernel⟩,
    ⟨st (upd base fun x => { x with fw := { x.fw with slotA := [0, 0, 0, 0, 0, 3] ++ List.replicate 449 0 } }), 3, by decide +kernel, by decide +kernel,
      by decide +kernel⟩⟩

theorem witness_OnlyAnOwnerChangesKeys : ∃ (v v' : Vault) (d d' : Dev) (w : Who) (r : Resp) (rep : List (Nat × Bytes)),
    w.role < 3 ∧ runOp v d w opNop [] = .done r v' d' rep :=
  ⟨shippedVault, shippedVault, base, base, { role := 2 }, {}, [], by decide, rfl⟩

theorem witness_RolesAreOrdered :
    ∃ w x : Who, w.role ≤ x.role ∧ x = { w with role := x.role } ∧ readCode base w ⟨O.devState, 0, 0⟩ = none ∧
      hasEffect base { w with role := 1 } ⟨O.ctbFlags, 0, 0⟩ = true ∧
      itemLoc base { w with role := 1 } ⟨O.laneDiv.idx, O.laneDiv.sub, tyCode .u16, none, [2, 0]⟩ = .ok ⟨O.laneDiv, 0, 0⟩ ∧
      partCode base base w [part1 O.laneDiv 2] false (part1 O.laneDiv 2) = none ∧
      subCode w (subOf 4 base.node O.devState.idx O.devState.sub) = none :=
  ⟨{ role := 0 }, { role := 3 }, by decide, rfl, by decide +kernel, by decide +kernel, ok_is (by decide +kernel), by decide +kernel, by decide +kernel⟩

theorem witness_ReadRightsFollowTheRole : ∃ w x : Who, ∃ l m : Loc, l.o.acc = .rw ∧ m.o.acc = .ro ∧
    w.role < roleNum m.o.role ∧ roleNum m.o.role ≤ x.role :=
  ⟨{ role := 0 }, { role := 1 }, ⟨O.laneDiv, 11, 0⟩, ⟨O.chTraceData, 88, 0⟩, rfl, rfl, by decide, by decide⟩

theorem witness_ReservedIndicesAreRefused : lookup 0xFFFF 0xFF = none ∧ lookup 0 0 = none := by decide +kernel

theorem witness_RingsOfRaisesAreKept : ∃ (o : Obj) (i g k : Nat), (o = O.fcrSrcWindow ∨ o = O.fcrSrcThresh) ∧ k ≠ i * 128 + g :=
  ⟨O.fcrSrcThresh, 1, 127, 0, Or.inr rfl, by decide⟩

theorem done_is {x : OpOut} {P : Resp → Prop} [∀ r, Decidable (P r)]
    (h : (match x with | .done r _ _ _ => decide (P r) | _ => false) = true) : ∃ r v d rep, x = .done r v d rep ∧ P r := by
  split at h
  · exact ⟨_, _, _, _, rfl, of_decide_eq_true h⟩
  · exact absurd h (by decide)
theorem witness_RefusedWritesChangeNothing : ∃ (r : Resp) (v' : Vault) (d' : Dev) (rep : List (Nat × Bytes)),
    writeOp shippedVault base {} false [⟨0xFFFF, 0xFF, tyCode .u8, none, [0]⟩] = .done r v' d' rep ∧ r.code ≠ 0 :=
  done_is (by decide +kernel)

theorem witness_AddressesNameTheirOwnCells : ∃ l m : Loc, lookup O.laneDiv.idx O.laneDiv.sub = some l ∧
    lookup (O.laneDiv.idx + 0xB0) O.laneDiv.sub = some m ∧ (O.laneDiv.idx, O.laneDiv.sub) ≠ (O.laneDiv.idx + 0xB0, O.laneDiv.sub) :=
  ⟨⟨O.laneDiv, 0, 0⟩, ⟨O.laneDiv, 11, 0⟩, by decide +kernel, by decide +kernel, by decide⟩

theorem witness_StoresKeepTheirForm : ∃ (d : Dev) (l : Loc), d.cellsWf ∧ lookup O.laneDiv.idx O.laneDiv.sub = some l :=
  ⟨State.reset.dev, ⟨O.laneDiv, 0, 0⟩, by decide +kernel, by decide +kernel⟩

theorem witness_RoundingIsToNearestEven : ∃ (x : Int) (k : Nat), 0 < k ∧ 2 * (x - roundShift x k * 2 ^ k).natAbs = 2 ^ k :=
  ⟨-6, 2, by decide⟩

theorem witness_LinkFramesAndTimeouts :
    (∃ (s : State) (n : Fin 12) (comma : Sym) (aligned : Bool) (inverted : Bool) (age : Fin 4) (syms : List Sym) (b : Bytes) (good : Bool), b = symBytes 100 (comma :: syms) ∧ good = (aligned && inverted == bit (s.ready.lane n).polInForce 1 && symsOk 96 (comma :: syms) && upCrcOk b && (parseUp b).fcount == (s.ready.frame - age) % 65536 && decide ((parseUp b).sstate ≤ ssFault) && decide (age.val ≤ s.ready.frame)) ∧ (s.ready.nat O.laneState n = lsOff ∨ (s.ready.lane n).transmitting = false)) ∧
    (∃ (s : State) (n : Fin 12) (comma : Sym) (aligned : Bool) (inverted : Bool) (age : Fin 4) (syms : List Sym) (b : Bytes) (good : Bool), b = symBytes 100 (comma :: syms) ∧ good = (aligned && inverted == bit (s.ready.lane n).polInForce 1 && symsOk 96 (comma :: syms) && upCrcOk b && (parseUp b).fcount == (s.ready.frame - age) % 65536 && decide ((parseUp b).sstate ≤ ssFault) && decide (age.val ≤ s.ready.frame)) ∧ s.ready.nat O.laneState n ≠ lsOff ∧ (s.ready.lane n).transmitting = true ∧ ((∀ x, s.ready.fcr.inject = some x → x.target ≠ 3 ∨ x.unit ≠ n ∨ x.left = 0)) ∧ good = true) ∧
    (∃ (s : State) (n : Fin 12) (comma : Sym) (aligned : Bool) (inverted : Bool) (age : Fin 4) (syms : List Sym) (b : Bytes) (good : Bool) (x : Inject), b = symBytes 100 (comma :: syms) ∧ good = (aligned && inverted == bit (s.ready.lane n).polInForce 1 && symsOk 96 (comma :: syms) && upCrcOk b && (parseUp b).fcount == (s.ready.frame - age) % 65536 && decide ((parseUp b).sstate ≤ ssFault) && decide (age.val ≤ s.ready.frame)) ∧ s.ready.nat O.laneState n ≠ lsOff ∧ (s.ready.lane n).transmitting = true ∧ s.ready.fcr.inject = some x ∧ x.target = 3 ∧ x.unit = n ∧ 0 < x.left) ∧
    (∃ (s : State) (n : Fin 12), ((s.ready.lane n).inFlight = false ∨ (s.ready.lane n).txPending = true)) ∧
    (∃ (s : State) (n : Fin 12), (s.ready.lane n).inFlight = true ∧ (s.ready.lane n).txPending = false) :=
  ⟨⟨(st base), 11, symComma, true, false, 0, [], _, _, rfl, rfl, by decide +kernel⟩,
    ⟨(st ((base.setN O.laneState 4 11).setLane 11 { ({} : Link) with transmitting := true })), 11, symComma, true, false, 0, ((frameSyms ([15, 160] ++ List.replicate 94 0 ++ beBytes 4 (crc32c ([15, 160] ++ List.replicate 94 0)))).tail), _, _, rfl, rfl, by decide +kernel, by decide +kernel, by decide +kernel, by decide +kernel⟩,
    ⟨(st (upd ((base.setN O.laneState 4 11).setLane 11 { ({} : Link) with transmitting := true }) fun x => { x with fcr := { x.fcr with inject := some ⟨3, 11, 1⟩ } })), 11, symComma, true, false, 0, [], _, _, ⟨3, 11, 1⟩, rfl, rfl, by decide +kernel, by decide +kernel, by decide +kernel, by decide +kernel, by decide +kernel, by decide +kernel⟩,
    ⟨(st base), 11, by decide +kernel⟩,
    ⟨(st (base.setLane 11 { ({} : Link) with inFlight := true, txResends := 7 })), 11, by decide +kernel, by decide +kernel⟩⟩

theorem witness_FramesAndRepliesAreTaken :
    (∃ (s : State), s.ready.nat O.devState ≠ 6) ∧
    (∃ (s : State) (n : Fin 12) (tag : Nat) (q : LMsg), (s.ready.lane n).request = some q ∧ q.tag = tag ∧ q.typ = 1) ∧
    (∃ (s : State) (n : Fin 12) (tag : Nat) (b : Bytes) (q : LMsg), (s.ready.lane n).request = some q ∧ q.tag = tag ∧ q.typ = 2 ∧ b.length = 72) ∧
    (∃ (s : State) (n : Fin 12) (tag : Nat) (b : Bytes) (q : LMsg), (s.ready.lane n).request = some q ∧ q.tag = tag ∧ beField b 0 1 = q.typ) ∧
    (∃ (s : State) (n : Fin 12), (s.ready.lane n).request = none) ∧
    (∃ (b : Bytes), beField b 0 1 = 1) :=
  ⟨⟨(st base), by decide +kernel⟩,
    ⟨(st (base.setLane 11 { ({} : Link) with request := some ⟨1, 255, []⟩ })), 11, 255, ⟨1, 255, []⟩, by decide +kernel, by decide +kernel, by decide⟩,
    ⟨(st (base.setLane 11 { ({} : Link) with request := some ⟨2, 255, []⟩ })), 11, 255, (List.replicate 72 0), ⟨2, 255, []⟩, by decide +kernel, by decide +kernel, by decide +kernel, by decide +kernel⟩,
    ⟨(st (base.setLane 11 { ({} : Link) with request := some ⟨5, 255, []⟩ })), 11, 255, [5, 0], ⟨5, 255, []⟩, by decide +kernel, by decide +kernel, by decide +kernel⟩,
    ⟨(st base), 11, by decide +kernel⟩,
    ⟨[1, 3], by decide +kernel⟩⟩

theorem witness_LaneWritesAct :
    (∃ (s : State) (n : Fin 12) (on : Bool), s.takes (part1 O.laneEnable (b2n on) n)) ∧
    (∃ (s : State) (n : Fin 12), s.takes (part1 O.laneCmd 1 n) ∧ s.ready.nat O.laneState n = lsLost) ∧
    (∃ (s : State) (n : Fin 12), s.takes (part1 O.laneCmd 1 n) ∧ s.ready.nat O.laneState n = lsFault) ∧
    (∃ (s : State) (n : Fin 12), s.takes (part1 O.laneCmd 2 n) ∧ s.ready.nat O.laneState n = lsRun) ∧
    (∃ (s : State) (n : Fin 12), s.takes (part1 O.laneCmd 3 n) ∧ s.ready.nat O.laneState n = lsRun ∧ s.ready.nat O.devState ≠ 4 ∧ s.ready.nat O.laneSliceState n = ssSafe ∧ ((∃ x, (s.ready.lane n).status = some x ∧ rampsDone (s.ready.lane n).desc x = true))) ∧
    (∃ (s : State) (n : Fin 12) (value : Nat), (Instr.holdTimeoutWrite n value).wellFormed = true ∧ s.takes (part1 O.laneHoldTimeout value n)) ∧
    (∃ (s : State) (n : Fin 12) (value : Nat), (Instr.laneDivWrite n value).wellFormed = true ∧ s.takes (part1 O.laneDiv value n)) :=
  ⟨⟨(st base), 11, true, by decide +kernel⟩,
    ⟨(st (base.setN O.laneState 7 11)), 11, by decide +kernel, by decide +kernel⟩,
    ⟨(st (base.setN O.laneState 9 11)), 11, by decide +kernel, by decide +kernel⟩,
    ⟨(st (base.setN O.laneState 4 11)), 11, by decide +kernel, by decide +kernel⟩,
    ⟨(st (((base.setN O.laneState 4 11).setN O.laneSliceState 5 11).setLane 11 { ({} : Link) with status := some ⟨5, 0, 0, 0, 0, 0, 0, List.replicate 8 ⟨0, 0, 4⟩⟩ })), 11, by decide +kernel, by decide +kernel, by decide +kernel, by decide +kernel, ⟨⟨5, 0, 0, 0, 0, 0, 0, List.replicate 8 ⟨0, 0, 4⟩⟩, by decide +kernel⟩⟩,
    ⟨(st base), 11, 60000000000, by decide +kernel, by decide +kernel⟩,
    ⟨(st base), 11, 2, by decide +kernel, by decide +kernel⟩⟩

theorem witness_ChannelEnableAndDisable :
    (∃ (s : State) (n : Fin 96), s.takes (part1 O.chEnable 1 n) ∧ chBound s.ready n = false ∧ s.ready.nat O.laneState (n / 8) = lsRun ∧ s.ready.nat O.chForceLoopState n = 0 ∧ slotPresent (s.ready.lane (n / 8)).desc (n % 8) = true ∧ bit (s.ready.lane (n / 8)).safed (n % 8) = false ∧ (startRanges s.ready n).isSome = true) ∧
    (∃ (s : State) (n : Fin 96), s.takes (part1 O.chEnable 0 n) ∧ chBound s.ready n = false ∧ s.ready.nat O.chForceLoopState n = 2) ∧
    (∃ (s : State) (n : Fin 96), s.takes (part1 O.chEnable 0 n) ∧ chBound s.ready n = false ∧ (s.ready.nat O.chForceLoopState n = 1 ∨ s.ready.nat O.chForceLoopState n = 5)) ∧
    (∃ (s : State) (n : Fin 96), s.takes (part1 O.chEnable 0 n) ∧ chBound s.ready n = false ∧ s.ready.nat O.chForceLoopState n = 0) :=
  ⟨⟨(st (base.setN O.laneState 4 11)), 95, by decide +kernel, by decide +kernel, by decide +kernel, by decide +kernel, by decide +kernel, by decide +kernel, by decide +kernel⟩,
    ⟨(st (base.setN O.chForceLoopState 2 95)), 95, by decide +kernel, by decide +kernel, by decide +kernel⟩,
    ⟨(st (base.setN O.chForceLoopState 5 95)), 95, by decide +kernel, by decide +kernel, by decide +kernel⟩,
    ⟨(st base), 95, by decide +kernel, by decide +kernel, by decide +kernel⟩⟩

theorem witness_CascadeAndBinsAct :
    (∃ (s : State) (n : Fin 96), s.takes (part1 O.chCascEngage 1 n) ∧ chanRefused s.ready O.chCascEngage n = false ∧ cascadeValid s.ready n = true ∧ s.ready.nat O.chForceLoopState n = 2 ∧ s.ready.on O.chCascEngage n = false) ∧
    (∃ (s : State) (n : Fin 96), s.takes (part1 O.chCascEngage 0 n) ∧ chanRefused s.ready O.chCascEngage n = false ∧ s.ready.on O.chCascEngage n = true) ∧
    (∃ (s : State) (n : Fin 96), s.takes (part1 O.chRepCmd 1 n)) ∧
    (∃ (s : State) (n : Fin 96) (value : Nat), (Instr.repBinsWrite n value).wellFormed = true ∧ s.takes (part1 O.chRepBins value n)) ∧
    (∃ (s : State) (n : Fin 96) (value : Nat), (Instr.repModeWrite n value).wellFormed = true ∧ s.takes (part1 O.chRepMode value n)) ∧
    (∃ (s : State) (n : Fin 96) (b : Bytes), s.takes ⟨0, ⟨O.chRepData, n, 0⟩, b, none⟩ ∧ writeLength s.ready ⟨O.chRepData, n, 0⟩ none b = true ∧ chanRefused s.ready O.chRepData n = false ∧ b.length = 4 * repN (s.ready.nat O.chRepBins n)) :=
  ⟨⟨(st (((((((base.setN O.chCascPartner 88 95).setN O.chCascRole 2 95).setN O.chCascRole 1 88).setN O.chCascPartner 95 88).setN O.chForceMode 2 88).setN O.chForceMode 1 95).setN O.chForceLoopState 2 95)), 95, by decide +kernel, by decide +kernel, by decide +kernel, by decide +kernel, by decide +kernel⟩,
    ⟨(st (base.setN O.chCascEngage 1 95)), 95, by decide +kernel, by decide +kernel, by decide +kernel⟩,
    ⟨(st base), 95, by decide +kernel⟩,
    ⟨(st base), 95, 2, by decide +kernel, by decide +kernel⟩,
    ⟨(st base), 95, 1, by decide +kernel, by decide +kernel⟩,
    ⟨(st (base.setN O.chRepBins 0 95)), 95, (List.replicate 1024 0), by decide +kernel, by decide +kernel, by decide +kernel, by decide +kernel⟩⟩

theorem witness_TracesLimitsAndRangesAct :
    (∃ (s : State) (n : Fin 12), s.takes (part1 O.chTraceCmd 1 (8 * n)) ∧ (s.ready.nat O.chTraceState (8 * n) = 0 ∨ s.ready.nat O.chTraceState (8 * n) = 4)) ∧
    (∃ (s : State) (n : Fin 12), s.takes (part1 O.chTraceCmd 2 (8 * n)) ∧ s.ready.nat O.chTraceState (8 * n) = 2) ∧
    (∃ (s : State) (n : Fin 12), s.takes (part1 O.chTraceCmd 3 (8 * n)) ∧ s.ready.nat O.chTraceState (8 * n) = 3) ∧
    (∃ (s : State) (n : Fin 96) (field : LimitField) (value : Int), (Instr.limitWrite n field value).wellFormed = true ∧ s.takes (part1 (limitObj field) value n)) ∧
    (∃ (s : State) (n : Fin 96) (field : RangeField) (value : Nat), (Instr.rangePolicyWrite n field value).wellFormed = true ∧ s.takes (part1 (rangeObj field) value n)) :=
  ⟨⟨(st base), 11, by decide +kernel, by decide +kernel⟩,
    ⟨(st (base.setN O.chTraceState 2 88)), 11, by decide +kernel, by decide +kernel⟩,
    ⟨(st (base.setN O.chTraceState 3 88)), 11, by decide +kernel, by decide +kernel⟩,
    ⟨(st base), 95, .vPos, 1, by decide +kernel, by decide +kernel⟩,
    ⟨(st base), 95, .iPin, 1, by decide +kernel, by decide +kernel⟩⟩

theorem witness_AperturesAndResultsAct :
    (∃ (s : State) (n : Fin 96), s.takes (part1 O.chApCmd 1 n) ∧ apStartRefused s.ready n = false) ∧
    (∃ (s : State) (n : Fin 96), s.takes (part1 O.chApCmd 2 n) ∧ chBound s.ready n = false ∧ (s.ready.chan n).ap.running = true) ∧
    (∃ (s : State) (n : Nat) (g : Nat) (p : Pending), nextGrant (occupied s.ready) = some (n, g) ∧ s.ready.pool.length < 16384 ∧ (s.ready.chan n).c = some p) ∧
    (∃ (s : State), s.ready.pool = []) ∧
    (∃ (s : State) (x : PoolRec) (rest : List PoolRec), s.ready.pool = x :: rest ∧ x.ecc = 2) ∧
    (∃ (s : State) (x : PoolRec) (rest : List PoolRec), s.ready.pool = x :: rest ∧ x.ecc ≠ 2 ∧ bit x.dest 0 = false ∧ x.point = 0xFFFF) ∧
    (∃ (s : State) (k : Fin 16), s.takes (part1 O.resStreamEnable 1 k)) :=
  ⟨⟨(st (base.setN O.laneState 4 11)), 95, by decide +kernel, by decide +kernel⟩,
    ⟨(st ((base.setN O.laneState 4 11).setChan 95 { ({} : Chan) with ap := { ({} : ApSeq) with running := true } })), 95, by decide +kernel, by decide +kernel, by decide +kernel⟩,
    ⟨(st (base.setChan 95 { ({} : Chan) with c := some ⟨{}, 1, false, 0, 3990, {}⟩ })), 95, 3990, ⟨{}, 1, false, 0, 3990, {}⟩, by decide +kernel, by decide +kernel, by decide +kernel⟩,
    ⟨(st base), by decide +kernel⟩,
    ⟨(st (upd base fun x => { x with pool := [⟨[], 95, 0xFFFF, 1, 0, 0, 2⟩] })), ⟨[], 95, 0xFFFF, 1, 0, 0, 2⟩, [], by decide +kernel, by decide +kernel⟩,
    ⟨(st (upd base fun x => { x with pool := [⟨[], 95, 0xFFFF, 1, 0, 0, 0⟩] })), ⟨[], 95, 0xFFFF, 1, 0, 0, 0⟩, [], by decide +kernel, by decide +kernel, by decide +kernel, by decide +kernel⟩,
    ⟨(st base), 15, by decide +kernel⟩⟩

theorem witness_SequencersAct :
    (∃ (s : State) (n : Fin 96), s.takes (part1 O.seqCmd 1 n) ∧ chBound s.ready n = false ∧ s.ready.nat O.seqState n = 0 ∧ s.ready.nat O.laneState (n / 8) ≠ 0 ∧ s.ready.nat O.seqStartSrc n ≠ 2) ∧
    (∃ (s : State) (n : Fin 96), s.takes (part1 O.seqCmd 2 n) ∧ chBound s.ready n = false ∧ s.ready.nat O.seqState n = 1) ∧
    (∃ (s : State) (n : Fin 96), s.takes (part1 O.seqCmd 3 n)) ∧
    (∃ (s : State) (off : Nat) (b : Bytes), s.takes ⟨0, ⟨O.segTable, 0, 0⟩, b, some off⟩ ∧ off % 16 = 0 ∧ b.length % 16 = 0 ∧ off + b.length ≤ 262144 ∧ segmentsOk (words32 b) = true) ∧
    (∃ (s : State) (off : Nat) (b : Bytes), s.takes ⟨0, ⟨O.listData, 0, 0⟩, b, some off⟩ ∧ off % 4 = 0 ∧ b.length % 4 = 0 ∧ off + b.length ≤ 2097152) ∧
    (∃ (s : State) (n : Fin 96) (g : Fin 7) (field : GuardField) (value : Int), (Instr.guardWrite n g field value).wellFormed = true ∧ s.takes (part1 (guardObj field) value n g)) :=
  ⟨⟨(st (base.setN O.laneState 4 11)), 95, by decide +kernel, by decide +kernel, by decide +kernel, by decide +kernel, by decide +kernel⟩,
    ⟨(st (base.setN O.seqState 1 95)), 95, by decide +kernel, by decide +kernel, by decide +kernel⟩,
    ⟨(st base), 95, by decide +kernel⟩,
    ⟨(st base), 262128, (List.replicate 16 0), by decide +kernel, by decide +kernel, by decide +kernel, by decide +kernel, by decide +kernel⟩,
    ⟨(st base), 2097148, (List.replicate 4 0), by decide +kernel, by decide +kernel, by decide +kernel, by decide +kernel⟩,
    ⟨(st base), 95, 6, .level, 1, by decide +kernel, by decide +kernel⟩⟩

theorem witness_PointsAct :
    (∃ (s : State) (p : Fin 4096), s.takes (part1 O.ptCmd 1 p) ∧ s.ready.nat O.ptState p ≠ 0) ∧
    (∃ (s : State) (p : Fin 4096), s.takes (part1 O.ptCmd 1 p) ∧ s.ready.nat O.ptState p = 0 ∧ ((s.ready.bank.oneBad.filter fun k => k / 256 == 0x4000 + p.val) ≠ [])) ∧
    (∃ (s : State) (p : Fin 4096), s.takes (part1 O.ptCmd 1 p) ∧ s.ready.nat O.ptState p = 0 ∧ (ptCfgOf s.ready p).valid = true ∧ ((s.ready.bank.oneBad.filter fun k => k / 256 == 0x4000 + p.val) = []) ∧ ((s.ready.bank.oneFix.filter fun k => k / 256 == 0x4000 + p.val) = [])) ∧
    (∃ (s : State) (p : Fin 4096), s.takes (part1 O.ptCmd 2 p) ∧ s.ready.nat O.ptState p = 1) ∧
    (∃ (s : State) (p : Fin 4096), s.takes (part1 O.ptCmd 2 p) ∧ 2 ≤ s.ready.nat O.ptState p ∧ s.ready.nat O.ptState p ≤ 6) ∧
    (∃ (s : State) (p : Fin 4096), s.takes (part1 O.ptCmd 3 p)) ∧
    (∃ (s : State), bit (s.ready.nat O.pmuPdState) 14 = true ∧ s.ready.psc.resetPend = false) ∧
    (∃ (s : State) (p : Fin 4096) (r : PtRun), s.ready.run? p = some r) ∧
    (∃ (s : State) (p : Fin 4096), s.ready.run? p = none) ∧
    (∃ (s : State) (p : Fin 4096) (b : Bytes) (ps : List Part) (after : Dev), ps = itemParts 0 ⟨O.ptRecord, p, 0⟩ ⟨O.ptRecord.idx, O.ptRecord.sub, tyCode O.ptRecord.ty, none, b⟩ ∧ after = ps.foldl putPart s.ready ∧ writeLength s.ready ⟨O.ptRecord, p, 0⟩ none b = true ∧ ((∀ q ∈ ps, partCode s.ready after {} ps false q = none))) :=
  ⟨⟨(st (base.setN O.ptState 1 4095)), 4095, by decide +kernel, by decide +kernel⟩,
    ⟨(st ({ base with bank := { base.bank with oneBad := [0x4fff01] } })), 4095, by decide +kernel, by decide +kernel, by decide +kernel⟩,
    ⟨(st (((base.setN O.ptMode 1 4095).setN O.ptBind 95 4095).setN O.ptPolySrc 0 4095)), 4095, by decide +kernel, by decide +kernel, by decide +kernel, by decide +kernel, by decide +kernel⟩,
    ⟨(st (base.setN O.ptState 1 4095)), 4095, by decide +kernel, by decide +kernel⟩,
    ⟨(st (base.setN O.ptState 6 4095)), 4095, by decide +kernel, by decide +kernel, by decide +kernel⟩,
    ⟨(st base), 4095, by decide +kernel⟩,
    ⟨(st base), by decide +kernel, by decide +kernel⟩,
    ⟨(st ((base).setRun 4095 run0)), 4095, run0, by decide +kernel⟩,
    ⟨(st base), 4095, by decide +kernel⟩,
    ⟨(st base), 4095, recordBytes, _, _, rfl, rfl, by decide +kernel, by decide +kernel⟩⟩

theorem witness_PointTimesAct :
    (∃ (s : State) (p : Fin 4096) (r : PtRun) (e : PathEntry), s.ready.run? p = some r ∧ r.pwait = .time ∧ r.making = true ∧ r.cfg.path[r.step]? = some e ∧ r.step + 1 < r.cfg.path.length) ∧
    (∃ (s : State) (p : Fin 4096) (r : PtRun), s.ready.run? p = some r ∧ s.ready.nat O.ptState p = 2 ∧ r.made = r.cfg.path.length ∧ r.pwait ≠ .latch ∧ r.pwait ≠ .time) ∧
    (∃ (s : State) (p : Fin 4096) (r : PtRun), s.ready.run? p = some r ∧ s.ready.nat O.ptState p = 4 ∧ r.cfg.apStart = 1) ∧
    (∃ (s : State) (p : Fin 4096) (r : PtRun), s.ready.run? p = some r ∧ s.ready.nat O.ptState p = 4 ∧ r.cfg.apStart = 0) ∧
    (∃ (s : State) (p : Fin 4096) (r : PtRun), s.ready.run? p = some r ∧ s.ready.nat O.ptState p = 6 ∧ s.ready.nat O.seqState r.chA = 3) :=
  ⟨⟨(st ((base).setRun 4095 { run0 with pwait := .time, cfg := { run0.cfg with path := [entry0, entry0] } })), 4095, { run0 with pwait := .time, cfg := { run0.cfg with path := [entry0, entry0] } }, entry0, by decide +kernel, by decide +kernel, by decide +kernel, by decide +kernel, by decide +kernel⟩,
    ⟨(st (((base).setRun 4095 { run0 with pwait := .readback }).setN O.ptState 2 4095)), 4095, { run0 with pwait := .readback }, by decide +kernel, by decide +kernel, by decide +kernel, by decide +kernel, by decide +kernel⟩,
    ⟨(st (((base).setRun 4095 { run0 with cfg := { run0.cfg with apStart := 1 } }).setN O.ptState 4 4095)), 4095, { run0 with cfg := { run0.cfg with apStart := 1 } }, by decide +kernel, by decide +kernel, by decide +kernel⟩,
    ⟨(st (((base).setRun 4095 run0).setN O.ptState 4 4095)), 4095, run0, by decide +kernel, by decide +kernel, by decide +kernel⟩,
    ⟨(st ((((base).setRun 4095 run0).setN O.ptState 6 4095).setN O.seqState 3 95)), 4095, run0, by decide +kernel, by decide +kernel, by decide +kernel⟩⟩

theorem witness_RelayBusActs :
    (∃ (s : State), rbRunning s.ready = true ∧ s.ready.rb.queue = []) ∧
    (∃ (s : State) (r : Nat) (on : Bool) (pt : Option Nat) (q : List RbOp), rbRunning s.ready = true ∧ s.ready.rb.queue = .coil r on pt :: q) ∧
    (∃ (s : State) (x : RbRead) (rest : List RbRead) (f : Nat), s.ready.rb.out = x :: rest ∧ rbReplyOk f x.driver x.tag = true) ∧
    (∃ (s : State) (x : RbRead) (rest : List RbRead), s.ready.rb.out = x :: rest ∧ x.tries < 3) ∧
    (∃ (s : State) (k : Nat) (p : Nat) (t : List (Nat × Nat)), s.ready.rb.reread = (k, p) :: t) ∧
    (∃ (s : State), rbRunning s.ready = true) ∧
    (∃ (s : State), rbRunning s.ready = true ∧ s.ready.nat O.rbAuditMs ≠ 0 ∧ 1 ≤ s.ready.nat O.rbDrivers) :=
  ⟨⟨(st ((((upd base fun x => { x with psc := { x.psc with rb := { ({} : Rb) with slot := 1 } } }).setN O.rbState 2).setN O.rbDrivers 1024).setN O.rbAuditMs 1000)), by decide +kernel, by decide +kernel⟩,
    ⟨(st ((((upd base fun x => { x with psc := { x.psc with rb := { ({} : Rb) with queue := [.coil 16383 true none] } } }).setN O.rbState 2).setN O.rbDrivers 1024).setN O.rbAuditMs 1000)), 16383, true, none, [], by decide +kernel, by decide +kernel⟩,
    ⟨(st ((((upd base fun x => { x with psc := { x.psc with rb := { ({} : Rb) with out := [⟨1023, 63, .start, 2⟩] } } }).setN O.rbState 2).setN O.rbDrivers 1024).setN O.rbAuditMs 1000)), ⟨1023, 63, .start, 2⟩, [], replyFrame, by decide +kernel, by decide +kernel⟩,
    ⟨(st ((((upd base fun x => { x with psc := { x.psc with rb := { ({} : Rb) with out := [⟨1023, 63, .start, 2⟩] } } }).setN O.rbState 2).setN O.rbDrivers 1024).setN O.rbAuditMs 1000)), ⟨1023, 63, .start, 2⟩, [], by decide +kernel, by decide +kernel⟩,
    ⟨(st ((((upd base fun x => { x with psc := { x.psc with rb := { ({} : Rb) with reread := [(1023, 4095)] } } }).setN O.rbState 2).setN O.rbDrivers 1024).setN O.rbAuditMs 1000)), 1023, 4095, [], by decide +kernel⟩,
    ⟨(st ((((upd base fun x => { x with psc := { x.psc with rb := { ({} : Rb) with slot := 1 } } }).setN O.rbState 2).setN O.rbDrivers 1024).setN O.rbAuditMs 1000)), by decide +kernel⟩,
    ⟨(st ((((upd base fun x => { x with psc := { x.psc with rb := { ({} : Rb) with slot := 1 } } }).setN O.rbState 2).setN O.rbDrivers 1024).setN O.rbAuditMs 1000)), by decide +kernel, by decide +kernel, by decide +kernel⟩⟩

theorem witness_RelayCommandsAct :
    (∃ (s : State), rbRunning s.ready = false ∧ s.ready.on O.rbEnable = true ∧ bit (s.ready.nat O.pmuPdState) 14 = true) ∧
    (∃ (s : State), s.takes (part1 O.rbCmd 1) ∧ rbCmdRefused s.ready = false ∧ s.ready.rb.orphans = []) ∧
    (∃ (s : State) (k : Nat), s.takes (part1 O.rbCmd 1) ∧ rbCmdRefused s.ready = false ∧ s.ready.rb.orphans = [(k, 1)]) ∧
    (∃ (s : State), s.takes (part1 O.rbCmd 2) ∧ rbCmdRefused s.ready = false) ∧
    (∃ (s : State) (r : Fin 16384), s.takes (part1 O.rbCountClear r)) :=
  ⟨⟨(st (base.setN O.rbEnable 1)), by decide +kernel, by decide +kernel, by decide +kernel⟩,
    ⟨(st ((((upd base fun x => { x with psc := { x.psc with rb := { ({} : Rb) with slot := 1 } } }).setN O.rbState 2).setN O.rbDrivers 1024).setN O.rbAuditMs 1000)), by decide +kernel, by decide +kernel, by decide +kernel⟩,
    ⟨(st ((((upd base fun x => { x with psc := { x.psc with rb := { ({} : Rb) with orphans := [(1023, 1)] } } }).setN O.rbState 2).setN O.rbDrivers 1024).setN O.rbAuditMs 1000)), 1023, by decide +kernel, by decide +kernel, by decide +kernel⟩,
    ⟨(st ((((upd base fun x => { x with psc := { x.psc with rb := { ({} : Rb) with slot := 1 } } }).setN O.rbState 2).setN O.rbDrivers 1024).setN O.rbAuditMs 1000)), by decide +kernel, by decide +kernel⟩,
    ⟨(st base), 16383, by decide +kernel⟩⟩

theorem witness_ScansAct :
    (∃ (s : State) (n : Fin 256), s.takes (part1 O.scanCmd 1 n) ∧ s.ready.nat O.scanState n = 0 ∧ s.ready.nat O.scanSrc n = 0) ∧
    (∃ (s : State) (n : Fin 256), s.takes (part1 O.scanCmd 2 n) ∧ s.ready.nat O.scanState n = 1 ∧ s.ready.nat O.scanSrc n = 0 ∧ pscSuspended s.ready = false ∧ (s.ready.scan n).pending = none ∧ 0 ≤ s.ready.int O.scanLateTol n) ∧
    (∃ (s : State) (n : Fin 256), s.takes (part1 O.scanCmd 3 n) ∧ s.ready.nat O.scanState n = 2) ∧
    (∃ (s : State) (n : Fin 256) (t : Int), (s.ready.scan n).gridNext = some t ∧ s.ready.nat O.scanSrc n = 1 ∧ s.ready.nat O.scanState n = 1) ∧
    (∃ (s : State) (n : Fin 256), s.ready.nat O.scanState n = 2 ∧ (s.ready.scan n).delaying = false ∧ (((s.ready.scan n).group.all fun p => s.ready.nat O.ptState p == 0) = true)) ∧
    (∃ (s : State) (n : Fin 256), s.ready.nat O.scanState n = 2 ∧ (s.ready.scan n).delaying = true) :=
  ⟨⟨(st base), 255, by decide +kernel, by decide +kernel, by decide +kernel⟩,
    ⟨(st (base.setN O.scanState 1 255)), 255, by decide +kernel, by decide +kernel, by decide +kernel, by decide +kernel, by decide +kernel, by decide +kernel⟩,
    ⟨(st (base.setN O.scanState 2 255)), 255, by decide +kernel, by decide +kernel⟩,
    ⟨(st (((base.setN O.scanSrc 1 255).setN O.scanState 1 255).setScan 255 { ({} : ScanRun) with gridNext := some 7 })), 255, 7, by decide +kernel, by decide +kernel, by decide +kernel⟩,
    ⟨(st ((base.setN O.scanState 2 255).setScan 255 { ({} : ScanRun) with group := [4095] })), 255, by decide +kernel, by decide +kernel, by decide +kernel⟩,
    ⟨(st ((base.setN O.scanState 2 255).setScan 255 { ({} : ScanRun) with delaying := true })), 255, by decide +kernel, by decide +kernel⟩⟩

theorem witness_CycleTimeBaseActs :
    (∃ (s : State) (value : Nat), (Instr.ctbSourceChange .src value).wellFormed = true ∧ s.takes (part1 O.ctbSrc value)) ∧
    (∃ (s : State) (value : Nat), (Instr.ctbSourceChange .tin value).wellFormed = true ∧ s.takes (part1 O.ctbTin value) ∧ (s.ready.nat O.ctbSrc = 1 ∨ s.ready.nat O.ctbSrc = 3)) ∧
    (∃ (s : State), s.takes (part1 O.ctbCmd 1)) ∧
    (∃ (s : State) (tick : Fin 250) (now : Nat) (d : Dev), ctbOn s.ready = true ∧ (s.ready.nat O.ctbSrc = 1 ∨ s.ready.nat O.ctbSrc = 3) ∧ (d = (ctbTo s.ready tick).onCtb (fun c => { c with monFound := none })) ∧ now = absTick (ctbTo s.ready tick) (ctbTo s.ready tick).ctb.tick ∧ (ctbState d = csLocked ∨ ctbState d = csCoasting)) ∧
    (∃ (s : State) (tick : Fin 250) (now : Nat) (d : Dev), ctbOn s.ready = true ∧ (s.ready.nat O.ctbSrc = 1 ∨ s.ready.nat O.ctbSrc = 3) ∧ (d = (ctbTo s.ready tick).onCtb (fun c => { c with monFound := none })) ∧ now = absTick (ctbTo s.ready tick) (ctbTo s.ready tick).ctb.tick ∧ ctbState d = csAcquire ∧ d.coasting = false) ∧
    (∃ (s : State) (tick : Fin 250) (now : Nat) (d : Dev), ctbOn s.ready = true ∧ (s.ready.nat O.ctbSrc = 1 ∨ s.ready.nat O.ctbSrc = 3) ∧ (d = (ctbTo s.ready tick).onCtb (fun c => { c with monFound := none })) ∧ now = absTick (ctbTo s.ready tick) (ctbTo s.ready tick).ctb.tick ∧ ctbState d = csStall) ∧
    (∃ (s : State), ctbOn s.ready = true ∧ ctbState s.ready = csLocked) ∧
    (∃ (s : State), ctbOn s.ready = true ∧ ctbState s.ready = csCoasting) ∧
    (∃ (s : State) (tick : Fin 250) (a : Bool) (b : Bool), ctbOn s.ready = true ∧ s.ready.nat O.ctbSrc = 4 ∧ (ctbTo s.ready tick).ctb.encA = !a ∧ (ctbTo s.ready tick).ctb.encB = !b) ∧
    (∃ (s : State), ctbState s.ready = csOff) :=
  ⟨⟨(st base), 4, by decide +kernel, by decide +kernel⟩,
    ⟨(st (base.setN O.ctbSrc 1)), 5, by decide +kernel, by decide +kernel, by decide +kernel⟩,
    ⟨(st (base.setN O.ctbState 2)), by decide +kernel⟩,
    ⟨(st (upd ((base.setN O.ctbState 2).setN O.ctbSrc 1) fun x => { x with ctb := { x.ctb with next := 2 ^ 100 } })), 249, _, _, by decide +kernel, by decide +kernel, rfl, rfl, by decide +kernel⟩,
    ⟨(st (upd ((base.setN O.ctbState 1).setN O.ctbSrc 1) fun x => { x with ctb := { x.ctb with next := 2 ^ 100 } })), 249, _, _, by decide +kernel, by decide +kernel, rfl, rfl, by decide +kernel, by decide +kernel⟩,
    ⟨(st (upd ((base.setN O.ctbState 4).setN O.ctbSrc 1) fun x => { x with ctb := { x.ctb with next := 2 ^ 100 } })), 249, _, _, by decide +kernel, by decide +kernel, rfl, rfl, by decide +kernel⟩,
    ⟨(st (base.setN O.ctbState 2)), by decide +kernel, by decide +kernel⟩,
    ⟨(st (base.setN O.ctbState 3)), by decide +kernel, by decide +kernel⟩,
    ⟨(st (base.setN O.ctbSrc 4)), 249, true, true, by decide +kernel, by decide +kernel, by decide +kernel, by decide +kernel⟩,
    ⟨(st base), by decide +kernel⟩⟩

theorem witness_TimeOfDaySourcesAct :
    (∃ (s : State) (k : Fin 4) (d : Dev), k.val ≠ 0 ∧ s.ready.nat O.todSrc = k ∧ (d = (s.ready.onTod fun t => { t with srcs := t.srcs.setIfInBounds k.val {} }).setN O.todQual (clrBit (s.ready.nat O.todQual) k)) ∧ bestSource d = none) ∧
    (∃ (s : State) (k : Fin 4), srcQualified s.ready k = true ∧ k.val ≠ 0 ∧ s.ready.nat O.todSrc ≠ 0 ∧ srcRank s.ready k < srcRank s.ready (s.ready.nat O.todSrc) ∧ todSelects s.ready = true) ∧
    (∃ (s : State), todState s.ready = tsHoldover) ∧
    (∃ (s : State) (th : Int), s.ready.tod.step = some th ∧ s.ready.tod.write = none) ∧
    (∃ (s : State) (v : Int), s.ready.tod.write = some v) ∧
    (∃ (s : State), todState s.ready = tsLocked ∧ todState s.ready = 3) :=
  ⟨⟨(st (base.setN O.todSrc 3)), 3, _, by decide +kernel, by decide +kernel, rfl, by decide +kernel⟩,
    ⟨(st (((base.setN O.todQual 14).setN O.todSrc 3).setN O.todSrcOrder 0x123)), 1, by decide +kernel, by decide +kernel, by decide +kernel, by decide +kernel, by decide +kernel⟩,
    ⟨(st (base.setN O.todState 4)), by decide +kernel⟩,
    ⟨(st (upd base fun x => { x with tod := { x.tod with step := some 7 } })), 7, by decide +kernel, by decide +kernel⟩,
    ⟨(st (upd base fun x => { x with tod := { x.tod with write := some 7 } })), 7, by decide +kernel⟩,
    ⟨(st (base.setN O.todState 3)), by decide +kernel, by decide +kernel⟩⟩

theorem witness_TimeOfDayIsSet :
    (∃ (s : State) (value : Int), (Instr.todSet value).wellFormed = true ∧ s.takes (part1 O.todSet value) ∧ todState s.ready ≠ tsLocked ∧ timeValid value = true ∧ s.ready.nat O.todSetMode ≠ 0) ∧
    (∃ (s : State) (b : Bytes) (t : Int), s.takes ⟨0, ⟨O.todCalSet, 0, 0⟩, b, none⟩ ∧ writeLength s.ready ⟨O.todCalSet, 0, 0⟩ none b = true ∧ b.length = 16 ∧ allZero (slice b 12 4) = true ∧ todState s.ready ≠ tsLocked ∧ calendarValue s.ready b = some t) ∧
    (∃ (s : State), s.takes (part1 O.todCmd 1)) ∧
    (∃ (s : State) (value : Int), (Instr.utcOffsetWrite value).wellFormed = true ∧ s.takes (part1 O.todUtcOffset value)) ∧
    (∃ (s : State) (field : LeapField) (value : Int), (Instr.leapSchedule field value).wellFormed = true ∧ s.takes (part1 (leapObj field) value)) ∧
    (∃ (s : State), leapAt s.ready ≠ 0) :=
  ⟨⟨(st (base.setN O.todSetMode 1)), (106651 * 86400 * 1000000000 - 1), by decide +kernel, by decide +kernel, by decide +kernel, by decide +kernel, by decide +kernel⟩,
    ⟨(st (base.setN O.todSetMode 1)), [0xD0, 7, 1, 1, 0, 0, 0, 1, 0, 0, 0, 0, 0, 0, 0, 0], 0, by decide +kernel, by decide +kernel, by decide +kernel, by decide +kernel, by decide +kernel, by decide +kernel⟩,
    ⟨(st base), by decide +kernel⟩,
    ⟨(st base), 37, by decide +kernel, by decide +kernel⟩,
    ⟨(st base), .instant, 0, by decide +kernel, by decide +kernel⟩,
    ⟨(st (base.setN O.todLeapAt 946684800)), by decide +kernel⟩⟩

theorem witness_PtpAndSamplesAct :
    (∃ (s : State) (sec : Nat) (ns : Nat) (t : Int), s.ready.coasting = false ∧ sampleOffset s.ready (.ptp sec ns t) = (none, false)) ∧
    (∃ (s : State) (p : Fin 2) (b : Bytes), ptpRuns s.ready p = true ∧ ptpTaken s.ready b = true ∧ beField b 0 1 % 16 = 0 ∧ fromMaster s.ready b = true ∧ 44 ≤ b.length ∧ bit (beField b 6 1) 1 = false) ∧
    (∃ (s : State) (p : Fin 2) (b : Bytes), ptpRuns s.ready p = true ∧ ptpTaken s.ready b = true ∧ beField b 0 1 % 16 = 1 ∧ 44 ≤ b.length) ∧
    (∃ (s : State), ptpState s.ready = psMaster ∧ ptpState s.ready = 4) ∧
    (∃ (s : State), s.ready.nat O.netPtpPort = 2 ∧ s.ready.nat O.netPtpState ≠ 0 ∧ s.ready.net.ptp.port = 0 ∧ linkUp s.ready 0 = false) :=
  ⟨⟨(st base), (946684800 - 1), 0, 0, by decide +kernel, by decide +kernel⟩,
    ⟨(st (upd (base.setN O.netPtpState 3) fun x => { x with net := { x.net with ptp := { ({} : Ptp) with master := some ⟨0, 0, 0, 128, 6, 254, 0xFFFF, 128, 0, 0, none, 0, false⟩ } } })), 0, [0, 2, 0, 44] ++ List.replicate 40 0, by decide +kernel, by decide +kernel, by decide +kernel, by decide +kernel, by decide +kernel, by decide +kernel⟩,
    ⟨(st (base.setN O.netPtpState 4)), 0, [1, 2, 0, 44] ++ List.replicate 40 0, by decide +kernel, by decide +kernel, by decide +kernel, by decide +kernel⟩,
    ⟨(st (base.setN O.netPtpState 4)), by decide +kernel, by decide +kernel⟩,
    ⟨(st ((base.setN O.netPtpState 3).setN O.netPtpPort 2)), by decide +kernel, by decide +kernel, by decide +kernel, by decide +kernel⟩⟩

theorem witness_TimingInputsAct :
    (∃ (s : State) (uv : List Int) (tick : Fin 250) (n : Nat), n = absTick s.ready tick ∧ uv.length = 1) ∧
    (∃ (k : Fin 8) (d : Dev) (uv : Int) (x : Tin), x = ((d.tin k).clock ((d.tin k).last + 1) uv (comparator (d.nat O.tiuInThresh k) (d.nat O.tiuInHyst k) uv (d.tin k).cmp)).sample ∧ ((d.tin k).last + 1 + 4 * (d.up / 2)) % 5 = 0 ∧ d.on O.tiuInLevel k = !x.level) ∧
    (∃ (k : Fin 8) (rising : Bool) (stop : Nat) (code : Nat) (stamp : Int) (e : Dev) (d : Dev), k.val < 6 ∧ (e.setB O.tiuInLevel rising k).nat O.tiuInState k = 0 ∧ d = forUpto 8 (tdcEdge k rising stamp stop code) (e.setB O.tiuInLevel rising k) ∧ d.nat O.tiuInSlope k = 2) ∧
    (∃ (s : State) (k : Fin 8), tiuOn s.ready = true ∧ s.ready.nat O.tiuInState k ≠ 1) ∧
    (∃ (s : State) (k : Fin 8), s.ready.nat O.tiuInState k = 1) ∧
    (∃ (s : State) (k : Fin 8), tiuOn s.ready = true ∧ s.ready.nat O.tiuInStuck k ≠ 0 ∧ s.ready.nat O.tiuInState k = 0 ∧ tinActive s.ready k) ∧
    (∃ (s : State) (k : Fin 8), s.ready.nat O.tiuInLatchClr k = 1 ∧ k.val < 6) ∧
    (∃ (s : State) (k : Fin 8), s.takes (part1 O.tiuInCmd 1 k) ∧ k.val < 6) ∧
    (∃ (s : State) (k : Fin 8) (field : TinField) (value : Nat), (Instr.tinConfigWrite k field value).wellFormed = true ∧ s.takes (part1 (tinObj field) value k)) :=
  ⟨⟨(st base), [3300000], 249, _, rfl, by decide⟩,
    ⟨7, ((upd base fun x => x.setTin 7 { ({} : Tin) with first := true, taps := [true, true, false, false, false], last := 4 })), 0, _, rfl, by decide +kernel, by decide +kernel⟩,
    ⟨5, true, 0, 0, 0, ((upd base fun x => x.setN O.tiuInSlope 2 5)), _, by decide +kernel, by decide +kernel, rfl, by decide +kernel⟩,
    ⟨(st base), 7, by decide +kernel, by decide +kernel⟩,
    ⟨(st (base.setN O.tiuInState 1 7)), 7, by decide +kernel⟩,
    ⟨(st ((base.setN O.tiuInStuck 1000 7).setN O.tiuInSlope 2 7)), 7, by decide +kernel, by decide +kernel, by decide +kernel, by decide +kernel⟩,
    ⟨(st (base.setN O.tiuInLatchClr 1 5)), 5, by decide +kernel, by decide +kernel⟩,
    ⟨(st base), 5, by decide +kernel, by decide +kernel⟩,
    ⟨(st base), 7, .thresh, 0, by decide +kernel, by decide +kernel⟩⟩

theorem witness_TimeMeasurementsAct :
    (∃ (s : State) (k : Fin 8), s.takes (part1 O.tiuMCmd 1 k) ∧ tinHeld s.ready k = false ∧ tdcBusy s.ready k = false) ∧
    (∃ (s : State) (k : Fin 8), s.takes (part1 O.tiuMCmd 2 k) ∧ tinHeld s.ready k = false) ∧
    (∃ (s : State) (k : Fin 8) (k1 : Nat) (k2 : Nat), s.ready.nat O.tiuMState k = 1 ∧ k1 + 6144 ≤ k2 ∧ k2 ≤ k1 + 10240) ∧
    (∃ (s : State) (k : Fin 8) (k1 : Nat) (k2 : Nat), s.ready.nat O.tiuMState k = 1 ∧ k2 < k1 + 6144) ∧
    (∃ (s : State) (k : Fin 8), (s.ready.nat O.tiuMState k = 2 ∨ s.ready.nat O.tiuMState k = 3)) ∧
    (∃ (s : State) (k : Fin 8), s.ready.nat O.tiuMState k = 3 ∧ s.ready.nat O.tiuMMode k = 2 ∧ (s.ready.tdc k).seen < 2) ∧
    (∃ (s : State) (k : Fin 8), s.ready.nat O.tiuMState k = 3 ∧ s.ready.nat O.tiuMMode k = 2 ∧ 2 ≤ (s.ready.tdc k).seen) ∧
    (∃ (s : State) (k : Fin 8), s.ready.nat O.tiuMGate k = 1 ∧ tdcBusy s.ready k = false) ∧
    (∃ (s : State) (k : Fin 8), s.ready.nat O.tiuMGate k = 1 ∧ tdcBusy s.ready k = true) :=
  ⟨⟨(st base), 7, by decide +kernel, by decide +kernel, by decide +kernel⟩,
    ⟨(st base), 7, by decide +kernel, by decide +kernel⟩,
    ⟨(st (base.setN O.tiuMState 1 7)), 7, 0, 10240, by decide +kernel, by decide +kernel, by decide +kernel⟩,
    ⟨(st (base.setN O.tiuMState 1 7)), 7, 0, 6143, by decide +kernel, by decide +kernel⟩,
    ⟨(st (base.setN O.tiuMState 3 7)), 7, by decide +kernel⟩,
    ⟨(st (((base.setN O.tiuMState 3 7).setN O.tiuMMode 2 7).setTdc 7 { ({} : Tdc) with seen := 1 })), 7, by decide +kernel, by decide +kernel, by decide +kernel⟩,
    ⟨(st (((base.setN O.tiuMState 3 7).setN O.tiuMMode 2 7).setTdc 7 { ({} : Tdc) with seen := 2 })), 7, by decide +kernel, by decide +kernel, by decide +kernel⟩,
    ⟨(st (base.setN O.tiuMGate 1 7)), 7, by decide +kernel, by decide +kernel⟩,
    ⟨(st ((base.setN O.tiuMGate 1 7).setN O.tiuMState 3 7)), 7, by decide +kernel, by decide +kernel⟩⟩

theorem witness_EventRoutingActs :
    (∃ (s : State) (c : Fin 50), ermOn s.ready = true ∧ c.val = 49) ∧
    (∃ (s : State) (k : Fin 8), s.takes (part1 O.ermSoft (2 ^ k.val : Nat))) ∧
    (∃ (s : State) (c : Fin 192) (value : Nat), (Instr.selectorWrite c value).wellFormed = true ∧ s.takes (part1 O.ermInSel value 0 c) ∧ value ≠ s.ready.nat O.ermInSel 0 c) ∧
    (∃ (s : State) (k : Fin 32) (field : LutField) (value : Nat), (Instr.lutModeWrite k field value).wellFormed = true ∧ s.takes (part1 (lutObj field) value k)) ∧
    (∃ (s : State) (p : Fin 16), bit s.ready.erm.pulse p = true ∧ s.ready.nat O.ermEvioOutMode p = 1) ∧
    (∃ (s : State) (t : Int) (v : Nat), ermOn s.ready = true ∧ s.ready.erm.termLog.getLast? = some (t, v) ∧ s.ready.erm.terms ≠ v) ∧
    (∃ (s : State) (t : Int) (v : Nat) (rest : List (Int × Nat)), hlSynced s.ready = true ∧ s.ready.hl.breaking = false ∧ s.ready.hl.missing = none ∧ s.ready.erm.samples = (t, v) :: rest) :=
  ⟨⟨(st base), 49, by decide +kernel, by decide +kernel⟩,
    ⟨(st base), 7, by decide +kernel⟩,
    ⟨(st base), 186, 1, by decide +kernel, by decide +kernel, by decide +kernel⟩,
    ⟨(st base), 31, .ff, 1, by decide +kernel, by decide +kernel⟩,
    ⟨(st (upd (base.setN O.ermEvioOutMode 1 15) fun x => { x with erm := { x.erm with pulse := 32768 } })), 15, by decide +kernel, by decide +kernel⟩,
    ⟨(st (upd base fun x => { x with erm := { x.erm with termLog := [(7, 0x7FFF)] } })), 7, 0x7FFF, by decide +kernel, by decide +kernel, by decide +kernel⟩,
    ⟨(st (upd (base.setN O.hlState 4) fun x => { x with erm := { x.erm with samples := [(7, 0x7FFF)] } })), 7, 0x7FFF, [], by decide +kernel, by decide +kernel, by decide +kernel, by decide +kernel⟩⟩

theorem witness_ConsumerEdgesAct :
    (∃ (s : State) (n : Fin 96), chBound s.ready n = false ∧ s.ready.nat O.chApStart n = 1 ∧ apState (s.ready.chan n) = 0 ∧ apStartRefused s.ready n = false) ∧
    (∃ (s : State) (n : Fin 96), chBound s.ready n = false ∧ s.ready.nat O.chApStart n = 1 ∧ apState (s.ready.chan n) ≠ 0) ∧
    (∃ (s : State) (n : Fin 12), s.ready.nat O.chTraceTrigSrc (8 * n) = 1 ∧ s.ready.nat O.chTraceState (8 * n) = 2) ∧
    (∃ (s : State) (k : Fin 2), s.ready.nat O.samState k ≠ 0 ∧ (s.ready.conv k).urgent = [] ∧ (s.ready.conv k).pos = 0) ∧
    (∃ (s : State) (k : Fin 4), axdOn s.ready = true ∧ s.ready.nat O.axdStart k = 1 ∧ s.ready.nat O.axdState k = 1) ∧
    (∃ (s : State) (k : Fin 4), axdOn s.ready = true ∧ s.ready.nat O.axdState k = 2 ∧ s.ready.nat O.axdMode k = 3 ∧ s.ready.nat O.axdFill k ≠ 0) ∧
    (∃ (s : State), s.ready.erm.mark = none ∧ stagingRoom s.ready.jrn.staging false = true) :=
  ⟨⟨(st ((base.setN O.laneState 4 11).setN O.chApStart 1 95)), 95, by decide +kernel, by decide +kernel, by decide +kernel, by decide +kernel⟩,
    ⟨(st ((base.setN O.chApStart 1 95).setChan 95 { ({} : Chan) with ap := { ({} : ApSeq) with running := true } })), 95, by decide +kernel, by decide +kernel, by decide +kernel⟩,
    ⟨(st ((base.setN O.chTraceTrigSrc 1 88).setN O.chTraceState 2 88)), 11, by decide +kernel, by decide +kernel⟩,
    ⟨(st (base.setN O.samState 1 1)), 1, by decide +kernel, by decide +kernel, by decide +kernel⟩,
    ⟨(st ((base.setN O.axdStart 1 3).setN O.axdState 1 3)), 3, by decide +kernel, by decide +kernel, by decide +kernel⟩,
    ⟨(st (((base.setN O.axdState 2 3).setN O.axdMode 3 3).setN O.axdFill 256 3)), 3, by decide +kernel, by decide +kernel, by decide +kernel, by decide +kernel⟩,
    ⟨(st base), by decide +kernel, by decide +kernel⟩⟩

theorem witness_ConvertersAct :
    (∃ (s : State) (k : Fin 2), s.ready.nat O.samState k ≠ 0 ∧ (samSlot s.ready k).entry = none) ∧
    (∃ (s : State) (k : Fin 2), s.takes (part1 O.samCmd 1 k) ∧ s.ready.nat O.samState k ≠ 0) ∧
    (∃ (s : State) (e : Fin 64) (value : Nat), (Instr.samEntryWrite e value).wellFormed = true ∧ s.takes (part1 O.samECfg value e)) ∧
    (∃ (s : State), s.takes (part1 O.samCalCmd 1) ∧ s.ready.nat O.samCalState = 0 ∧ ((∃ e, e < 32 ∧ bit (s.ready.nat O.samECfg (samE (samCalConv s.ready) e)) 31 = true ∧ samCalMatches s.ready (samCalConv s.ready) (s.ready.nat O.samECfg (samE (samCalConv s.ready) e)) = true))) ∧
    (∃ (s : State), s.takes (part1 O.samCalCmd 2) ∧ s.ready.nat O.samCalState = 2) ∧
    (∃ (s : State) (role : Fin 4), s.takesAs role (part1 O.samCalCmd 3) ∧ s.ready.nat O.samCalState = 4 ∧ (s.ready.sam.m1 - s.ready.sam.m0).natAbs < 16384) ∧
    (∃ (s : State), s.takes (part1 O.samCalCmd 4) ∧ 1 ≤ s.ready.nat O.samCalState ∧ s.ready.nat O.samCalState ≤ 4) :=
  ⟨⟨(st (base.setN O.samState 1 1)), 1, by decide +kernel, by decide +kernel⟩,
    ⟨(st (base.setN O.samState 1 1)), 1, by decide +kernel, by decide +kernel⟩,
    ⟨(st base), 63, 0, by decide +kernel, by decide +kernel⟩,
    ⟨(st ((base.setN O.samECfg 0x80000000 31).setN O.samCalTarget 0)), by decide +kernel, by decide +kernel, ⟨31, by decide +kernel⟩⟩,
    ⟨(st (base.setN O.samCalState 2)), by decide +kernel, by decide +kernel⟩,
    ⟨(st (upd (base.setN O.samCalState 4) fun x => { x with sam := { x.sam with m1 := 16383 } })), 2, by decide +kernel, by decide +kernel, by decide +kernel⟩,
    ⟨(st (base.setN O.samCalState 4)), by decide +kernel, by decide +kernel, by decide +kernel⟩⟩

theorem witness_OutputsAct :
    (∃ (s : State) (k : Fin 4), s.takes (part1 O.axdCmd 1 k) ∧ s.ready.nat O.axdMode k ≠ 0 ∧ s.ready.nat O.axdState k = 0) ∧
    (∃ (s : State) (k : Fin 4), s.takes (part1 O.axdCmd 2 k) ∧ s.ready.nat O.axdMode k ≠ 0 ∧ s.ready.nat O.axdState k = 1) ∧
    (∃ (s : State) (k : Fin 4), s.takes (part1 O.axdCmd 3 k)) ∧
    (∃ (s : State) (k : Fin 4), s.takes (part1 O.axdCmd 4 k) ∧ s.ready.nat O.axdMode k = 3 ∧ s.ready.nat O.axdState k = 2) ∧
    (∃ (s : State) (k : Fin 4), s.takes (part1 O.axdCmd 5 k) ∧ s.ready.nat O.axdState k ≠ 2) ∧
    (∃ (s : State) (k : Fin 4) (b : Bytes), s.takes ⟨0, ⟨O.axdPush, k, 0⟩, b, none⟩ ∧ writeLength s.ready ⟨O.axdPush, k, 0⟩ none b = true ∧ 2 ≤ b.length ∧ b.length ≤ 512 ∧ b.length % 2 = 0 ∧ s.ready.nat O.axdState k = 0 ∧ s.ready.nat O.axdFill k + (words16 b).length ≤ 256) ∧
    (∃ (s : State) (k : Fin 4) (b : Bytes), s.takes ⟨0, ⟨O.axdTable, k, 0⟩, b, none⟩ ∧ writeLength s.ready ⟨O.axdTable, k, 0⟩ none b = true ∧ b.length = 512 ∧ s.ready.nat O.axdState k = 0) ∧
    (∃ (s : State) (k : Fin 4) (value : Nat), (Instr.axdLevel k value).wellFormed = true ∧ s.takes (part1 O.axdLevel value k) ∧ (s.ready.setN O.axdLevel value k).nat O.axdMode k = 0 ∧ axdOn s.ready = true) ∧
    (∃ (s : State) (k : Fin 4), s.ready.nat O.axdState k = 2 ∧ s.ready.nat O.axdMode k = 1 ∧ s.ready.nat O.axdFill k = 0) ∧
    (∃ (s : State) (k : Fin 4), s.ready.nat O.axdState k = 2 ∧ s.ready.nat O.axdMode k = 1 ∧ s.ready.nat O.axdFill k ≠ 0) :=
  ⟨⟨(st (base.setN O.axdMode 3 3)), 3, by decide +kernel, by decide +kernel, by decide +kernel⟩,
    ⟨(st ((base.setN O.axdMode 3 3).setN O.axdState 1 3)), 3, by decide +kernel, by decide +kernel, by decide +kernel⟩,
    ⟨(st base), 3, by decide +kernel⟩,
    ⟨(st ((base.setN O.axdMode 3 3).setN O.axdState 2 3)), 3, by decide +kernel, by decide +kernel, by decide +kernel⟩,
    ⟨(st base), 3, by decide +kernel, by decide +kernel⟩,
    ⟨(st base), 3, (List.replicate 512 0), by decide +kernel, by decide +kernel, by decide +kernel, by decide +kernel, by decide +kernel, by decide +kernel, by decide +kernel⟩,
    ⟨(st base), 3, (List.replicate 512 0), by decide +kernel, by decide +kernel, by decide +kernel, by decide +kernel⟩,
    ⟨(st base), 3, 65535, by decide +kernel, by decide +kernel, by decide +kernel, by decide +kernel⟩,
    ⟨(st ((base.setN O.axdMode 1 3).setN O.axdState 2 3)), 3, by decide +kernel, by decide +kernel, by decide +kernel⟩,
    ⟨(st (((base.setN O.axdMode 1 3).setN O.axdState 2 3).setN O.axdFill 256 3)), 3, by decide +kernel, by decide +kernel, by decide +kernel⟩⟩

theorem witness_SessionReadsAct :
    (∃ (s : State) (k : Fin 16) (acked : Nat) (d : Dev) (w : Who) (a : Addr), s.asks k ∧ d = s.heard k acked ∧ w = s.asker k acked ∧ (Instr.read k acked a).wellFormed = true ∧ a.node = d.node ∧ (∃ (t : Nat) (b : Bytes) (e : Dev), readAt s.vault (touchAt d w a.index a.sub) w false a.index a.sub = .ok (t, b, e) ∧ (e.ses k).held = [])) ∧
    (∃ (s : State) (k : Fin 16) (acked : Nat) (d : Dev) (w : Who) (a : Addr), s.asks k ∧ d = s.heard k acked ∧ w = s.asker k acked ∧ (Instr.peek k acked a).wellFormed = true ∧ a.node = d.node ∧ (∃ (t : Nat) (b : Bytes) (e : Dev), readAt s.vault (touchAt d w a.index a.sub) w true a.index a.sub = .ok (t, b, e) ∧ (e.ses k).held = [])) ∧
    (∃ (s : State) (k : Fin 16) (acked : Nat) (d : Dev) (w : Who) (l : List Addr), s.asks k ∧ d = s.heard k acked ∧ w = s.asker k acked ∧ (Instr.readMulti k acked l).wellFormed = true ∧ 1 ≤ l.length ∧ l.length ≤ 32 ∧ ((∀ a ∈ l, a.node = d.node)) ∧ ((readItems s.vault w false l [] d []).2.ses k).held = []) ∧
    (∃ (s : State) (k : Fin 16) (acked : Nat) (d : Dev) (w : Who) (a : Addr) (off : Nat) (len : Nat), s.asks k ∧ d = s.heard k acked ∧ w = s.asker k acked ∧ (Instr.blockRead k acked a off len).wellFormed = true ∧ a.node = d.node ∧ (∃ x, blockRead (touchBlock d w a.index a.sub off len) w a.index a.sub off len = .ok x ∧ True) ∧ ((touchBlock d w a.index a.sub off len).ses k).held = []) ∧
    (∃ (s : State) (k : Fin 16) (acked : Nat) (d : Dev) (w : Who), s.asks k ∧ d = s.heard k acked ∧ w = s.asker k acked) ∧
    (∃ (s : State) (k : Fin 16) (acked : Nat) (d : Dev) (w : Who) (seen : Nat), s.asks k ∧ d = s.heard k acked ∧ w = s.asker k acked ∧ (Instr.replay k acked seen).wellFormed = true ∧ dseqFollows seen (d.nat O.jdpSesDseq k) = false) :=
  ⟨⟨(st (((base.setN O.jdpSesState 2 15).setN O.jdpSesRole 3 15).setN O.jdpSesCseq 0xFFFFFFFE 15)), 15, 0, _, _, ⟨O.devState.idx, O.devState.sub, (st base).ready.node⟩, by decide +kernel, rfl, rfl, by decide +kernel, by decide +kernel, ok_read (by decide +kernel)⟩,
    ⟨(st (((base.setN O.jdpSesState 2 15).setN O.jdpSesRole 3 15).setN O.jdpSesCseq 0xFFFFFFFE 15)), 15, 0, _, _, ⟨O.devState.idx, O.devState.sub, (st base).ready.node⟩, by decide +kernel, rfl, rfl, by decide +kernel, by decide +kernel, ok_read (by decide +kernel)⟩,
    ⟨(st (((base.setN O.jdpSesState 2 15).setN O.jdpSesRole 3 15).setN O.jdpSesCseq 0xFFFFFFFE 15)), 15, 0, _, _, (List.replicate 32 ⟨O.devState.idx, O.devState.sub, (st base).ready.node⟩), by decide +kernel, rfl, rfl, by decide +kernel, by decide +kernel, by decide +kernel, by decide +kernel, by decide +kernel⟩,
    ⟨(st (((base.setN O.jdpSesState 2 15).setN O.jdpSesRole 3 15).setN O.jdpSesCseq 0xFFFFFFFE 15)), 15, 0, _, _, ⟨8976, 4, (st base).ready.node⟩, 0, 1, by decide +kernel, rfl, rfl, by decide +kernel, by decide +kernel, ok_any (by decide +kernel), by decide +kernel⟩,
    ⟨(st (((base.setN O.jdpSesState 2 15).setN O.jdpSesRole 3 15).setN O.jdpSesCseq 0xFFFFFFFE 15)), 15, 0, _, _, by decide +kernel, rfl, rfl⟩,
    ⟨(st (((base.setN O.jdpSesState 2 15).setN O.jdpSesRole 3 15).setN O.jdpSesCseq 0xFFFFFFFE 15)), 15, 0, _, _, 0, by decide +kernel, rfl, rfl, by decide +kernel, by decide +kernel⟩⟩

theorem witness_SessionWritesAct :
    (∃ (s : State) (k : Fin 16) (acked : Nat) (d : Dev) (w : Who) (x : Item) (y : Staged), s.asks k ∧ d = s.heard k acked ∧ w = s.asker k acked ∧ (Instr.write k acked x).wellFormed = true ∧ x.addr.node = d.node ∧ y = ⟨x.addr.index, x.addr.sub, x.typ, none, x.data⟩ ∧ holderLock d k d.node y = none ∧ (∃ (v : Vault) (e : Dev), writeItems s.vault d w [y] = .ok (v, e) ∧ (e.ses k).held = [])) ∧
    (∃ (s : State) (k : Fin 16) (acked : Nat) (d : Dev) (w : Who) (l : List Item) (ys : List Staged), s.asks k ∧ d = s.heard k acked ∧ w = s.asker k acked ∧ (Instr.writeMulti k acked l).wellFormed = true ∧ 1 ≤ l.length ∧ l.length ≤ 32 ∧ ((∀ x ∈ l, x.addr.node = d.node)) ∧ (ys = l.map (fun x => ⟨x.addr.index, x.addr.sub, x.typ, none, x.data⟩)) ∧ ((∀ y ∈ ys, holderLock d k d.node y = none)) ∧ (∃ (v : Vault) (e : Dev), writeItems s.vault d w ys = .ok (v, e) ∧ (e.ses k).held = [])) ∧
    (∃ (s : State) (k : Fin 16) (acked : Nat) (d : Dev) (w : Who) (a : Addr) (l : Loc) (b : Bytes), s.asks k ∧ d = s.heard k acked ∧ w = s.asker k acked ∧ (Instr.blockWrite k acked a 0 b).wellFormed = true ∧ a.node = d.node ∧ lookup a.index a.sub = some l ∧ l.o.acc ≠ .ro ∧ l.o.acc ≠ .const ∧ writeRole w l ≤ w.role ∧ l.o.ty = .domain ∧ partialObj l.o = false) ∧
    (∃ (s : State) (k : Fin 16) (acked : Nat) (d : Dev) (w : Who) (a : Addr) (l : Loc) (b : Bytes) (y : Staged), s.asks k ∧ d = s.heard k acked ∧ w = s.asker k acked ∧ (Instr.blockWriteLast k acked a 0 b).wellFormed = true ∧ a.node = d.node ∧ lookup a.index a.sub = some l ∧ l.o.acc ≠ .ro ∧ l.o.acc ≠ .const ∧ writeRole w l ≤ w.role ∧ l.o.ty = .domain ∧ partialObj l.o = false ∧ y = ⟨a.index, a.sub, tyCode .domain, none, b⟩ ∧ holderLock d k d.node y = none ∧ (∃ (v : Vault) (e : Dev), writeItems s.vault (d.onSes k fun x => { x with block := none }) w [y] = .ok (v, e) ∧ (e.ses k).held = [])) :=
  ⟨⟨(st (((base.setN O.jdpSesState 2 15).setN O.jdpSesRole 3 15).setN O.jdpSesCseq 0xFFFFFFFE 15)), 15, 0, _, _, ⟨⟨O.laneDiv.idx + 176, O.laneDiv.sub, (st base).ready.node⟩, tyCode .u16, [2, 0]⟩, _, by decide +kernel, rfl, rfl, by decide +kernel, by decide +kernel, rfl, by decide +kernel, ok_write (by decide +kernel)⟩,
    ⟨(st (((base.setN O.jdpSesState 2 15).setN O.jdpSesRole 3 15).setN O.jdpSesCseq 0xFFFFFFFE 15)), 15, 0, _, _, [⟨⟨O.laneDiv.idx + 176, O.laneDiv.sub, (st base).ready.node⟩, tyCode .u16, [2, 0]⟩], _, by decide +kernel, rfl, rfl, by decide +kernel, by decide +kernel, by decide +kernel, by decide +kernel, rfl, by decide +kernel, ok_write (by decide +kernel)⟩,
    ⟨(st (((base.setN O.jdpSesState 2 15).setN O.jdpSesRole 3 15).setN O.jdpSesCseq 0xFFFFFFFE 15)), 15, 0, _, _, ⟨O.chRepData.idx + 1520, O.chRepData.sub, (st base).ready.node⟩, ⟨O.chRepData, 95, 0⟩, [], by decide +kernel, rfl, rfl, by decide +kernel, by decide +kernel, by decide +kernel, by decide +kernel, by decide +kernel, by decide +kernel, by decide +kernel, by decide +kernel⟩,
    ⟨(st (((base.setN O.jdpSesState 2 15).setN O.jdpSesRole 3 15).setN O.jdpSesCseq 0xFFFFFFFE 15)), 15, 0, _, _, ⟨O.axdTable.idx + 3, O.axdTable.sub, (st base).ready.node⟩, ⟨O.axdTable, 3, 0⟩, (List.replicate 512 0), _, by decide +kernel, rfl, rfl, by decide +kernel, by decide +kernel, by decide +kernel, by decide +kernel, by decide +kernel, by decide +kernel, by decide +kernel, by decide +kernel, rfl, by decide +kernel, ok_write (by decide +kernel)⟩⟩

theorem witness_SessionLocksAct :
    (∃ (s : State) (k : Fin 16) (acked : Nat) (d : Dev) (w : Who) (lease : Nat) (l : List (Nat × Nat)), s.asks k ∧ d = s.heard k acked ∧ w = s.asker k acked ∧ (Instr.lock k acked d.node lease l).wellFormed = true ∧ 1 ≤ l.length ∧ l.length ≤ 8 ∧ 1 ≤ w.role ∧ lockCode d k d.node lease l = none) ∧
    (∃ (s : State) (k : Fin 16) (acked : Nat) (d : Dev) (w : Who) (handle : Nat) (lease : Nat) (j : Nat), s.asks k ∧ d = s.heard k acked ∧ w = s.asker k acked ∧ (Instr.renew k acked handle lease).wellFormed = true ∧ namedLock d k handle = .ok j ∧ leaseOk lease = true ∧ lockFar d j = none) ∧
    (∃ (s : State) (k : Fin 16) (acked : Nat) (d : Dev) (w : Who) (handle : Nat) (j : Nat), s.asks k ∧ d = s.heard k acked ∧ w = s.asker k acked ∧ (Instr.release k acked handle).wellFormed = true ∧ handle ≠ 0xFFFF ∧ namedLock d k handle = .ok j) ∧
    (∃ (s : State) (k : Fin 16) (acked : Nat) (d : Dev) (w : Who) (handle : Nat) (j : Nat), s.asks k ∧ d = s.heard k acked ∧ w = s.asker k acked ∧ (Instr.commit k acked handle false).wellFormed = true ∧ namedLock d k handle = .ok j ∧ lockFar d j = none ∧ (∃ (v : Vault) (e : Dev), writeItems s.vault d w (d.lock j).staged = .ok (v, e) ∧ (e.ses k).held = [])) ∧
    (∃ (s : State) (k : Fin 16) (acked : Nat) (d : Dev) (w : Who) (handle : Nat) (j : Nat), s.asks k ∧ d = s.heard k acked ∧ w = s.asker k acked ∧ (Instr.commit k acked handle true).wellFormed = true ∧ namedLock d k handle = .ok j ∧ lockFar d j = none ∧ (∃ (v : Vault) (e : Dev), writeItems s.vault d w (d.lock j).staged = .ok (v, e) ∧ (e.ses k).held = [])) ∧
    (∃ (s : State) (k : Fin 16) (acked : Nat) (d : Dev) (w : Who) (kind : Nat) (a : Addr) (u : Sub), s.asks k ∧ d = s.heard k acked ∧ w = s.asker k acked ∧ (Instr.subscribe k acked 1 kind a).wellFormed = true ∧ a.node = d.node ∧ kind ≤ 4 ∧ u = subOf kind a.node a.index a.sub ∧ subCode w u = none ∧ (d.ses k).subs.contains u = false ∧ (d.ses k).subs.length < 48) :=
  ⟨⟨(st (((base.setN O.jdpSesState 2 15).setN O.jdpSesRole 3 15).setN O.jdpSesCseq 0xFFFFFFFE 15)), 15, 0, _, _, 60000, [(0x2700, 0x27FF)], by decide +kernel, rfl, rfl, by decide +kernel, by decide +kernel, by decide +kernel, by decide +kernel, by decide +kernel⟩,
    ⟨(st ((((((upd (((base.setN O.jdpSesState 2 15).setN O.jdpSesRole 3 15).setN O.jdpSesCseq 0xFFFFFFFE 15) fun x => { x with jdp := { x.jdp with lastHandle := 7 } }).setLock 31 { ({} : LockSt) with expiry := 2 ^ 40 }).setN O.jdpLockOwner 15 31).setN O.jdpLockHandle 7 31)).setN O.jdpLockNode (st base).ready.node 31)), 15, 0, _, _, 7, 60000, 31, by decide +kernel, rfl, rfl, by decide +kernel, ok_is (by decide +kernel), by decide +kernel, by decide +kernel⟩,
    ⟨(st ((((((upd (((base.setN O.jdpSesState 2 15).setN O.jdpSesRole 3 15).setN O.jdpSesCseq 0xFFFFFFFE 15) fun x => { x with jdp := { x.jdp with lastHandle := 7 } }).setLock 31 { ({} : LockSt) with expiry := 2 ^ 40 }).setN O.jdpLockOwner 15 31).setN O.jdpLockHandle 7 31)).setN O.jdpLockNode (st base).ready.node 31)), 15, 0, _, _, 7, 31, by decide +kernel, rfl, rfl, by decide +kernel, by decide +kernel, ok_is (by decide +kernel)⟩,
    ⟨(st ((((((upd (((base.setN O.jdpSesState 2 15).setN O.jdpSesRole 3 15).setN O.jdpSesCseq 0xFFFFFFFE 15) fun x => { x with jdp := { x.jdp with lastHandle := 7 } }).setLock 31 { ({} : LockSt) with expiry := 2 ^ 40 }).setN O.jdpLockOwner 15 31).setN O.jdpLockHandle 7 31)).setN O.jdpLockNode (st base).ready.node 31)), 15, 0, _, _, 7, 31, by decide +kernel, rfl, rfl, by decide +kernel, ok_is (by decide +kernel), by decide +kernel, ok_write (by decide +kernel)⟩,
    ⟨(st ((((((upd (((base.setN O.jdpSesState 2 15).setN O.jdpSesRole 3 15).setN O.jdpSesCseq 0xFFFFFFFE 15) fun x => { x with jdp := { x.jdp with lastHandle := 7 } }).setLock 31 { ({} : LockSt) with expiry := 2 ^ 40 }).setN O.jdpLockOwner 15 31).setN O.jdpLockHandle 7 31)).setN O.jdpLockNode (st base).ready.node 31)), 15, 0, _, _, 7, 31, by decide +kernel, rfl, rfl, by decide +kernel, ok_is (by decide +kernel), by decide +kernel, ok_write (by decide +kernel)⟩,
    ⟨(st (((base.setN O.jdpSesState 2 15).setN O.jdpSesRole 3 15).setN O.jdpSesCseq 0xFFFFFFFE 15)), 15, 0, _, _, 4, ⟨O.devState.idx, O.devState.sub, (st base).ready.node⟩, _, by decide +kernel, rfl, rfl, by decide +kernel, by decide +kernel, by decide +kernel, rfl, by decide +kernel, by decide +kernel, by decide +kernel⟩⟩

theorem witness_SessionsOpenAndEnd :
    (∃ (s : State) (binding : Nat) (src : Nat) (key : Fin 16) (role : Fin 4) (timeout : Nat) (nonce : Bytes) (rk : RoleKey) (j : Nat), (Instr.openSession binding src key role timeout nonce).wellFormed = true ∧ served s.ready binding = true ∧ s.vault.key key = some rk ∧ s.ready.jdp.openNonces.contains nonce = false ∧ s.ready.ringMember = false ∧ role.val ≤ roleNum rk.role ∧ s.ready.on O.secRngState = false ∧ freeSlot s.ready role = some j) ∧
    (∃ (s : State) (k : Fin 16) (src : Nat) (key : Fin 16) (seen : Nat) (timeout : Nat) (nonce : Bytes) (rk : RoleKey), (Instr.rejoin k src key seen timeout nonce).wellFormed = true ∧ s.ready.sesOpen k = true ∧ sessionOf s.ready (s.ready.nat O.jdpSesId k) = some k.val ∧ served s.ready (sesBinding s.ready k) = true ∧ s.ready.nat O.jdpSesId k < 65536 ∧ sesRole s.ready k < 256 ∧ s.vault.key key = some rk ∧ (s.ready.ses k).nonces.contains nonce = false ∧ s.ready.ringMember = false ∧ sesRole s.ready k ≤ roleNum rk.role ∧ s.ready.on O.secRngState = false ∧ dseqFollows seen (s.ready.nat O.jdpSesDseq k) = false) ∧
    (∃ (s : State) (k : Fin 16) (h : HeldReq) (t : List HeldReq), (s.ready.ses k).held = h :: t) ∧
    (∃ (s : State) (k : Fin 16), s.ready.sesOpen k = true) ∧
    (∃ (s : State) (k : Fin 16), sesState s.ready k = 1) ∧
    (∃ (s : State) (k : Fin 16), s.takes (part1 O.jdpSesCmd 1 k) ∧ s.ready.sesOpen k = true) ∧
    (∃ (s : State) (k : Fin 32) (slot : Nat), slot = s.ready.nat O.jdpLockOwner k ∧ slot ≠ 0xFF) ∧
    (∃ (s : State) (field : BindingField) (value : Nat), (Instr.bindingWrite field value).wellFormed = true ∧ s.takes (part1 (bindingObj field) value)) :=
  ⟨⟨(st base), 0, 0, 0, 3, 60000, (List.replicate 16 0), { role := .owner, key := List.replicate 32 0 }, 0, by decide +kernel, by decide +kernel, by decide +kernel, by decide +kernel, by decide +kernel, by decide +kernel, by decide +kernel, by decide +kernel⟩,
    ⟨(st (upd (((base.setN O.jdpSesState 2 15).setN O.jdpSesRole 3 15).setN O.jdpSesId 65535 15) fun x => { x with jdp := { x.jdp with lastSid := 65535 } })), 15, 0, 0, 0, 60000, (List.replicate 16 0), { role := .owner, key := List.replicate 32 0 }, by decide +kernel, by decide +kernel, by decide +kernel, by decide +kernel, by decide +kernel, by decide +kernel, by decide +kernel, by decide +kernel, by decide +kernel, by decide +kernel, by decide +kernel, by decide +kernel⟩,
    ⟨(st (base.setSes 15 { ({} : Session) with held := [⟨3, 0, 0, 0, [], 0⟩] })), 15, ⟨3, 0, 0, 0, [], 0⟩, [], by decide +kernel⟩,
    ⟨(st (base.setN O.jdpSesState 2 15)), 15, by decide +kernel⟩,
    ⟨(st (base.setN O.jdpSesState 1 15)), 15, by decide +kernel⟩,
    ⟨(st (base.setN O.jdpSesState 2 15)), 15, by decide +kernel, by decide +kernel⟩,
    ⟨(st (base.setN O.jdpLockOwner 15 31)), 31, _, rfl, by decide +kernel⟩,
    ⟨(st base), .udpPort, 5000, by decide +kernel, by decide +kernel⟩⟩

theorem witness_PortMessagesAct :
    (∃ (s : State) (len : Nat) (b : Bytes), spiUp s.ready = true ∧ 32 ≤ len ∧ len ≤ 1056 ∧ b.length = len ∧ s.ready.jdp.spiIn.length < 4 ∧ served s.ready bindSpi = false) ∧
    (∃ (s : State) (len : Nat) (b : Bytes), spiUp s.ready = true ∧ 32 ≤ len ∧ len ≤ 1056 ∧ b.length = len ∧ s.ready.jdp.spiIn = [] ∧ served s.ready bindSpi = true) ∧
    (∃ (s : State), spiUp s.ready = true) ∧
    (∃ (s : State) (count : Nat) (m : Bytes) (rest : List Bytes), spiUp s.ready = true ∧ s.ready.jdp.spiOut = m :: rest ∧ m.length ≤ count) ∧
    (∃ (s : State) (p : Fin 2) (id : Nat), s.ready.nat O.netCanState p = 1 ∧ s.ready.nat O.netCanRec p = 0 ∧ id < s.ready.nat O.jdpCanBase) :=
  ⟨⟨(st ((base.setN O.jdpSpiEnable 1).setN O.devState 0)), 1056, (List.replicate 1056 0), by decide +kernel, by decide +kernel, by decide +kernel, by decide +kernel, by decide +kernel, by decide +kernel⟩,
    ⟨(st (base.setN O.jdpSpiEnable 1)), 32, (List.replicate 32 0), by decide +kernel, by decide +kernel, by decide +kernel, by decide +kernel, by decide +kernel, by decide +kernel⟩,
    ⟨(st (base.setN O.jdpSpiEnable 1)), by decide +kernel⟩,
    ⟨(st (upd (base.setN O.jdpSpiEnable 1) fun x => { x with jdp := { x.jdp with spiOut := [List.replicate 32 0] } })), 32, (List.replicate 32 0), [], by decide +kernel, by decide +kernel, by decide +kernel⟩,
    ⟨(st ((base.setN O.netCanState 1 1).setN O.jdpCanBase 1024)), 1, 1023, by decide +kernel, by decide +kernel, by decide +kernel⟩⟩

theorem witness_ConfigurationActs :
    (∃ (s : State) (n : Nat), s.takes (part1 O.devCfgCmd 1) ∧ cfgWriting s.ready = false ∧ n = (match activeImage s.ready.cfg with | some (b, _) => imageSeq b | none => 0) ∧ n ≠ 0xFFFFFFFF ∧ imageSize s.ready ≤ 131072) ∧
    (∃ (s : State) (b : Bytes), s.ready.cfg.writing = some b ∧ activeImage s.ready.cfg = none) ∧
    (∃ (s : State) (b : Bytes), s.ready.cfg.writing = some b) ∧
    (∃ (s : State), s.takes (part1 O.devCfgCmd 2) ∧ cfgIdle s.ready = true) ∧
    (∃ (s : State), s.takes (part1 O.devCfgCmd 3) ∧ cfgIdle s.ready = true) ∧
    (∃ (s : State), s.takes (part1 O.devCfgCmd 4) ∧ cfgWriting s.ready = false) ∧
    (∃ (s : State) (m : Dev) (d : Dev), alive s.ready = true ∧ m = mirrorValues s.vault (forUpto 12 compareLane s.ready) ∧ d = (objectSubs { m with mirror := mirrorCopy m, mirrorAt := m.now }).foldl (objectNotify s.vault m.mirror) { m with mirror := mirrorCopy m, mirrorAt := m.now }) :=
  ⟨⟨(st base), _, by decide +kernel, by decide +kernel, rfl, by decide +kernel, by decide +kernel⟩,
    ⟨(st (upd base fun x => { x with cfg := { x.cfg with writing := some [1] } })), [1], by decide +kernel, by decide +kernel⟩,
    ⟨(st (upd base fun x => { x with cfg := { x.cfg with writing := some [1] } })), [1], by decide +kernel⟩,
    ⟨(st base), by decide +kernel, by decide +kernel⟩,
    ⟨(st base), by decide +kernel, by decide +kernel⟩,
    ⟨(st base), by decide +kernel, by decide +kernel⟩,
    ⟨(st base), _, _, by decide +kernel, rfl, rfl⟩⟩

theorem witness_ReadsWithEffectAct :
    (∃ (s : State) (index : Nat) (sub : Nat) (l : Loc) (d : Dev), lookup index sub = some l ∧ d = touchAt s.ready {} index sub ∧ readCode d {} l = none ∧ readLost d l 0 1020 = false ∧ l.o.ty ≠ .domain ∧ hasEffect d {} l = true ∧ l.o ≠ O.samEMin ∧ l.o ≠ O.samEMax ∧ l.o ≠ O.resPoolHiwater) ∧
    (∃ (s : State) (max : Bool) (e : Fin 64) (l : Loc) (d : Dev), l = ⟨if max then O.samEMax else O.samEMin, e, 0⟩ ∧ d = readTouch s.ready {} l 0 1020 ∧ readCode d {} l = none ∧ readLost d l 0 1020 = false ∧ hasEffect d {} l = true) ∧
    (∃ (s : State) (l : Loc) (d : Dev), l = ⟨O.resPoolHiwater, 0, 0⟩ ∧ d = readTouch s.ready {} l 0 1020 ∧ readCode d {} l = none ∧ readLost d l 0 1020 = false ∧ hasEffect d {} l = true) ∧
    (∃ (s : State) (k : Fin 8) (l : Loc) (d : Dev), l = ⟨O.tiuInLatch, k, 0⟩ ∧ d = readTouch s.ready {} l 0 1020 ∧ readCode d {} l = none ∧ readLost d l 0 1020 = false ∧ hasEffect d {} l = true) ∧
    (∃ (s : State) (severe : Bool) (w : Fin 8) (l : Loc) (d : Dev), l = ⟨if severe then O.fcrSevere else O.fcrStatus, 0, w⟩ ∧ d = readTouch s.ready { role := 1 } l 0 1020 ∧ readCode d { role := 1 } l = none ∧ readLost d l 0 1020 = false ∧ hasEffect d { role := 1 } l = true) ∧
    (∃ (s : State) (k : Fin 16) (l : Loc) (d : Dev), l = ⟨O.compatBlkStatus, k, 0⟩ ∧ d = readTouch s.ready {} l 0 1020 ∧ readCode d {} l = none ∧ readLost d l 0 1020 = false ∧ hasEffect d {} l = true) :=
  ⟨⟨(st base), O.ctbFlags.idx, O.ctbFlags.sub, ⟨O.ctbFlags, 0, 0⟩, _, by decide +kernel, rfl, by decide +kernel, by decide +kernel, by decide +kernel, by decide +kernel, by decide +kernel, by decide +kernel, by decide +kernel⟩,
    ⟨(st base), true, 63, _, _, rfl, rfl, by decide +kernel, by decide +kernel, by decide +kernel⟩,
    ⟨(st base), _, _, rfl, rfl, by decide +kernel, by decide +kernel, by decide +kernel⟩,
    ⟨(st base), 7, _, _, rfl, rfl, by decide +kernel, by decide +kernel, by decide +kernel⟩,
    ⟨(st base), true, 7, _, _, rfl, rfl, by decide +kernel, by decide +kernel, by decide +kernel⟩,
    ⟨(st base), 15, _, _, rfl, rfl, by decide +kernel, by decide +kernel, by decide +kernel⟩⟩

theorem witness_NetworksAct :
    (∃ (s : State) (p : Fin 2) (b : Bytes), linkUp s.ready p = true ∧ 60 ≤ b.length ∧ b.length ≤ 1518 ∧ beField b 12 2 = 0x0806 ∧ macTaken s.ready (ifOf s.ready p) (beField b 0 6) = true ∧ prp s.ready = false) ∧
    (∃ (s : State) (p : Fin 2), linkUp s.ready p = true ∧ ethOn s.ready p = true) ∧
    (∃ (s : State) (p : Fin 2) (link : Fin 4) (full : Bool) (d : Dev), ethOn s.ready p = true ∧ ifUp s.ready (ifOf s.ready p) = false ∧ d = (s.ready.setN O.netEthLink link p).setN O.netEthDuplex (b2n full) p ∧ ifUp d (ifOf s.ready p) = false) ∧
    (∃ (s : State) (n : Nat), prp s.ready = true ∧ n = (prpAge s.ready).net.supSeq) ∧
    (∃ (s : State) (iface : Fin 2), (s.ready.iface iface).dhcp = 3) ∧
    (∃ (s : State) (iface : Fin 2), (s.ready.iface iface).dhcp = 4) ∧
    (∃ (s : State) (iface : Fin 2), (s.ready.iface iface).dhcp = 5 ∧ ifUp s.ready iface = true) ∧
    (∃ (s : State) (iface : Fin 2) (value : Nat), (Instr.prpModeWrite .prpMode iface value).wellFormed = true ∧ s.takes (part1 O.netPrpMode value)) ∧
    (∃ (s : State) (field : AddressField) (iface : Fin 2) (value : Nat), field ≠ .prpMode ∧ (Instr.prpModeWrite field iface value).wellFormed = true ∧ s.takes (part1 (addressObj field) value iface)) ∧
    (∃ (s : State) (p : Fin 2), s.ready.nat O.netCanState p = 3) ∧
    (∃ (s : State) (p : Fin 2), s.ready.nat O.netCanState p ≠ 0 ∧ s.ready.nat O.netCanState p ≠ 3) ∧
    (∃ (s : State) (p : Fin 2), s.ready.nat O.netCanState p ≠ 0 ∧ s.ready.nat O.netCanState p ≠ 3) :=
  ⟨⟨(st ((base.setN O.netEthEnable 1 1).setN O.netEthLink 2 1)), 1, [255, 255, 255, 255, 255, 255, 0, 0, 0, 0, 0, 0, 8, 6] ++ List.replicate 1504 0, by decide +kernel, by decide +kernel, by decide +kernel, by decide +kernel, (by have h : (beField ([255, 255, 255, 255, 255, 255, 0, 0, 0, 0, 0, 0, 8, 6] ++ List.replicate 1504 0 : Bytes) 0 6 == macAll) = true := (by decide +kernel); simp only [macTaken, h, Bool.or_true, Bool.true_or]), by decide +kernel⟩,
    ⟨(st ((base.setN O.netEthEnable 1 1).setN O.netEthLink 2 1)), 1, by decide +kernel, by decide +kernel⟩,
    ⟨(st (base.setN O.netEthEnable 1 1)), 1, 0, true, _, by decide +kernel, by decide +kernel, rfl, by decide +kernel⟩,
    ⟨(st (base.setN O.netPrpMode 1)), _, by decide +kernel, rfl⟩,
    ⟨(st (upd base fun x => { x with net := { x.net with ifs := x.net.ifs.setIfInBounds 1 { ({} : Iface) with dhcp := 3 } } })), 1, by decide +kernel⟩,
    ⟨(st (upd base fun x => { x with net := { x.net with ifs := x.net.ifs.setIfInBounds 1 { ({} : Iface) with dhcp := 4 } } })), 1, by decide +kernel⟩,
    ⟨(st (upd ((base.setN O.netEthEnable 1 1).setN O.netEthLink 2 1) fun x => { x with net := { x.net with ifs := x.net.ifs.setIfInBounds 1 { ({} : Iface) with dhcp := 5 } } })), 1, by decide +kernel, by decide +kernel⟩,
    ⟨(st base), 1, 1, by decide +kernel, by decide +kernel⟩,
    ⟨(st base), .ipMode, 1, 1, by decide +kernel, by decide +kernel, by decide +kernel⟩,
    ⟨(st (base.setN O.netCanState 3 1)), 1, by decide +kernel⟩,
    ⟨(st (base.setN O.netCanState 1 1)), 1, by decide +kernel, by decide +kernel⟩,
    ⟨(st (base.setN O.netCanState 1 1)), 1, by decide +kernel, by decide +kernel⟩⟩

theorem witness_RingFramesAct :
    (∃ (s : State) (tick : Fin 250) (d : Dev), s.ready.hl.head = true ∧ hlSynced s.ready = true ∧ d = startFrame s.ready tick ∧ d.hl.cell = 0) ∧
    (∃ (s : State) (first : Fin 40), s.ready.hl.head = true ∧ hlSynced s.ready = true ∧ first.val ≠ 0 ∧ s.ready.hl.cell = first) ∧
    (∃ (s : State), hlState s.ready ≠ hsOff) ∧
    (∃ (s : State) (first : Fin 40), hlState s.ready ≠ hsOff ∧ first.val ≠ 0) ∧
    (∃ (s : State) (p : Fin 2), sendsLink s.ready p = true) ∧
    (∃ (s : State) (p : Fin 2), hlState s.ready ≠ hsOff ∧ s.ready.nat O.hlPortState p ≠ 0) :=
  ⟨⟨(st ((upd base fun x => { x with hl := { x.hl with head := true } }).setN O.hlState 3)), 249, _, by decide +kernel, by decide +kernel, rfl, by decide +kernel⟩,
    ⟨(st (upd ((upd base fun x => { x with hl := { x.hl with head := true } }).setN O.hlState 4) fun x => { x with hl := { x.hl with cell := 39, head := true } })), 39, by decide +kernel, by decide +kernel, by decide +kernel, by decide +kernel⟩,
    ⟨(st (base.setN O.hlState 1)), by decide +kernel⟩,
    ⟨(st (base.setN O.hlState 1)), 39, by decide +kernel, by decide +kernel⟩,
    ⟨(st (base.setN O.hlState 1)), 1, by decide +kernel⟩,
    ⟨(st ((base.setN O.hlState 6).setN O.hlPortState 2 1)), 1, by decide +kernel, by decide +kernel⟩⟩

theorem witness_RingFormsAndKeepsMembers :
    (∃ (s : State), s.ready.hl.head = false ∧ hlState s.ready ≠ hsOff ∧ hlState s.ready ≠ hsSearch ∧ hlState s.ready ≠ hsIsolated) ∧
    (∃ (s : State), hlState s.ready = hsSearch ∧ s.ready.nat O.hlRole = 0) ∧
    (∃ (s : State) (priority : Nat) (role : Nat) (uid : Nat), s.ready.hl.head = true ∧ uid ≠ s.ready.nat O.idUid ∧ listLt [1 - b2n (role == 1), priority, uid] [1 - b2n (s.ready.nat O.hlRole == 1), s.ready.nat O.hlPriority, s.ready.nat O.idUid] = true) ∧
    (∃ (s : State) (node : Fin 64), s.ready.hl.head = true ∧ node.val ≠ 0 ∧ tabFind s.ready.hl.alive node = none) ∧
    (∃ (s : State) (node : Fin 64) (t : Nat) (uid : Nat), s.ready.hl.head = true ∧ tabFind s.ready.hl.alive node = some t ∧ tabGet uid s.ready.hl.uids node ≠ uid ∧ s.ready.hl.conflict = false) ∧
    (∃ (s : State), s.ready.hl.head = false ∧ s.ready.nat O.hlNode ≠ 0xFF ∧ hlSynced s.ready = true) ∧
    (∃ (s : State) (node : Fin 64), s.ready.hl.head = true ∧ node.val ≠ 0 ∧ bit (members s.ready) node = true) ∧
    (∃ (s : State), s.takes (part1 O.hlCmd 1) ∧ s.ready.hl.head = true) ∧
    (∃ (s : State), s.takes (part1 O.hlEnable 1)) ∧
    (∃ (s : State), s.takes (part1 O.hlEnable 0)) :=
  ⟨⟨(st (base.setN O.hlState 5)), by decide +kernel, by decide +kernel, by decide +kernel, by decide +kernel⟩,
    ⟨(st ((base.setN O.hlState 1).setN O.hlRole 0)), by decide +kernel, by decide +kernel⟩,
    ⟨(st (((upd base fun x => { x with hl := { x.hl with head := true } }).setN O.idUid 9).setN O.hlPriority 8)), 7, 1, 8, by decide +kernel, by decide +kernel, by decide +kernel⟩,
    ⟨(st (upd base fun x => { x with hl := { x.hl with head := true } })), 63, by decide +kernel, by decide +kernel, by decide +kernel⟩,
    ⟨(st (upd base fun x => { x with hl := { x.hl with head := true, alive := [(63, 0)], uids := [(63, 1)] } })), 63, 0, 2, by decide +kernel, by decide +kernel, by decide +kernel, by decide +kernel⟩,
    ⟨(st ((base.setN O.hlNode 63).setN O.hlState 4)), by decide +kernel, by decide +kernel, by decide +kernel⟩,
    ⟨(st (((upd base fun x => { x with hl := { x.hl with head := true } })).setBytes O.hlMembers [0, 0, 0, 0, 0, 0, 0, 128])), 63, by decide +kernel, by decide +kernel, by decide +kernel⟩,
    ⟨(st ((upd base fun x => { x with hl := { x.hl with head := true } }).setN O.hlState 3)), by decide +kernel, by decide +kernel⟩,
    ⟨(st base), by decide +kernel⟩,
    ⟨(st (base.setN O.hlEnable 1)), by decide +kernel⟩⟩

theorem witness_RingBreaksAndRecovers :
    (∃ (s : State), s.ready.hl.head = true ∧ hlSynced s.ready = true) ∧
    (∃ (s : State), s.ready.hl.head = false) ∧
    (∃ (s : State) (m : Int), s.ready.hl.head = true ∧ hlState s.ready = hsWrapped ∧ m = (s.ready.clk + 1000000 + 7999) / 8000 * 8000) ∧
    (∃ (s : State) (m : Int), s.ready.hl.unwrapAt = some m ∧ hlState s.ready = hsWrapped ∧ s.ready.hl.cut = 0 ∧ s.ready.hl.head = true) ∧
    (∃ (s : State) (m : Int) (p : Fin 2), s.ready.hl.unwrapAt = some m ∧ hlState s.ready = hsWrapped ∧ s.ready.hl.cut = 2 ^ p.val ∧ portUp s.ready p = true ∧ s.ready.hl.head = false) ∧
    (∃ (s : State) (start : Int) (l : List (Int × Nat)), s.ready.hl.head = false ∧ (l = (start, termAt s.ready start) :: s.ready.erm.termLog.filter (fun e => decide (start < e.1)))) ∧
    (∃ (s : State), s.ready.hl.head = false) ∧
    (∃ (s : State) (node : Fin 64) (left : Nat) (t : Int), s.ready.hl.head = true ∧ s.ready.hl.missing = some t ∧ s.ready.hl.recovering = [node.val] ∧ left ≠ 0) :=
  ⟨⟨(st ((upd base fun x => { x with hl := { x.hl with head := true } }).setN O.hlState 3)), by decide +kernel, by decide +kernel⟩,
    ⟨(st base), by decide +kernel⟩,
    ⟨(st ((upd base fun x => { x with hl := { x.hl with head := true } }).setN O.hlState 4)), _, by decide +kernel, by decide +kernel, rfl⟩,
    ⟨(st ((upd base fun x => { x with hl := { x.hl with head := true, unwrapAt := some 8000 } }).setN O.hlState 4)), 8000, by decide +kernel, by decide +kernel, by decide +kernel, by decide +kernel⟩,
    ⟨(st (((upd base fun x => { x with hl := { x.hl with cut := 2, unwrapAt := some 8000 } }).setN O.hlState 4).setN O.hlPortState 2 1)), 8000, 1, by decide +kernel, by decide +kernel, by decide +kernel, by decide +kernel, by decide +kernel⟩,
    ⟨(st base), 8000, _, by decide +kernel, rfl⟩,
    ⟨(st base), by decide +kernel⟩,
    ⟨(st (upd base fun x => { x with hl := { x.hl with head := true, missing := some 8000, recovering := [63] } })), 63, 1, 8000, by decide +kernel, by decide +kernel, by decide +kernel, by decide +kernel⟩⟩

theorem witness_RingPacketsAct :
    (∃ (s : State) (k : Fin 16) (role : Fin 4) (b : Bytes), s.ready.hl.head = false ∧ 16 ≤ b.length ∧ leField b 4 4 ≠ 0 ∧ ((s.ready.jdp.fwdKept.any fun x => x.slot == k.val && x.request == b) = false) ∧ (match runOp s.vault s.ready { slot := k, role := role, cseq := leField b 4 4, remote := true } (leField b 1 1) (b.drop 16) with | .done _ _ _ _ => true | _ => false) = true) ∧
    (∃ (s : State) (node : Fin 64) (k : Fin 16) (b : Bytes) (req : Bytes) (cseq : Nat) (op : Nat), s.ready.hl.head = true ∧ (s.ready.ses k).awaiting = some (node.val, cseq, op, req) ∧ leField b 4 4 = cseq ∧ leField b 1 1 = op ∧ leField b 2 2 = s.ready.nat O.jdpSesId k) ∧
    (∃ (s : State) (node : Fin 64) (seq : Nat) (b : Bytes) (d : Dev), s.ready.hl.head = true ∧ (d = notifLost (gapIn s.ready node ptNotif seq (leField b 2 2)).2 (fun u => u.node == node.val && u.kind != 0) (gapIn s.ready node ptNotif seq (leField b 2 2)).1)) ∧
    (∃ (s : State) (node : Fin 64) (seq : Nat) (b : Bytes) (d : Dev), s.ready.hl.head = true ∧ (d = notifLost (gapIn s.ready node ptResult seq (leField b 0 2)).2 (fun u => u.node == node.val && u.kind == 0) (gapIn s.ready node ptResult seq (leField b 0 2)).1)) ∧
    (∃ (s : State) (p : Fin 2), hlState s.ready ≠ hsOff ∧ p.val = 1) ∧
    (∃ (s : State), hlState s.ready ≠ hsOff ∧ hlState s.ready ≠ hsHeld) :=
  ⟨⟨(st base), 15, 3, [0, BitVec.ofNat 8 opNop, 0, 0, 1, 0, 0, 0] ++ List.replicate 8 0, by decide +kernel, by decide +kernel, by decide +kernel, by decide +kernel, by decide +kernel⟩,
    ⟨(st (((upd base fun x => { x with hl := { x.hl with head := true } }).setSes 15 { ({} : Session) with awaiting := some (63, 1, opRead, []) }).setN O.jdpSesId 0 15)), 63, 15, [0, BitVec.ofNat 8 opRead, 0, 0, 1, 0, 0, 0], [], 1, opRead, by decide +kernel, by decide +kernel, by decide +kernel, by decide +kernel, by decide +kernel⟩,
    ⟨(st (upd base fun x => { x with hl := { x.hl with head := true } })), 63, 0, [], _, by decide +kernel, rfl⟩,
    ⟨(st (upd base fun x => { x with hl := { x.hl with head := true } })), 63, 0, [], _, by decide +kernel, rfl⟩,
    ⟨(st (base.setN O.hlState 1)), 1, by decide +kernel, by decide +kernel⟩,
    ⟨(st (base.setN O.hlState 4)), by decide +kernel, by decide +kernel⟩⟩

theorem witness_ClockSourcesAct :
    (∃ (s : State), s.ready.clkg.ref ≠ 1) ∧
    (∃ (s : State), s.ready.clkg.ref = 1) ∧
    (∃ (s : State), s.ready.clkg.ref ≠ 2) ∧
    (∃ (s : State), refQualified s.ready 1 = true) ∧
    (∃ (s : State), s.ready.nat O.clkTrimSrc ≠ 0 ∧ cgState s.ready ≠ cgLimp ∧ 12 ≤ s.ready.clkg.coarse) ∧
    (∃ (s : State) (excess : Int) (d : Dev), s.ready.nat O.clkTrimSrc ≠ 0 ∧ cgState s.ready ≠ cgLimp ∧ s.ready.clkg.coarse = 11 ∧ (d = (s.ready.setN O.clkHrcTrim (if 0 < excess then clrBit (s.ready.nat O.clkHrcTrim) 0 else setBit (s.ready.nat O.clkHrcTrim) 0)).onClk (fun c => { c with coarse := 12 }))) ∧
    (∃ (s : State), cgState s.ready = cgLocking ∧ s.ready.clkg.sysPll = true) ∧
    (∃ (s : State), cgState s.ready = cgRelock ∧ s.ready.clkg.sysPll = true) ∧
    (∃ (s : State), cgState s.ready = cgSteer ∧ s.ready.clkg.pendPll = none ∧ refQualified s.ready s.ready.clkg.ref = true) ∧
    (∃ (s : State) (k : Nat), s.ready.clkg.pendPll = some k ∧ s.ready.clkg.pendSys = false ∧ sourceAlive s.ready (s.ready.nat O.clkInput) = true) :=
  ⟨⟨(st (upd base fun x => { x with clkg := { x.clkg with ref := 2 } })), by decide +kernel⟩,
    ⟨(st base), by decide +kernel⟩,
    ⟨(st base), by decide +kernel⟩,
    ⟨(st base), by decide +kernel⟩,
    ⟨(st (upd (base.setN O.clkTrimSrc 1) fun x => { x with clkg := { x.clkg with coarse := 12 } })), by decide +kernel, by decide +kernel, by decide +kernel⟩,
    ⟨(st (upd (base.setN O.clkTrimSrc 1) fun x => { x with clkg := { x.clkg with coarse := 11 } })), 50, _, by decide +kernel, by decide +kernel, by decide +kernel, rfl⟩,
    ⟨(st (base.setN O.clkState 2)), by decide +kernel, by decide +kernel⟩,
    ⟨(st (base.setN O.clkState 5)), by decide +kernel, by decide +kernel⟩,
    ⟨(st (base.setN O.clkState 7)), by decide +kernel, by decide +kernel, by decide +kernel⟩,
    ⟨(st ((upd base fun x => { x with clkg := { x.clkg with pendPll := some 3 } }).setN O.clkInput 3)), 3, by decide +kernel, by decide +kernel, by decide +kernel⟩⟩

theorem witness_ClockLimitsAct :
    (∃ (s : State), cgState s.ready = cgRelock) ∧
    (∃ (s : State), cgState s.ready = cgBypass ∧ s.ready.pmu.held = false) ∧
    (∃ (s : State), s.takes (part1 O.clkCmd 1) ∧ cgState s.ready = cgBackup ∧ s.ready.clkg.pendPll = none ∧ chooseRef s.ready ≠ 0) ∧
    (∃ (s : State), cgState s.ready = cgBackup ∧ s.ready.on O.clkRevertAuto = true ∧ chooseRef s.ready ≠ 0 ∧ s.ready.clkg.pendPll = none) ∧
    (∃ (s : State) (value : Nat) (d : Dev), (Instr.refSelWrite value).wellFormed = true ∧ s.takes (part1 O.clkRefSel value) ∧ d = s.ready.setN O.clkRefSel value ∧ cgState d = cgLocked ∧ chooseRef d ≠ 0 ∧ chooseRef d ≠ d.clkg.ref) ∧
    (∃ (s : State) (mask : Nat), (Instr.clockGateWrite mask).wellFormed = true ∧ s.takes (part1 O.clkGate mask)) ∧
    (∃ (s : State), s.ready.clkg.driftN = 0) ∧
    (∃ (s : State), cgState s.ready = cgBackup) :=
  ⟨⟨(st (base.setN O.clkState 5)), by decide +kernel⟩,
    ⟨(st (base.setN O.clkState 0)), by decide +kernel, by decide +kernel⟩,
    ⟨(st (base.setN O.clkState 6)), by decide +kernel, by decide +kernel, by decide +kernel, by decide +kernel⟩,
    ⟨(st ((base.setN O.clkState 6).setN O.clkRevertAuto 1)), by decide +kernel, by decide +kernel, by decide +kernel, by decide +kernel⟩,
    ⟨(st (upd (base.setN O.clkRefSel 0) fun x => { x with clkg := { x.clkg with ref := 2 } })), 1, _, by decide +kernel, by decide +kernel, rfl, by decide +kernel, by decide +kernel, by decide +kernel⟩,
    ⟨(st base), 0, by decide +kernel, by decide +kernel⟩,
    ⟨(st base), by decide +kernel⟩,
    ⟨(st (base.setN O.clkState 6)), by decide +kernel⟩⟩

theorem witness_DomainsSwitch :
    (∃ (s : State) (mask : Nat), (Instr.domainOn mask).wellFormed = true ∧ s.takes (part1 O.pmuPdOn mask) ∧ firstCode (onCode s.ready) mask = 0) ∧
    (∃ (s : State) (mask : Nat), (Instr.domainOff mask).wellFormed = true ∧ s.takes (part1 O.pmuPdOff mask) ∧ firstCode (offCode s.ready 0) mask = 0) ∧
    (∃ (s : State) (n : Fin 31), bit s.ready.pmu.onPend n = true) ∧
    (∃ (s : State) (n : Fin 31), bit s.ready.pmu.onPend n = false ∧ bit s.ready.pmu.offPend n = true ∧ (n.val ≠ 28 ∨ bit s.ready.pmu.quiet 28 = false)) ∧
    (∃ (s : State), bit s.ready.pmu.onPend 28 = false ∧ bit s.ready.pmu.offPend 28 = true ∧ bit s.ready.pmu.quiet 28 = true) ∧
    (∃ (s : State), s.takes (part1 O.pmuCmd 2) ∧ bit s.ready.pmu.power 28 = false) ∧
    (∃ (s : State), s.takes (part1 O.pmuCmd 3)) ∧
    (∃ (s : State) (n : Fin 12), bit s.ready.pmu.power (n + 1) = true) ∧
    (∃ (s : State) (mask : Nat), s.takes (part1 O.pmuLaneReset mask) ∧ mask < 4096 ∧ (Instr.laneReset mask).wellFormed = true) ∧
    (∃ (s : State) (mask : Nat), (Instr.unitReset mask).wellFormed = true ∧ s.takes (part1 O.pmuUnitReset mask) ∧ mask < 2 ^ 24 ∧ ((∀ k, k < 24 → bit mask k = true → bit s.ready.pmu.power (gateDomain k) = true → resetIdle s.ready k = true))) :=
  ⟨⟨(st base), (2 ^ 30), by decide +kernel, by decide +kernel, by decide +kernel⟩,
    ⟨(st base), (2 ^ 12), by decide +kernel, by decide +kernel, by decide +kernel⟩,
    ⟨(st (upd base fun x => { x with pmu := { x.pmu with onPend := 2 ^ 30, power := 2 ^ 30 - 1 } })), 30, by decide +kernel⟩,
    ⟨(st (upd base fun x => { x with pmu := { x.pmu with offPend := 2 ^ 30 } })), 30, by decide +kernel, by decide +kernel, by decide +kernel⟩,
    ⟨(st (upd base fun x => { x with pmu := { x.pmu with offPend := 2 ^ 28, quiet := 2 ^ 28 } })), by decide +kernel, by decide +kernel, by decide +kernel⟩,
    ⟨(st (upd base fun x => { x with pmu := { x.pmu with power := 2 ^ 28 - 1 } })), by decide +kernel, by decide +kernel⟩,
    ⟨(st base), by decide +kernel⟩,
    ⟨(st base), 11, by decide +kernel⟩,
    ⟨(st base), 2048, by decide +kernel, by decide +kernel, by decide +kernel⟩,
    ⟨(st base), (2 ^ 23), by decide +kernel, by decide +kernel, by decide +kernel, by decide +kernel⟩⟩

theorem witness_ResetsAct :
    (∃ (s : State) (t : Nat), s.ready.pmu.resetDue = some t) ∧
    (∃ (s : State), s.ready.nat O.pmuResetPin = 1 ∧ s.ready.nat O.devState ≠ 5 ∧ s.ready.nat O.devState ≠ 6) ∧
    (∃ (s : State), s.ready.nat O.pmuResetPin = 2) ∧
    (∃ (s : State), s.ready.nat O.pmuResetPin = 2) ∧
    (∃ (s : State), s.ready.nat O.pmuResetPin = 3) ∧
    (∃ (s : State) (core : Fin 2) (d : Dev), coreOn s.ready core = true ∧ d = ((s.ready.bump O.pmuWdtExpiries).flag O.pmuFlags 1).raise (66 + core) 0 1 0 ∧ core.val ≠ coreActive d) ∧
    (∃ (s : State) (core : Fin 2) (d : Dev), coreOn s.ready core = true ∧ d = ((s.ready.bump O.pmuWdtExpiries).flag O.pmuFlags 1).raise (66 + core) 0 1 0 ∧ core.val = coreActive d ∧ d.on O.fcrCoreStandby = false) ∧
    (∃ (s : State) (core : Nat), (Instr.coreReset core).wellFormed = true ∧ s.takes (part1 O.pmuCoreReset core) ∧ core ≠ coreActive s.ready) :=
  ⟨⟨(st (upd base fun x => { x with pmu := { x.pmu with resetDue := some 2000000 } })), 2000000, by decide +kernel⟩,
    ⟨(st (base.setN O.pmuResetPin 1)), by decide +kernel, by decide +kernel, by decide +kernel⟩,
    ⟨(st (base.setN O.pmuResetPin 2)), by decide +kernel⟩,
    ⟨(st (base.setN O.pmuResetPin 2)), by decide +kernel⟩,
    ⟨(st (base.setN O.pmuResetPin 3)), by decide +kernel⟩,
    ⟨(st base), 1, _, by decide +kernel, rfl, by decide +kernel⟩,
    ⟨(st base), 0, _, by decide +kernel, rfl, by decide +kernel, by decide +kernel⟩,
    ⟨(st base), 1, by decide +kernel, by decide +kernel, by decide +kernel⟩⟩

theorem witness_StandbyAndBootAct :
    (∃ (s : State), s.takes (part1 O.pmuCmd 4) ∧ standbyRefused { s.ready with draws := s.ready.draws + 1 } = false) ∧
    (∃ (s : State), s.ready.nat O.devState = 5) ∧
    (∃ (s : State), s.ready.on O.fcrFirstHeld = false ∧ (relayCountSave s.ready).on O.fcrFirstHeld = false) ∧
    (∃ (s : State) (size : Nat), s.ready.nat O.pmuResetPin = 0 ∧ 8388608 ≤ size ∧ size ≤ 1073741824) ∧
    (∃ (s : State) (slot : Nat), s.ready.nat O.devState = 0 ∧ s.ready.pmu.held = false ∧ s.ready.pmu.bootSlot = some slot ∧ cgState s.ready = cgLocked) ∧
    (∃ (s : State) (slot : Nat), s.ready.nat O.devState = 0 ∧ s.ready.pmu.held = false ∧ s.ready.pmu.bootSlot = some slot ∧ cgState s.ready = cgLimp) ∧
    (∃ (s : State), (s.ready.nat O.devState = 2 ∨ s.ready.nat O.devState = 3) ∧ bit s.ready.fw.confirmed s.ready.fw.running = false) ∧
    (∃ (s : State), s.takes (part1 O.pmuCmd 5) ∧ bit s.ready.fw.confirmed s.ready.fw.running = false) :=
  ⟨⟨(st base), by decide +kernel, by decide +kernel⟩,
    ⟨(st (base.setN O.devState 5)), by decide +kernel⟩,
    ⟨(st base), by decide +kernel, by decide +kernel⟩,
    ⟨(st ((upd base fun x => { x with pmu := { x.pmu with held := true } }).setN O.pmuResetPin 0)), 1073741824, by decide +kernel, by decide +kernel, by decide +kernel⟩,
    ⟨(st (upd (base.setN O.devState 0) fun x => { x with pmu := { x.pmu with bootSlot := some 1 } })), 1, by decide +kernel, by decide +kernel, by decide +kernel, by decide +kernel⟩,
    ⟨(st ((upd (base.setN O.devState 0) fun x => { x with pmu := { x.pmu with bootSlot := some 1 } }).setN O.clkState 8)), 1, by decide +kernel, by decide +kernel, by decide +kernel, by decide +kernel⟩,
    ⟨(st (upd (base.setN O.devState 3) fun x => { x with fw := { x.fw with confirmed := 0 } })), by decide +kernel, by decide +kernel⟩,
    ⟨(st (upd base fun x => { x with fw := { x.fw with confirmed := 0 } })), by decide +kernel, by decide +kernel⟩⟩

theorem witness_FaultsAndCoresAct :
    (∃ (s : State) (src : Fin 256) (line : Bool) (d : Dev), src.val ≠ 51 ∧ src.val ≠ 52 ∧ d = errorLine s.ready src line) ∧
    (∃ (s : State), s.takes (part1 O.fcrCmd 1)) ∧
    (∃ (s : State), s.takes (part1 O.fcrCmd 2) ∧ s.ready.nat O.devState = 2) ∧
    (∃ (s : State) (b : Bytes), s.takes ⟨0, ⟨O.fcrInject, 0, 0⟩, b, none⟩ ∧ writeLength s.ready ⟨O.fcrInject, 0, 0⟩ none b = true ∧ b.length = 8 ∧ injectOk (leField b 0 1) (leField b 1 1) = true ∧ leField b 2 2 ≠ 0 ∧ allZero (b.drop 4) = true ∧ s.ready.fcr.inject = none) ∧
    (∃ (s : State) (d : Dev), s.takes (part1 O.fallowCmd 1) ∧ s.ready.nat O.devState = 3 ∧ (d = s.ready.onFcr (fun f => { f with holds := clrBit f.holds 4 })) ∧ d.fallowHolds ≠ 0) ∧
    (∃ (s : State), s.takes (part1 O.fallowCmd 2) ∧ s.ready.nat O.devState = 4 ∧ cgState s.ready = cgLocked ∧ safeLine s.ready = false ∧ s.ready.fallowHolds = 0) ∧
    (∃ (s : State), s.takes (part1 O.fallowCmd 2) ∧ s.ready.nat O.devState = 4 ∧ cgState s.ready = cgLocked ∧ safeLine s.ready = false ∧ s.ready.fallowHolds ≠ 0) ∧
    (∃ (s : State) (n : Fin 12) (d : Dev), s.takes (part1 O.fallowRestoreLane n) ∧ bit (s.ready.nat O.fallowIsolated) n = true ∧ d = (s.ready.setN O.fallowIsolated (clrBit (s.ready.nat O.fallowIsolated) n)).setN O.fallowLanes (clrBit (s.ready.nat O.fallowLanes) n)) ∧
    (∃ (s : State) (n : Fin 12), s.ready.nat O.laneState n = 9 ∧ s.ready.on O.laneEnable n = true) ∧
    (∃ (s : State), s.ready.on O.fcrCoreStandby = true ∧ coreHalted s.ready (coreActive s.ready) = false) ∧
    (∃ (s : State) (c : Fin 2), bit s.ready.fcr.rejoining c = true ∧ c.val ≠ coreActive s.ready) ∧
    (∃ (s : State) (c : Fin 2) (d : Dev), bit s.ready.fcr.rejoining c = true ∧ (d = (s.ready.onFcr fun f => { f with rejoining := clrBit f.rejoining c }).raise 68 0 2 c) ∧ coreLost d c = false) ∧
    (∃ (s : State) (c : Fin 2), s.ready.on O.dbgUnlocked = true ∧ coreHalted s.ready c = false ∧ coreOn s.ready c = true) ∧
    (∃ (s : State) (c : Fin 2), coreHalted s.ready c = true ∧ bit s.ready.fcr.deferred c = false ∧ c.val ≠ coreActive s.ready ∧ bit s.ready.fcr.rejoining c = false) :=
  ⟨⟨(st base), 255, false, _, by decide +kernel, by decide +kernel, rfl⟩,
    ⟨(st base), by decide +kernel⟩,
    ⟨(st base), by decide +kernel, by decide +kernel⟩,
    ⟨(st base), [5, 5, 1, 0, 0, 0, 0, 0], by decide +kernel, by decide +kernel, by decide +kernel, by decide +kernel, by decide +kernel, by decide +kernel, by decide +kernel⟩,
    ⟨(st (upd (base.setN O.devState 3) fun x => { x with fcr := { x.fcr with holds := 17 } })), _, by decide +kernel, by decide +kernel, rfl, by decide +kernel⟩,
    ⟨(st (base.setN O.devState 4)), by decide +kernel, by decide +kernel, by decide +kernel, by decide +kernel, by decide +kernel⟩,
    ⟨(st (upd (base.setN O.devState 4) fun x => { x with fcr := { x.fcr with holds := 1 } })), by decide +kernel, by decide +kernel, by decide +kernel, by decide +kernel, by decide +kernel⟩,
    ⟨(st ((base.setN O.fallowIsolated 2048).setN O.fallowLanes 2048)), 11, _, by decide +kernel, by decide +kernel, rfl⟩,
    ⟨(st ((base.setN O.laneState 9 11).setN O.laneEnable 1 11)), 11, by decide +kernel, by decide +kernel⟩,
    ⟨(st (base.setN O.fcrCoreStandby 1)), by decide +kernel, by decide +kernel⟩,
    ⟨(st (upd base fun x => { x with fcr := { x.fcr with rejoining := 2 } })), 1, by decide +kernel, by decide +kernel⟩,
    ⟨(st (upd base fun x => { x with fcr := { x.fcr with rejoining := 2 } })), 1, _, by decide +kernel, rfl, by decide +kernel⟩,
    ⟨(st (base.setN O.dbgUnlocked 1)), 1, by decide +kernel, by decide +kernel, by decide +kernel⟩,
    ⟨(st (upd base fun x => { x with fcr := { x.fcr with halted := 2 } })), 1, by decide +kernel, by decide +kernel, by decide +kernel, by decide +kernel⟩⟩

theorem witness_JournalActs :
    (∃ (s : State), s.ready.nat O.jrnState ≠ 0 ∧ s.ready.nat O.jrnState ≠ 4 ∧ s.ready.jrn.holding = false ∧ ((match nextRecord ((s.ready.onJrn fun j => { j with failRun := 0, unavailable := false, lastDoneAt := s.ready.up }).setN O.jrnState 1) with | some (seq, _, e) => decide ((writePage e seq).slots.length + 1 < 62 ∧ e.erm.mark = none) | none => false) = true)) ∧
    (∃ (s : State), s.ready.nat O.jrnState ≠ 0 ∧ s.ready.nat O.jrnState ≠ 4 ∧ (flashFailed s.ready).erm.mark = none) ∧
    (∃ (s : State), s.ready.nat O.jrnState = 1 ∧ s.ready.jrn.unavailable = false) ∧
    (∃ (s : State) (p : JPage), openPage s.ready.jrn = some p ∧ s.ready.jrn.sinceSeal ≠ 0 ∧ s.ready.jrn.unavailable = false ∧ p.slots.length < 61) ∧
    (∃ (s : State), s.takes (part1 O.jrnCmd 2)) ∧
    (∃ (s : State), s.takes (part1 O.jrnCmd 1) ∧ s.ready.jrn.staging = [] ∧ s.ready.jrn.ring = [] ∧ s.vault.kj ≠ []) ∧
    (∃ (s : State), s.takes (part1 O.jrnCmd 3) ∧ s.ready.nat O.jrnVerifyState ≠ 1) ∧
    (∃ (s : State), s.ready.nat O.jrnVerifyState = 1 ∧ verifyFrom s.vault.kj none (heldPages s.ready.jrn) = none) ∧
    (∃ (s : State) (b : Nat), s.ready.nat O.jrnVerifyState = 1 ∧ verifyFrom s.vault.kj none (heldPages s.ready.jrn) = some b) ∧
    (∃ (s : State) (value : Nat), (Instr.ackTo value).wellFormed = true ∧ s.takes (part1 O.jrnAckTo value) ∧ s.ready.nat O.jrnAck ≤ value ∧ value ≤ s.ready.nat O.jrnSeqSealed ∧ s.ready.jrn.holding = false) ∧
    (∃ (s : State) (sector : Nat) (p : JPage), s.ready.jrn.page sector = some p ∧ p.sealed = true ∧ sector ≠ s.ready.jrn.head ∧ openPage s.ready.jrn = none ∧ s.ready.jrn.holding = false ∧ s.ready.jrn.staging.length < 512 ∧ s.ready.int O.jrnRefreshAge < s.ready.clk - p.progAt) :=
  ⟨⟨(st (upd (base.setN O.jrnState 2) fun x => { x with jrn := { x.jrn with bootGap := some (7, 9), reserved := 100 } })), by decide +kernel, by decide +kernel, by decide +kernel, by decide +kernel⟩,
    ⟨(st (base.setN O.jrnState 1)), by decide +kernel, by decide +kernel, by decide +kernel⟩,
    ⟨(st (base.setN O.jrnState 1)), by decide +kernel, by decide +kernel⟩,
    ⟨(st (upd base fun x => { x with jrn := { x.jrn with sinceSeal := 1, pages := [(0, { ({} : JPage) with slots := [[]] })] } })), { ({} : JPage) with slots := [[]] }, by decide +kernel, by decide +kernel, by decide +kernel, by decide +kernel⟩,
    ⟨(st base), by decide +kernel⟩,
    ⟨{ st base with vault := { shippedVault with kj := List.replicate 32 1 } }, by decide +kernel, by decide +kernel, by decide +kernel, by decide +kernel⟩,
    ⟨(st base), by decide +kernel, by decide +kernel⟩,
    ⟨(st (base.setN O.jrnVerifyState 1)), by decide +kernel, by decide +kernel⟩,
    ⟨(st (upd (base.setN O.jrnVerifyState 1) fun x => { x with jrn := { x.jrn with pages := [(0, { { ({} : JPage) with slots := [[]] } with pseq := 7, sealed := true })] } })), 7, by decide +kernel, by decide +kernel⟩,
    ⟨(st (base.setN O.jrnSeqSealed 9)), 9, by decide +kernel, by decide +kernel, by decide +kernel, by decide +kernel, by decide +kernel⟩,
    ⟨(st ((upd base fun x => { x with jrn := { x.jrn with head := 1, pages := [(7, { { ({} : JPage) with slots := [[]] } with sealed := true })] } }).setI O.jrnRefreshAge (-1))), 7, { { ({} : JPage) with slots := [[]] } with sealed := true }, by decide +kernel, by decide +kernel, by decide +kernel, by decide +kernel, by decide +kernel, by decide +kernel, by decide +kernel⟩⟩

theorem witness_CalibrationActs :
    (∃ (s : State) (role : Fin 4) (n : Fin 96) (ds : Desc), s.takesAs role (part1 O.chCalCmd 1 n) ∧ descOf s.ready n = some ds) ∧
    (∃ (s : State) (role : Fin 4) (n : Fin 96) (b : Bytes), s.takesAs role ⟨0, ⟨O.chCalBlock, n, 0⟩, b, none⟩ ∧ writeLength s.ready ⟨O.chCalBlock, n, 0⟩ none b = true ∧ calBlockOk n b = true) ∧
    (∃ (s : State) (role : Fin 4) (b : Bytes), s.takesAs role ⟨0, ⟨O.calSam, 0, 0⟩, b, none⟩ ∧ writeLength s.ready ⟨O.calSam, 0, 0⟩ none b = true ∧ calBlockOk keySam b = true) ∧
    (∃ (s : State) (role : Fin 4) (n : Fin 96) (tag : Nat), (Instr.calTagWrite n role tag).wellFormed = true ∧ s.takesAs role (part1 O.chCalTag tag n)) ∧
    (∃ (s : State) (role : Fin 4) (n : Nat), n = calTargetChan s.ready ∧ calTargetOk s.ready = true ∧ s.ready.nat O.chForceLoopState n = 5 ∧ calSerialOk s.ready n = true ∧ s.ready.nat O.laneState (n / 8) = lsRun ∧ s.takesAs role (part1 O.calChCmd 1) ∧ calSt s.ready = 0) ∧
    (∃ (s : State) (role : Fin 4) (n : Nat), n = calTargetChan s.ready ∧ calTargetOk s.ready = true ∧ s.ready.nat O.chForceLoopState n = 5 ∧ calSerialOk s.ready n = true ∧ s.ready.nat O.laneState (n / 8) = lsRun ∧ s.takesAs role (part1 O.calChCmd 2) ∧ calSt s.ready = 2) ∧
    (∃ (s : State) (role : Fin 4) (n : Nat), n = calTargetChan s.ready ∧ calTargetOk s.ready = true ∧ s.ready.nat O.chForceLoopState n = 5 ∧ calSerialOk s.ready n = true ∧ s.ready.nat O.laneState (n / 8) = lsRun ∧ s.takesAs role (part1 O.calChCmd 3) ∧ (calSt s.ready = 2 ∨ calSt s.ready = 3)) ∧
    (∃ (s : State) (role : Fin 4), s.takesAs role (part1 O.calChCmd 4) ∧ calSt s.ready = 4 ∧ (s.ready.cal.proc.m2 - s.ready.cal.proc.m0).natAbs < 2 ^ 26) ∧
    (∃ (s : State) (role : Fin 4) (n : Nat) (p : CalProc), n = calTargetChan s.ready ∧ s.takesAs role (part1 O.calChCmd 5) ∧ calSt s.ready = 0 ∧ calTargetOk s.ready = true ∧ s.ready.nat O.chForceLoopState n = 0 ∧ calSerialOk s.ready n = true ∧ s.ready.nat O.laneState (n / 8) = lsRun ∧ canForce (descOf s.ready n) (calTargetCur s.ready) (calTargetRange s.ready) = true ∧ s.ready.nat O.chCalState n = 0 ∧ bit (s.ready.lane (n / 8)).safed (n % 8) = false ∧ p = { s.ready.cal.proc with running := 4, role := role, chan := n, cur := calTargetCur s.ready, range := calTargetRange s.ready, sumN := 0, sumC := 0, count := 0, wait := connectFrames s.ready n }) ∧
    (∃ (s : State) (role : Fin 4), s.takesAs role (part1 O.calChCmd 6) ∧ calSt s.ready = 1 ∧ s.ready.cal.proc.running < 4) ∧
    (∃ (s : State), calSt s.ready = 1 ∧ s.ready.nat O.calChFrames ≤ s.ready.cal.proc.count ∧ s.ready.cal.proc.running = 1) :=
  ⟨⟨(st (base.setLane 11 { ({} : Link) with desc := some desc0 })), 2, 95, desc0, by decide +kernel, by decide +kernel⟩,
    ⟨(st base), 2, 95, chanZeros, takesAs_of _ _ _ (by decide +kernel) (by decide +kernel) (by decide +kernel) (by unfold meaningCode; rw [if_neg (by decide), if_neg (by decide), if_neg (by decide), if_pos rfl]; show (if calBlockOk 95 chanZeros = true then 0 else aRange) = 0; rw [chanZeros_ok]; rfl) (by decide +kernel) (by decide +kernel) (fun _ => by rfl), by decide +kernel, chanZeros_ok⟩,
    ⟨(st base), 2, samZeros, takesAs_of _ _ _ (by decide +kernel) (by decide +kernel) (by decide +kernel) (by unfold meaningCode; rw [if_neg (by decide), if_neg (by decide), if_neg (by decide), if_neg (by decide), if_pos rfl, samZeros_ok]; rfl) (by decide +kernel) (by decide +kernel) (fun _ => by rfl), by decide +kernel, samZeros_ok⟩,
    ⟨(st base), 3, 95, 1, by decide +kernel, by decide +kernel⟩,
    ⟨(st ((((base.setN O.calChTarget 24320).setLane 11 { ({} : Link) with desc := some desc0 }).setN O.laneState 4 11).setN O.chForceLoopState 5 95)), 2, _, rfl, by decide +kernel, by decide +kernel, by decide +kernel, by decide +kernel, by decide +kernel, by decide +kernel⟩,
    ⟨(st (((((base.setN O.calChTarget 24320).setLane 11 { ({} : Link) with desc := some desc0 }).setN O.laneState 4 11).setN O.chForceLoopState 5 95).setN O.calChState 2)), 2, _, rfl, by decide +kernel, by decide +kernel, by decide +kernel, by decide +kernel, by decide +kernel, by decide +kernel⟩,
    ⟨(st (((((base.setN O.calChTarget 24320).setLane 11 { ({} : Link) with desc := some desc0 }).setN O.laneState 4 11).setN O.chForceLoopState 5 95).setN O.calChState 3)), 2, _, rfl, by decide +kernel, by decide +kernel, by decide +kernel, by decide +kernel, by decide +kernel, by decide +kernel⟩,
    ⟨(st ((((base.setN O.calChTarget 24320).setLane 11 { ({} : Link) with desc := some desc0 }).setN O.laneState 4 11).setN O.calChState 4)), 2, by decide +kernel, by decide +kernel, by decide +kernel⟩,
    ⟨(st (((((base.setN O.calChTarget 24320).setLane 11 { ({} : Link) with desc := some desc0 }).setN O.laneState 4 11).setN O.chForceLoopState 0 95).setN O.chCalState 0 95)), 2, _, _, rfl, by decide +kernel, by decide +kernel, by decide +kernel, by decide +kernel, by decide +kernel, by decide +kernel, by decide +kernel, by decide +kernel, by decide +kernel, rfl⟩,
    ⟨(st (base.setN O.calChState 1)), 2, by decide +kernel, by decide +kernel, by decide +kernel⟩,
    ⟨(st (upd ((base.setN O.calChState 1).setN O.calChFrames 0) fun x => { x with cal := { x.cal with proc := { ({} : CalProc) with running := 1 } } })), by decide +kernel, by decide +kernel, by decide +kernel⟩⟩

theorem witness_KeysAct :
    (∃ (s : State) (k : Fin 16) (slot : Fin 16) (b : Bytes) (w : Who) (v : Vault) (d : Dev), w = whoOf s.ready k (nextCseq s.ready k) ∧ writeRole w ⟨O.secKeySet, slot, 0⟩ ≤ w.role ∧ b.length = 34 ∧ writeLength s.ready ⟨O.secKeySet, slot, 0⟩ none b = true ∧ partCode s.ready s.ready w [⟨0, ⟨O.secKeySet, slot, 0⟩, b, none⟩] false ⟨0, ⟨O.secKeySet, slot, 0⟩, b, none⟩ = none ∧ leField b 0 1 ≤ 3 ∧ leField b 1 1 = 0 ∧ v = s.vault.setKey slot (some { role := roleOf (leField b 0 1), key := unwrapKey w.key slot w.cseq (b.drop 2) }) ∧ v.hasOwner = true ∧ d = keyRecord (s.ready.random 32).2 slot (roleNum (roleOf (leField b 0 1))) 1 (keyFp (unwrapKey w.key slot w.cseq (b.drop 2)))) ∧
    (∃ (s : State) (slot : Fin 16) (x : RoleKey) (v : Vault), s.takes (part1 O.secKeyCmd 1 slot) ∧ s.vault.key slot = some x ∧ v = (s.vault.setKey slot none).setLabel slot [] ∧ v.hasOwner = true) ∧
    (∃ (s : State) (key : Fin 4), s.takes (part1 O.secFwRevoke key) ∧ fwSlot s.ready s.ready.fw.running = [] ∧ fwValid s.vault s.ready (fwOther s.ready) = false) :=
  ⟨⟨(st ((base.setN O.jdpSesRole 3 15).setSes 15 { ({} : Session) with key := List.replicate 32 0 })), 15, 15, (List.replicate 34 0), _, _, _, rfl, by decide +kernel, by decide +kernel, by decide +kernel, by decide +kernel, by decide +kernel, by decide +kernel, rfl, by decide +kernel, rfl⟩,
    ⟨{ st base with vault := shippedVault.setKey 15 (some { role := .observer, key := List.replicate 32 1 }) }, 15, { role := .observer, key := List.replicate 32 1 }, _, by decide +kernel, by decide +kernel, rfl, by decide +kernel⟩,
    ⟨(st base), 3, by decide +kernel, by decide +kernel, by decide +kernel⟩⟩

theorem witness_UpdateAndDebugAct :
    (∃ (s : State), s.takes (part1 O.secFwCmd 1) ∧ s.ready.nat O.secFwState = 0) ∧
    (∃ (s : State) (off : Nat) (b : Bytes), s.takes ⟨0, ⟨O.secFwImage, 0, 0⟩, b, some off⟩ ∧ writeLength s.ready ⟨O.secFwImage, 0, 0⟩ (some off) b = true ∧ s.ready.nat O.secFwState = 1 ∧ s.ready.fw.verifying = false ∧ off = (fwSlot s.ready (fwOther s.ready)).length ∧ off + b.length ≤ 459008) ∧
    (∃ (s : State), s.takes (part1 O.secFwCmd 2) ∧ s.ready.nat O.secFwState = 1 ∧ s.ready.fw.verifying = false) ∧
    (∃ (s : State), s.ready.fw.verifying = true) ∧
    (∃ (s : State), s.takes (part1 O.secFwCmd 3) ∧ s.ready.nat O.secFwState = 2 ∧ bit s.ready.fw.confirmed s.ready.fw.running = true) ∧
    (∃ (s : State), s.takes (part1 O.secFwCmd 4) ∧ (s.ready.nat O.secFwState = 1 ∨ s.ready.nat O.secFwState = 2)) ∧
    (∃ (s : State) (t : Nat), s.takes (part1 O.secDbgCmd 1) ∧ t = s.ready.nat O.secDbgDuration) ∧
    (∃ (s : State), s.takes (part1 O.secDbgCmd 2) ∧ s.ready.on O.dbgUnlocked = true) ∧
    (∃ (s : State), s.ready.on O.dbgUnlocked = true) ∧
    (∃ (s : State) (a : Addr), s.ready.on O.dbgUnlocked = true ∧ True ∧ True ∧ (∃ (t : Nat) (b : Bytes) (e : Dev), readAt s.vault ((s.ready.bump O.dbgPeeks).setN O.dbgLastPeek (leNat (addrBytes a))) {} true a.index a.sub = .ok (t, b, e) ∧ a.node = s.ready.node)) :=
  ⟨⟨(st base), by decide +kernel, by decide +kernel⟩,
    ⟨(st (upd (base.setN O.secFwState 1) fun x => { x with fw := { x.fw with slotB := List.replicate 1000 0 } })), 1000, (List.replicate 1008 0), by decide +kernel, by decide +kernel, by decide +kernel, by decide +kernel, by decide +kernel, by decide +kernel⟩,
    ⟨(st (base.setN O.secFwState 1)), by decide +kernel, by decide +kernel, by decide +kernel⟩,
    ⟨(st (upd base fun x => { x with fw := { x.fw with verifying := true } })), by decide +kernel⟩,
    ⟨(st (base.setN O.secFwState 2)), by decide +kernel, by decide +kernel, by decide +kernel⟩,
    ⟨(st (base.setN O.secFwState 2)), by decide +kernel, by decide +kernel⟩,
    ⟨(st base), _, by decide +kernel, rfl⟩,
    ⟨(st (base.setN O.dbgUnlocked 1)), by decide +kernel, by decide +kernel⟩,
    ⟨(st (base.setN O.dbgUnlocked 1)), by decide +kernel⟩,
    ⟨(st (base.setN O.dbgUnlocked 1)), ⟨O.devState.idx, O.devState.sub, (st base).ready.node⟩, by decide +kernel, by decide +kernel, by decide +kernel, ok_read (by decide +kernel)⟩⟩

end Sys2Proof.Tests
end

/-! Who may read and write what (R21, R22, R26). Each test that asks for a role gets a lemma that says when a
request passes it: a read and its side effect, the conditions of an item and of a subscription, and LOCK. -/
namespace Sys2Proof.Machine

/-- The same requester with another role. -/
def Who.withRole (w : Who) (r : Nat) : Who := { w with role := r }

@[simp] theorem withRole_role (w : Who) (r : Nat) : (w.withRole r).role = r := rfl
@[simp] theorem withRole_slot (w : Who) (r : Nat) : (w.withRole r).slot = w.slot := rfl

/-! What asks for no role. -/

@[simp] theorem jrnSelect_withRole (d : Dev) (w : Who) (r : Nat) : jrnSelect d (w.withRole r) = jrnSelect d w := rfl
@[simp] theorem writeRole_withRole (w : Who) (r : Nat) (l : Loc) : writeRole (w.withRole r) l = writeRole w l := rfl

/-- Conditions 6 to 9 of a write look at the slot and the binding of the requester, never at the role. -/
theorem partCode_withRole (d after : Dev) (w : Who) (r : Nat) (all : List Part) (skip : Bool) (p : Part) :
    partCode d after (w.withRole r) all skip p = partCode d after w all skip p := rfl

/-! Reads. -/

theorem readRole_of_ro_const {o : Obj} (h : o.acc = .ro ∨ o.acc = .const) : readRole o = roleNum o.role := if_pos h

theorem readRole_of_rw_rws {o : Obj} (h : o.acc = .rw ∨ o.acc = .rws) : readRole o = 0 :=
  if_neg (by rcases h with h | h <;> rw [h] <;> decide)

/-- One refusal in front of the others: what passes it and them. -/
theorem refuse_else_eq_none_iff {c : Prop} [Decidable c] {a : Abort} {rest : Option Abort} :
    (if c then some a else rest) = none ↔ ¬ c ∧ rest = none := by
  by_cases h : c
  · rw [if_pos h]; exact ⟨nofun, fun hc => absurd h hc.1⟩
  · rw [if_neg h]; exact ⟨fun hr => ⟨h, hr⟩, And.right⟩

/-- A refusal with another code in front of the others: which requests they refuse with ROLE. -/
theorem refuse_else_eq_role_iff {c : Prop} [Decidable c] {a : Abort} {rest : Option Abort} {n : Nat} (ha : a.code ≠ aRole) :
    (if c then some a else rest) = some ⟨aRole, n⟩ ↔ ¬ c ∧ rest = some ⟨aRole, n⟩ := by
  by_cases h : c
  · rw [if_pos h]; exact ⟨fun he => absurd (congrArg Abort.code (Option.some.inj he)) ha, fun hc => absurd h hc.1⟩
  · rw [if_neg h]; exact ⟨fun hr => ⟨h, hr⟩, And.right⟩

/-- What passes a read (R22, R375). -/
theorem readCode_eq_none_iff (d : Dev) (w : Who) (l : Loc) :
    readCode d w l = none ↔ l.o.acc ≠ .wo ∧ readRole l.o ≤ w.role ∧
      ¬ (l.o = O.chTraceData ∧ d.nat O.chTraceState (traceCh (l.i / 8)) ≠ 4) ∧
      ¬ (l.o = O.jrnRdPage ∧ (pageOf d.jrn (jrnSelect d w)).isNone) := by
  rw [readCode, refuse_else_eq_none_iff, refuse_else_eq_none_iff, refuse_else_eq_none_iff, refuse_else_eq_none_iff, Nat.not_lt, eq_self,
    and_true]

/-- A read is refused with ROLE exactly for the roles below the object's own, which the answer names. -/
theorem readCode_eq_role_iff (d : Dev) (w : Who) (l : Loc) (n : Nat) :
    readCode d w l = some ⟨aRole, n⟩ ↔ l.o.acc ≠ .wo ∧ w.role < readRole l.o ∧ readRole l.o = n := by
  rw [readCode, refuse_else_eq_role_iff (by decide)]
  refine and_congr_right fun _ => ?_
  by_cases hlow : w.role < readRole l.o
  · rw [if_pos hlow, Option.some.injEq, Abort.mk.injEq]
    exact ⟨fun h => ⟨hlow, h.2⟩, fun h => ⟨rfl, h.2⟩⟩
  · rw [if_neg hlow, refuse_else_eq_role_iff (by decide), refuse_else_eq_role_iff (by decide)]
    exact ⟨nofun, fun h => absurd h.1 hlow⟩

theorem hasEffect_iff (d : Dev) (w : Who) (l : Loc) :
    hasEffect d w l = true ↔ l.o.acc = .rws ∧ roleNum l.o.role ≤ w.role ∧ gatedLoc d l = false ∧ offLoc d l = false := by
  simp only [hasEffect, Bool.and_eq_true, beq_iff_eq, decide_eq_true_eq, Bool.not_eq_true', and_assoc]

theorem readCode_none_withRole {d : Dev} {w : Who} {r : Nat} {l : Loc} (hr : w.role ≤ r) (h : readCode d w l = none) :
    readCode d (w.withRole r) l = none := by
  obtain ⟨hacc, hrole, htrace, hpage⟩ := (readCode_eq_none_iff d w l).mp h
  exact (readCode_eq_none_iff d _ l).mpr ⟨hacc, Nat.le_trans hrole hr, htrace, by rwa [jrnSelect_withRole]⟩

theorem hasEffect_withRole {d : Dev} {w : Who} {r : Nat} {l : Loc} (hr : w.role ≤ r) (h : hasEffect d w l = true) :
    hasEffect d (w.withRole r) l = true := by
  obtain ⟨hacc, hrole, hunit⟩ := (hasEffect_iff d w l).mp h
  exact (hasEffect_iff d _ l).mpr ⟨hacc, Nat.le_trans hrole hr, hunit⟩

/-! Items of a write. -/

/-- As `refuse_else_eq_none_iff`, where passing yields a value. -/
theorem refuse_else_eq_ok_iff {α : Type} {c : Prop} [Decidable c] {a : Abort} {rest : Except Abort α} {x : α} :
    (if c then .error a else rest) = .ok x ↔ ¬ c ∧ rest = .ok x := by
  by_cases h : c
  · rw [if_pos h]; exact ⟨nofun, fun hc => absurd h hc.1⟩
  · rw [if_neg h]; exact ⟨fun hr => ⟨h, hr⟩, And.right⟩

/-- What passes conditions 1 to 5 of R375. -/
theorem itemLoc_eq_ok_iff (d : Dev) (w : Who) (x : Staged) (l : Loc) :
    itemLoc d w x = .ok l ↔ lookup x.index x.sub = some l ∧ ¬ (l.o.acc = .ro ∨ l.o.acc = .const) ∧ writeRole w l ≤ w.role ∧
      x.typ = tyCode l.o.ty ∧ writeLength d l x.offset x.data = true := by
  cases hl : lookup x.index x.sub with
  | none => simp only [itemLoc, hl, reduceCtorEq, false_and]
  | some m =>
    simp only [itemLoc, hl, refuse_else_eq_ok_iff, Nat.not_lt, ne_eq, Decidable.not_not, Bool.not_eq_true', Bool.not_eq_false,
      Except.ok.injEq, Option.some.injEq]
    constructor
    · rintro ⟨hacc, hrole, htyp, hlen, rfl⟩
      exact ⟨rfl, hacc, hrole, htyp, hlen⟩
    · rintro ⟨rfl, hacc, hrole, htyp, hlen⟩
      exact ⟨hacc, hrole, htyp, hlen, rfl⟩

theorem itemLoc_ok_withRole {d : Dev} {w : Who} {r : Nat} {x : Staged} {l : Loc} (hr : w.role ≤ r) (h : itemLoc d w x = .ok l) :
    itemLoc d (w.withRole r) x = .ok l := by
  obtain ⟨hloc, hacc, hrole, hform⟩ := (itemLoc_eq_ok_iff d w x l).mp h
  exact (itemLoc_eq_ok_iff d _ x l).mpr ⟨hloc, hacc, by rw [writeRole_withRole]; exact Nat.le_trans hrole hr, hform⟩

/-! Subscriptions and locks. -/

/-- What passes an add of kind 3, the kind that names an object (Table 14.10). -/
theorem subCode_object_eq_none_iff (w : Who) {u : Sub} (hu : u.kind = 3) :
    subCode w u = none ↔ ∃ l, lookup u.index u.sub = some l ∧ l.o.acc ≠ .wo ∧ readRole l.o ≤ w.role ∧
      ¬ (l.o.ty = .domain ∨ l.o.ty = .str) := by
  have h30 : ¬ (3 : Nat) = 0 := by decide
  cases hl : lookup u.index u.sub with
  | none => simp only [subCode, hu, h30, hl, if_false, if_true, reduceCtorEq, false_and, exists_false]
  | some l =>
    simp only [subCode, hu, h30, hl, if_false, if_true, refuse_else_eq_none_iff, Nat.not_lt, and_true, Option.some.injEq,
      exists_eq_left', ne_eq]

theorem subCode_none_withRole {w : Who} {r : Nat} {u : Sub} (hr : w.role ≤ r) (h : subCode w u = none) :
    subCode (w.withRole r) u = none := by
  by_cases hu : u.kind = 3
  · obtain ⟨l, hl, hacc, hrole, hty⟩ := (subCode_object_eq_none_iff w hu).mp h
    exact (subCode_object_eq_none_iff _ hu).mpr ⟨l, hl, hacc, Nat.le_trans hrole hr, hty⟩
  · simpa only [subCode, hu, if_false] using h

theorem opAbort_ne_opOk {v v' : Vault} {d d' : Dev} {a : Abort} {item : Nat} {body : Bytes} (ha : a.code ≠ 0) :
    opAbort v d a item ≠ opOk v' d' body := fun h => by
  injection h with hr
  exact ha (congrArg Resp.code hr)

/-- LOCK succeeds for OPERATOR and above only (Table 14.2). -/
theorem role_pos_of_lockOp_ok {v : Vault} {d e : Dev} {w : Who} {b body : Bytes} (h : lockOp v d w b = opOk v e body) : 1 ≤ w.role := by
  refine Nat.not_lt.mp fun hlow => ?_
  rw [lockOp, if_pos hlow] at h
  split at h
  · exact opAbort_ne_opOk (by decide) h
  · exact opAbort_ne_opOk (by decide) h

/-- From OPERATOR on, LOCK does the same for every role. -/
theorem lockOp_withRole {w : Who} {r : Nat} (hw : 1 ≤ w.role) (hr : 1 ≤ r) (v : Vault) (d : Dev) (b : Bytes) :
    lockOp v d (w.withRole r) b = lockOp v d w b := by
  simp only [lockOp, withRole_role, withRole_slot, Nat.not_lt.mpr hw, Nat.not_lt.mpr hr, if_false]

/-! Reserved indices. -/

theorem itemLoc_reserved {d : Dev} {w : Who} {x : Staged} (h : lookup x.index x.sub = none) : itemLoc d w x = .error ⟨aNoObject, 0⟩ := by
  simp only [itemLoc, h]

/-- A write whose first item fails conditions 1 to 5 is refused with that item's code. -/
theorem writeItems_of_itemLoc_error (v : Vault) {d : Dev} {w : Who} {x : Staged} {a : Abort} (xs : List Staged)
    (h : itemLoc d w x = .error a) : writeItems v d w (x :: xs) = .error (0, a) := by
  simp only [writeItems, gatherParts, h, writeParts, List.foldl_nil, runParts]

/-! The statements. -/

/-- Settles O8: the tests that ask for a role compare it with a bound that does not depend on it, the others do not see it. -/
theorem rolesAreOrdered : Obligations.RolesAreOrdered := by
  refine ⟨by decide, by decide, by decide, fun d w x hr hx => ?_⟩
  obtain ⟨r, rfl⟩ : ∃ r, x = w.withRole r := ⟨x.role, hx⟩
  rw [withRole_role] at hr
  refine ⟨fun _ => readCode_none_withRole hr, fun _ => hasEffect_withRole hr, fun _ _ => itemLoc_ok_withRole hr,
    fun after all skip p h => (partCode_withRole d after w r all skip p).trans h, fun _ => subCode_none_withRole hr,
    fun v b h lease e hok => ?_⟩
  have hw : 1 ≤ w.role := role_pos_of_lockOp_ok hok
  exact (lockOp_withRole hw (Nat.le_trans hw hr) v d b).trans hok

/-- Settles O9, by when a read is refused with ROLE. -/
theorem readRightsFollowTheRole : Obligations.ReadRightsFollowTheRole := by
  refine fun d w l => ⟨fun hacc n h => ?_, fun hacc => ⟨fun hlow => ?_, fun hhigh n h => ?_⟩⟩
  · obtain ⟨-, hlow, -⟩ := (readCode_eq_role_iff d w l n).mp h
    rw [readRole_of_rw_rws hacc] at hlow
    exact Nat.not_lt_zero _ hlow
  · rw [← readRole_of_ro_const hacc] at hlow ⊢
    have hread : l.o.acc ≠ .wo := by rcases hacc with h | h <;> rw [h] <;> decide
    exact (readCode_eq_role_iff d w l _).mpr ⟨hread, hlow, rfl⟩
  · obtain ⟨-, hlow, -⟩ := (readCode_eq_role_iff d w l n).mp h
    rw [readRole_of_ro_const hacc] at hlow
    exact Nat.not_lt.mpr hhigh hlow

/-- Settles O10: the lookup is the first condition of a read, of a block read and of an item. -/
theorem reservedIndicesAreRefused : Obligations.ReservedIndicesAreRefused := by
  refine fun v d w index sub h => ⟨fun peek => ?_, fun off len => ?_, fun typ offset data => ?_⟩
  · simp only [readAt, h]
  · simp only [blockRead, h]
  · exact writeItems_of_itemLoc_error v [] (itemLoc_reserved h)

end Sys2Proof.Machine

/-! What becomes of the keys partition (R545, R546, R550): the changes that an operation can make to it, one by one, and that
every command makes only those. -/
namespace Sys2Proof.Machine

/-- One change of the keys partition: a key set or erased while an OWNER key stays, a label, the journal key of a FORMAT, a
revocation, a confirmed security version. -/
inductive Vault.Change (v : Vault) : Vault → Prop where
  | set (i : Nat) (k : RoleKey) (h : (v.setKey i (some k)).hasOwner = true) : Change v (v.setKey i (some k))
  | erase (i : Nat) (h : ((v.setKey i none).setLabel i []).hasOwner = true) : Change v ((v.setKey i none).setLabel i [])
  | label (i : Nat) (b : Bytes) : Change v (v.setLabel i b)
  | format (kj : Bytes) : Change v { v with kj := kj }
  | revoke (k : Nat) : Change v { v with revoked := setBit v.revoked k }
  | confirm (svn : Nat) : Change v { v with minSvn := max v.minSvn svn }

/-- What comes from `v` by such changes, none or any number of them. -/
inductive Vault.Reaches (v : Vault) : Vault → Prop where
  | refl : Reaches v v
  | tail {w x : Vault} (h : Reaches v w) (hc : w.Change x) : Reaches v x

theorem Vault.Reaches.single {v w : Vault} (h : v.Change w) : v.Reaches w := .tail .refl h

theorem Vault.Reaches.trans {u v w : Vault} (h : u.Reaches v) (h' : v.Reaches w) : u.Reaches w := by
  induction h' with
  | refl => exact h
  | tail _ hc ih => exact .tail ih hc

/-- An outcome that is no abort leaves a partition reached from `v`. -/
def Vault.ReachesEff {ε : Type} (v : Vault) : Except ε (Vault × Dev) → Prop
  | .ok x => v.Reaches x.1
  | .error _ => True

/-- The same for an operation of the dictionary protocol. -/
def Vault.ReachesOp (v : Vault) : OpOut → Prop
  | .done _ w _ _ => v.Reaches w
  | .forward _ => True

@[simp] theorem reaches_self (v : Vault) : v.Reaches v := .refl

theorem reaches_ite {v : Vault} {c : Prop} [Decidable c] {x y : Vault × Dev} (hx : v.Reaches x.1) (hy : v.Reaches y.1) :
    v.Reaches (if c then x else y).1 :=
  iteInduction (motive := fun z : Vault × Dev => v.Reaches z.1) (fun _ => hx) fun _ => hy

section
variable {ε : Type} {v w : Vault}

theorem reachesEff_error {e : ε} : v.ReachesEff (.error e) := trivial
theorem reachesEff_vrefuse {c : Nat} : v.ReachesEff (vrefuse c) := trivial

theorem reachesEff_ite {c : Prop} [Decidable c] {a b : Except ε (Vault × Dev)} (ha : v.ReachesEff a) (hb : v.ReachesEff b) :
    v.ReachesEff (if c then a else b) :=
  iteInduction (motive := v.ReachesEff) (fun _ => ha) fun _ => hb

theorem Vault.ReachesEff.of_ok {e : Except ε (Vault × Dev)} {x : Vault × Dev} (he : v.ReachesEff e) (h : e = .ok x) : v.Reaches x.1 := by
  subst h; exact he

theorem Vault.Reaches.trans_eff {e : Except ε (Vault × Dev)} (h : v.Reaches w) (he : w.ReachesEff e) : v.ReachesEff e := by
  cases e with
  | error => trivial
  | ok => exact h.trans he

/-- What follows on the device alone leaves the partition as it is. -/
theorem Vault.ReachesEff.map_dev {e : Except ε (Vault × Dev)} (he : v.ReachesEff e) (f : Vault × Dev → Dev) :
    v.ReachesEff (e.map fun s => (s.1, f s)) := by
  cases e with
  | error => trivial
  | ok => exact he

/-- An operation on the device alone. -/
theorem reachesEff_dev (e : Except ε Dev) : v.ReachesEff (e.map fun d => (v, d)) := by
  cases e with
  | error => trivial
  | ok => exact .refl

end

section
variable {v : Vault} {d : Dev}

@[simp] theorem reachesOp_forward {n : Nat} : v.ReachesOp (.forward n) := trivial
@[simp] theorem reachesOp_opOk {w : Vault} {b : Bytes} : v.ReachesOp (opOk w d b) ↔ v.Reaches w := .rfl
@[simp] theorem reachesOp_opAbort {a : Abort} {item : Nat} : v.ReachesOp (opAbort v d a item) := .refl
@[simp] theorem reachesOp_opBad : v.ReachesOp (opBad v d) := .refl

theorem reachesOp_ite {c : Prop} [Decidable c] {a b : OpOut} (ha : v.ReachesOp a) (hb : v.ReachesOp b) :
    v.ReachesOp (if c then a else b) :=
  iteInduction (motive := v.ReachesOp) (fun _ => ha) fun _ => hb

theorem Vault.ReachesOp.of_done {o : OpOut} {r : Resp} {w : Vault} {rep : List (Nat × Bytes)} (ho : v.ReachesOp o)
    (h : o = .done r w d rep) : v.Reaches w := by
  subst h; exact ho

end

/-! Operations that change the partition. -/

theorem keySet_reaches (v : Vault) (d : Dev) (k : Bytes) (cseq i : Nat) (b : Bytes) : v.ReachesEff (keySet v d k cseq i b) := by
  unfold keySet
  refine reachesEff_ite reachesEff_vrefuse (reachesEff_ite reachesEff_vrefuse ?_)
  dsimp only
  split
  · exact reachesEff_vrefuse
  · next h => exact .single (.set i _ (by simpa using h))

theorem keyErase_reaches (v : Vault) (d : Dev) (i : Nat) : v.ReachesEff (keyErase v d i) := by
  unfold keyErase
  dsimp only
  split
  · exact reachesEff_vrefuse
  · next h =>
    split
    · exact .refl
    · exact .single (.erase i (by simpa using h))

theorem journalFormat_reaches (v : Vault) (d : Dev) : v.ReachesEff (journalFormat v d) :=
  reachesEff_ite reachesEff_error (.single (.format _))

theorem fwRevoke_reaches (v : Vault) (d : Dev) (k : Nat) : v.ReachesEff (fwRevoke v d k) :=
  reachesEff_ite reachesEff_vrefuse (reachesEff_ite reachesEff_vrefuse (.single (.revoke k)))

theorem fwConfirm_reaches (v : Vault) (d : Dev) (s : Nat) : v.Reaches (fwConfirm v d s).1 := .single (.confirm _)

theorem confirmSlot_reaches (v : Vault) (d : Dev) : v.ReachesEff (confirmSlot v d) :=
  reachesEff_ite reachesEff_vrefuse (fwConfirm_reaches v d _)

theorem confirmTime_reaches (v : Vault) (d : Dev) : v.Reaches (confirmTime v d).1 :=
  reaches_ite .refl (fwConfirm_reaches v d _)

theorem keyWrite_reaches (v : Vault) (d : Dev) (who : Who) (i : Nat) (b : Bytes) : v.ReachesEff (keyWrite v d who i b) :=
  reachesEff_ite (keySet_reaches ..) (keySet_reaches ..)

theorem pmuCommand_reaches (v : Vault) (d : Dev) (n : Nat) : v.ReachesEff (pmuCommand v d n) := by
  refine reachesEff_ite .refl (reachesEff_ite (reachesEff_dev _) (reachesEff_ite (reachesEff_dev _) ?_))
  exact reachesEff_ite (reachesEff_dev _) (confirmSlot_reaches v d)

/-! Writes. -/

theorem vaultAct_reaches (v : Vault) (d : Dev) (who : Who) (l : Loc) (n off : Nat) (b : Bytes) :
    v.ReachesEff (vaultAct v d who l n off b) := by
  unfold vaultAct
  refine reachesEff_ite (pmuCommand_reaches v d n) (reachesEff_ite ?_ ?_)
  · exact reachesEff_ite (journalFormat_reaches v d) (reachesEff_ite (reachesEff_dev _) (reachesEff_dev _))
  refine reachesEff_ite (.single (.label l.i b)) ?_
  refine reachesEff_ite ((keyWrite_reaches v d who l.i b).map_dev fun s => endKeySessions s.2 l.i) ?_
  refine reachesEff_ite ((keyErase_reaches v d l.i).map_dev fun s => endKeySessions s.2 l.i) ?_
  refine reachesEff_ite (reachesEff_dev _) (reachesEff_ite (reachesEff_dev _) ?_)
  exact reachesEff_ite (fwRevoke_reaches v d n) (reachesEff_dev _)

theorem partAct_reaches (old : Dev) (who : Who) (p : Part) (v : Vault) (d : Dev) : v.ReachesEff (partAct old who p v d) := by
  unfold partAct
  refine reachesEff_ite .refl (reachesEff_ite (reachesEff_dev _) (reachesEff_ite (reachesEff_dev _) ?_))
  exact reachesEff_ite (reachesEff_dev _) (reachesEff_ite (reachesEff_dev _) (vaultAct_reaches ..))

theorem runParts_reaches (old after : Dev) (who : Who) (all : List Part) :
    (ps : List Part) → (v : Vault) → (d : Dev) → v.ReachesEff (runParts old after who all ps v d)
  | [], v, d => .refl
  | p :: rest, v, d => by
    simp only [runParts]
    split
    · trivial
    · split
      · exact runParts_reaches old after who all rest v d
      · split
        · trivial
        · next s hs => exact ((partAct_reaches old who p v d).of_ok hs).trans_eff (runParts_reaches old after who all rest s.1 s.2)

theorem writeParts_reaches (v : Vault) (d : Dev) (who : Who) (ps : List Part) : v.ReachesEff (writeParts v d who ps) :=
  runParts_reaches ..

theorem writeItems_reaches (v : Vault) (d : Dev) (who : Who) (xs : List Staged) : v.ReachesEff (writeItems v d who xs) := by
  simp only [writeItems]
  split
  · trivial
  · trivial
  · next s hs _ => exact (writeParts_reaches ..).of_ok hs

theorem written_reaches (v : Vault) (d : Dev) {r : Except (Nat × Abort) (Vault × Dev)} (h : v.ReachesEff r) :
    v.Reaches (written v d r).1 := by
  cases r with
  | error => exact .refl
  | ok => exact h

theorem ownerWrite_reaches (v : Vault) (d : Dev) (ps : List Part) : v.Reaches (ownerWrite v d ps).1 :=
  written_reaches v d (writeParts_reaches v d {} ps)

theorem bytesWrite_reaches (v : Vault) (d : Dev) (who : Who) (l : Loc) (off : Option Nat) (b : Bytes) :
    v.Reaches (bytesWrite v d who l off b).1 :=
  written_reaches v d (reachesEff_ite reachesEff_error (reachesEff_ite reachesEff_error (writeParts_reaches ..)))

theorem roleWrite_reaches (v : Vault) (d : Dev) (role : Nat) (p : Part) : v.Reaches (roleWrite v d role p).1 :=
  written_reaches v d (reachesEff_ite reachesEff_error (writeParts_reaches ..))

/-! Operations of the dictionary protocol. -/

theorem atNode_reaches (v : Vault) (d : Dev) (n : Nat) {own : OpOut} (h : v.ReachesOp own) : v.ReachesOp (atNode v d n own) := by
  unfold atNode
  split
  · exact h
  · trivial
  · exact reachesOp_opAbort

theorem readOp_reaches (v : Vault) (d : Dev) (who : Who) (peek : Bool) (a : Addr) : v.ReachesOp (readOp v d who peek a) := by
  unfold readOp
  dsimp only
  split <;> simp

theorem readMulti_reaches (v : Vault) (d : Dev) (who : Who) (peek : Bool) (b : Bytes) (got : List (Nat × Bytes)) :
    v.ReachesOp (readMulti v d who peek b got) := .refl

theorem lockOp_reaches (v : Vault) (d : Dev) (who : Who) (b : Bytes) : v.ReachesOp (lockOp v d who b) := by
  unfold lockOp
  refine reachesOp_ite reachesOp_opBad (reachesOp_ite reachesOp_opAbort ?_)
  dsimp only
  split <;> simp

theorem renewOp_reaches (v : Vault) (d : Dev) (who : Who) (b : Bytes) : v.ReachesOp (renewOp v d who b) := by
  unfold renewOp
  refine reachesOp_ite reachesOp_opBad ?_
  split
  · exact reachesOp_opAbort
  · refine reachesOp_ite reachesOp_opAbort ?_
    split <;> simp

theorem releaseOp_reaches (v : Vault) (d : Dev) (who : Who) (b : Bytes) : v.ReachesOp (releaseOp v d who b) := by
  unfold releaseOp
  refine reachesOp_ite reachesOp_opBad (reachesOp_ite (reachesOp_opOk.mpr .refl) ?_)
  split <;> simp

theorem writeOp_reaches (v : Vault) (d : Dev) (who : Who) (multi : Bool) (xs : List Staged) : v.ReachesOp (writeOp v d who multi xs) := by
  unfold writeOp
  dsimp only
  split
  · split <;> simp
  · split
    · simp
    · next s hs => exact (writeItems_reaches v d who xs).of_ok hs
  · simp

theorem writeRequest_reaches (v : Vault) (d : Dev) (who : Who) (multi : Bool) (b : Bytes) :
    v.ReachesOp (writeRequest v d who multi b) := by
  unfold writeRequest
  split
  · exact reachesOp_ite reachesOp_opAbort (atNode_reaches v d _ (writeOp_reaches ..))
  · exact reachesOp_opBad

theorem commitOp_reaches (v : Vault) (d : Dev) (who : Who) (b : Bytes) : v.ReachesOp (commitOp v d who b) := by
  unfold commitOp
  refine reachesOp_ite reachesOp_opBad ?_
  split
  · exact reachesOp_opAbort
  · refine reachesOp_ite reachesOp_opAbort ?_
    split
    · exact reachesOp_forward
    · dsimp only
      split
      · exact reachesOp_opAbort
      · next hs => exact (writeItems_reaches ..).of_ok hs

theorem blockPiece_reaches (v : Vault) (d : Dev) (who : Who) (b : Bytes) : v.ReachesOp (blockPiece v d who b) := by
  unfold blockPiece
  dsimp only
  split
  · exact reachesOp_opAbort
  · refine reachesOp_ite reachesOp_opAbort (reachesOp_ite reachesOp_opAbort (reachesOp_ite reachesOp_opAbort ?_))
    refine reachesOp_ite (writeOp_reaches ..) ?_
    split
    · exact reachesOp_opAbort
    · exact reachesOp_ite reachesOp_opAbort (reachesOp_ite (writeOp_reaches ..) (reachesOp_opOk.mpr .refl))

theorem blockOp_reaches (v : Vault) (d : Dev) (who : Who) (b : Bytes) : v.ReachesOp (blockOp v d who b) := by
  unfold blockOp
  refine reachesOp_ite reachesOp_opBad (atNode_reaches v d _ (reachesOp_ite ?_ (blockPiece_reaches ..)))
  dsimp only
  split <;> simp

theorem subscribeOp_reaches (v : Vault) (d : Dev) (who : Who) (b : Bytes) : v.ReachesOp (subscribeOp v d who b) := by
  unfold subscribeOp
  refine reachesOp_ite reachesOp_opBad (reachesOp_ite (reachesOp_opOk.mpr .refl) (reachesOp_ite reachesOp_opAbort ?_))
  split <;> simp

theorem replayOp_reaches (v : Vault) (d : Dev) (who : Who) (b : Bytes) : v.ReachesOp (replayOp v d who b) :=
  reachesOp_ite reachesOp_opBad (reachesOp_ite reachesOp_opAbort .refl)

theorem runOp_reaches (v : Vault) (d : Dev) (who : Who) (op : Nat) (b : Bytes) : v.ReachesOp (runOp v d who op b) := by
  unfold runOp
  refine reachesOp_ite (reachesOp_ite reachesOp_opBad (atNode_reaches v d _ (readOp_reaches ..))) ?_
  refine reachesOp_ite (reachesOp_ite reachesOp_opBad ?_) ?_
  · split
    · exact reachesOp_forward
    · exact readMulti_reaches ..
  refine reachesOp_ite (writeRequest_reaches ..) (reachesOp_ite (writeRequest_reaches ..) ?_)
  refine reachesOp_ite (lockOp_reaches ..) (reachesOp_ite (renewOp_reaches ..) ?_)
  refine reachesOp_ite (releaseOp_reaches ..) (reachesOp_ite (commitOp_reaches ..) ?_)
  refine reachesOp_ite (subscribeOp_reaches ..) (reachesOp_ite (replayOp_reaches ..) ?_)
  refine reachesOp_ite (blockOp_reaches ..) (reachesOp_ite ?_ reachesOp_opAbort)
  exact reachesOp_ite (reachesOp_opOk.mpr .refl) reachesOp_opBad

/-! Sessions, and the requests that come around the ring. -/

theorem execute_reaches (v : Vault) (d : Dev) (k op vf cseq src : Nat) (b : Bytes) : v.Reaches (execute v d k op vf cseq src b).1 := by
  unfold execute
  dsimp only
  split
  · next h => exact (reachesOp_ite reachesOp_opBad (runOp_reaches ..)).of_done h
  · exact .refl

theorem runHeld_reaches (k : Nat) : (fuel : Nat) → (v : Vault) → (d : Dev) → v.Reaches (runHeld v d k fuel).1
  | 0, _, _ => .refl
  | fuel + 1, v, d => by
    simp only [runHeld]
    refine reaches_ite .refl ?_
    split
    · exact .refl
    · exact (execute_reaches ..).trans (runHeld_reaches k fuel _ _)

theorem accepted_reaches (v : Vault) (d : Dev) (k op vf cseq ack src : Nat) (b : Bytes) :
    v.Reaches (accepted v d k op vf cseq ack src b).1 := by
  unfold accepted
  refine reaches_ite .refl (reaches_ite ?_ ?_)
  · exact (execute_reaches ..).trans (runHeld_reaches ..)
  · refine reaches_ite .refl (reaches_ite .refl (reaches_ite .refl ?_))
    split <;> exact .refl

theorem resyncMessage_reaches (v : Vault) (d : Dev) (binding src sid cseq : Nat) (head body tag : Bytes) :
    v.Reaches (resyncMessage v d binding src sid cseq head body tag).1 := by
  unfold resyncMessage
  extract_lets keyId rejoin ses here
  clear_value ses
  split
  · exact .refl
  · refine reaches_ite .refl (reaches_ite .refl (reaches_ite .refl (reaches_ite .refl ?_)))
    split <;> exact .refl

theorem receive_reaches (v : Vault) (d : Dev) (binding src : Nat) (m : Bytes) : v.Reaches (receive v d binding src m).1 := by
  unfold receive
  refine reaches_ite .refl (reaches_ite .refl ?_)
  refine reaches_ite .refl (reaches_ite (resyncMessage_reaches ..) ?_)
  split
  · exact .refl
  · exact reaches_ite .refl (reaches_ite .refl (accepted_reaches ..))

theorem request_reaches (v : Vault) (d : Dev) (k ack op : Nat) (b : Bytes) : v.Reaches (request v d k ack op b).1 :=
  reaches_ite .refl (reaches_ite .refl (accepted_reaches ..))

theorem keyRequest_reaches (v : Vault) (d : Dev) (binding src sid key : Nat) (body : Bytes) :
    v.Reaches (keyRequest v d binding src sid key body).1 :=
  reaches_ite .refl (resyncMessage_reaches ..)

theorem farDone_reaches (v : Vault) (d : Dev) (k n op cseq : Nat) (b : Bytes) (err : Bool) (body : Bytes) :
    v.Reaches (farDone v d k n op cseq b err body).1 := by
  unfold farDone
  extract_lets _ _ close
  have hclose : ∀ err body x, v.Reaches (close err body x).1 := fun _ _ _ => runHeld_reaches ..
  refine reaches_ite ?_ (reaches_ite (hclose ..) (reaches_ite (hclose ..) (reaches_ite (hclose ..) ?_)))
  · extract_lets
    split
    · exact .refl
    · split
      · next h => exact ((readMulti_reaches ..).of_done h).trans (runHeld_reaches ..)
      · exact .refl
  · refine reaches_ite ?_ (reaches_ite ?_ (reaches_ite ?_ (hclose ..)))
    · split <;> exact hclose ..
    · split <;> exact hclose ..
    · extract_lets
      split <;> exact hclose ..

theorem dictRsp_reaches (v : Vault) (d : Dev) (n k : Nat) (p : Bytes) : v.Reaches (dictRsp v d n k p).1 := by
  unfold dictRsp
  split
  · exact reaches_ite (farDone_reaches ..) .refl
  · exact .refl

theorem dictReq_reaches (v : Vault) (d : Dev) (aux : Nat) (p : Bytes) : v.Reaches (dictReq v d aux p).1 := by
  unfold dictReq
  refine reaches_ite .refl ?_
  split
  · exact .refl
  · extract_lets
    split
    · exact .refl
    · next h =>
      have hw := (runOp_reaches ..).of_done h
      exact reaches_ite hw hw

/-- A loop whose every round reaches its partition from the one before. -/
theorem foldl_reaches {α : Type} (f : Vault × Dev → α → Vault × Dev) (hf : ∀ (x : Vault × Dev) a, x.1.Reaches (f x a).1) (l : List α)
    (x : Vault × Dev) : x.1.Reaches (l.foldl f x).1 :=
  List.foldlRecOn (motive := fun y : Vault × Dev => x.1.Reaches y.1) l f .refl fun y hy a _ => hy.trans (hf y a)

theorem forUpto_reaches (f : Nat → Vault × Dev → Vault × Dev) (hf : ∀ k (x : Vault × Dev), x.1.Reaches (f k x).1) (n : Nat)
    (x : Vault × Dev) : x.1.Reaches (forUpto n f x).1 :=
  foldl_reaches (fun y k => f k y) (fun y k => hf k y) (List.range n) x

theorem settleOne_reaches (k : Nat) (x : Vault × Dev) : x.1.Reaches (settleOne k x).1 := by
  unfold settleOne
  split
  · exact farDone_reaches ..
  · exact .refl

theorem settle_reaches (v : Vault) (d : Dev) : v.Reaches (settle v d).1 := by
  simp only [settle]
  exact forUpto_reaches settleOne settleOne_reaches 16 (v, d)

/-! Messages and frames that come in. -/

theorem takeInbound_reaches (v : Vault) (d : Dev) : v.Reaches (takeInbound v d).1 :=
  reaches_ite .refl (foldl_reaches _ (fun x m => receive_reaches x.1 x.2 bindSpi 0 m) _ (v, _))

theorem writeMsg_reaches (v : Vault) (d : Dev) (len : Nat) (m : Bytes) : v.Reaches (writeMsg v d len m).1 :=
  reaches_ite .refl (reaches_ite .refl (reaches_ite .refl (takeInbound_reaches ..)))

theorem canSegment_reaches (v : Vault) (d : Dev) (p c : Nat) (f : Bytes) : v.Reaches (canSegment v d p c f).1 := by
  unfold canSegment
  dsimp only
  split
  · exact .refl
  · exact reaches_ite (receive_reaches ..) .refl

theorem canFrame_reaches (v : Vault) (d : Dev) (p id : Nat) (extended : Bool) (f : Bytes) :
    v.Reaches (canFrame v d p id extended f).1 :=
  reaches_ite .refl (reaches_ite .refl (canSegment_reaches ..))

theorem udpIn_reaches (v : Vault) (d : Dev) (i p t src dst : Nat) (b : Bytes) : v.Reaches (udpIn v d i p t src dst b).1 :=
  reaches_ite .refl (reaches_ite .refl (reaches_ite .refl (reaches_ite .refl (reaches_ite (receive_reaches ..) .refl))))

theorem ipIn_reaches (v : Vault) (d : Dev) (i p t : Nat) (b : Bytes) : v.Reaches (ipIn v d i p t b).1 :=
  reaches_ite .refl (reaches_ite .refl (reaches_ite (udpIn_reaches ..)
    (reaches_ite .refl (reaches_ite .refl (reaches_ite .refl .refl)))))

theorem ethFrame_reaches (v : Vault) (d : Dev) (p t : Nat) (good : Bool) (f : Bytes) : v.Reaches (ethFrame v d p t good f).1 := by
  refine reaches_ite .refl (reaches_ite .refl (reaches_ite .refl ?_))
  extract_lets
  exact reaches_ite .refl (reaches_ite (ipIn_reaches ..) (reaches_ite .refl (reaches_ite .refl (reaches_ite .refl .refl))))

theorem packetHere_reaches (x : Vault × Dev) (p typ src aux seq : Nat) (b : Bytes) :
    x.1.Reaches (packetHere x p typ src aux seq b).1 :=
  reaches_ite (dictReq_reaches ..) (reaches_ite (dictRsp_reaches ..) .refl)

theorem packetIn_reaches (x : Vault × Dev) (p : Nat) (out : Option Nat) (b : Bytes) : x.1.Reaches (packetIn x p out b).1 := by
  unfold packetIn
  refine reaches_ite (reaches_ite (packetHere_reaches ..) .refl) (reaches_ite .refl (reaches_ite ?_ ?_))
  · exact reaches_ite (packetHere_reaches ..) .refl
  · extract_lets here y
    have hy : x.1.Reaches y.1 := reaches_ite (packetHere_reaches ..) .refl
    split
    · exact reaches_ite hy hy
    · exact hy

theorem packetsIn_reaches {v : Vault} (p : Nat) (out : Option Nat) : (fuel : Nat) → (x : Vault × Dev) → (b : Bytes) →
    v.Reaches x.1 → v.Reaches (packetsIn fuel x p out b).1
  | 0, _, _, hx => hx
  | fuel + 1, x, b, hx => by
    simp only [packetsIn]
    refine reaches_ite hx (packetsIn_reaches p out fuel _ _ ?_)
    exact reaches_ite (hx.trans (packetIn_reaches ..)) hx

theorem cellIn_reaches (x : Vault × Dev) (p k t : Nat) (c : Bytes) : x.1.Reaches (cellIn x p k t c).1 :=
  reaches_ite .refl (reaches_ite (packetsIn_reaches _ _ 128 _ _ .refl) .refl)

theorem hlFrame_reaches (v : Vault) (d : Dev) (p t sd fwd first : Nat) (cells : List Bytes) :
    v.Reaches (hlFrame v d p t sd fwd first cells).1 := by
  unfold hlFrame
  refine reaches_ite .refl (foldl_reaches _ (fun x e => ?_) _ (v, d))
  exact reaches_ite .refl (cellIn_reaches ..)

/-! Commands. -/

/-- What a command leaves holds a partition reached from the one before. -/
def State.ReachesNext (s : State) : Result → Prop
  | .next t => s.vault.Reaches t.vault
  | _ => True

theorem reachesNext_next {s t : State} : s.ReachesNext (.next t) ↔ s.vault.Reaches t.vault := .rfl

theorem run_reaches (s : State) (f : Vault → Dev → Dev) : s.ReachesNext (run s f) := .refl

theorem runBoth_reaches (s : State) (f : Vault → Dev → Vault × Dev) (hf : ∀ (v : Vault) d, v.Reaches (f v d).1) :
    s.ReachesNext (runBoth s f) :=
  hf _ _

theorem runNet_reaches (s : State) (f : Vault → Dev → Vault × Dev) (hf : ∀ (v : Vault) d, v.Reaches (f v d).1) :
    s.ReachesNext (runNet s f) := by
  simp only [runNet_ready, reachesNext_next, become_vault]
  exact (hf s.vault s.ready).trans (settle_reaches _ _)

/-- Every command changes the keys partition only as `Vault.Change` says: writes of one object, requests and messages that carry
writes, the confirmation of a slot; the others act on the device alone. -/
theorem exec_reaches (c : Instr) (s : State) : s.ReachesNext (exec c s) := by
  cases c with dsimp only [exec]
  | laneEnable | laneAttach | laneRetrain | laneSafeRelease | holdTimeoutWrite | laneDivWrite | channelEnable | channelDisable
  | cascadeEngage | cascadeDisengage | repClear | repBinsWrite | repModeWrite | traceArm | traceForce | traceStop | limitWrite
  | rangePolicyWrite | apertureStart | apertureStop | streamEnable | seqArm | seqStart | seqStop | guardWrite | pointStart
  | pointStop | clearAlarm | releaseOrphans | allOff | relayCountClear | scanArm | scanStart | scanStop | ctbSourceChange
  | ctbReacquire | todSet | todCancel | utcOffsetWrite | leapSchedule | tinLatchClear | tinConfigWrite | tdcArm | tdcStop
  | softEvent | selectorWrite | lutModeWrite | samRestart | samEntryWrite | samCalZero | samCalSpan | samCalAbort | axdArm
  | axdStart | axdStop | axdStep | axdFlush | axdLevel | sessionClose | bindingWrite | store | restore | defaults | erase
  | prpModeWrite | reform | hlEnable | revert | refSelWrite | clockGateWrite | domainOn | domainOff | quiet | pmuRun | standby
  | confirm | coreReset | laneReset | unitReset | faultAck | fcrSafe | recheck | leaveSafe | restoreLane | sealNow | format
  | jrnVerify | ackTo | keyErase | fwBegin | fwVerify | fwInstall | fwAbort | fwRevoke | debugUnlock | debugLock =>
    exact runBoth_reaches s _ fun _ _ => ownerWrite_reaches ..
  | samCalCompute | adopt | calTagWrite | calZero | calMid | calSpan | calCompute | calOut | calAbort =>
    exact runBoth_reaches s _ fun _ _ => roleWrite_reaches ..
  | repDataWrite | segmentTableWrite | listWrite | pointRecordWrite | todCalSet | axdPush | axdTable | faultInject
  | calBlockWrite | keySet | fwImageWrite =>
    exact runBoth_reaches s _ fun _ _ => bytesWrite_reaches ..
  | bootConfirmTime => exact runBoth_reaches s _ confirmTime_reaches
  | read | write | readMulti | writeMulti | peek | lock | renew | release | commit | subscribe | replay | blockRead | blockWrite
  | blockWriteLast | nop =>
    exact runNet_reaches s _ fun _ _ => request_reaches ..
  | openSession | rejoin => exact runNet_reaches s _ fun _ _ => keyRequest_reaches ..
  | writeMsg => exact runNet_reaches s _ fun _ _ => reaches_ite (writeMsg_reaches ..) .refl
  | canFrame => exact runNet_reaches s _ fun _ _ => canFrame_reaches ..
  | ethFrame => exact runNet_reaches s _ fun _ _ => ethFrame_reaches ..
  | hlFrame => exact runNet_reaches s _ fun _ _ => hlFrame_reaches ..
  | dictReq => exact runNet_reaches s _ fun _ _ => dictReq_reaches ..
  | dictRsp => exact runNet_reaches s _ fun _ _ => dictRsp_reaches ..
  | mirrorRefresh => exact runNet_reaches s _ fun _ _ => takeInbound_reaches ..
  | nodeLeft => exact runNet_reaches s _ fun _ _ => .refl
  | _ => exact run_reaches s _

theorem step_reaches {s t : State} (h : step s = .next t) : s.vault.Reaches t.vault := by
  unfold step at h
  split at h
  · cases h
    exact .refl
  · next c rest _ =>
    have hc := exec_reaches c { s with pending := rest }
    rw [h] at hc
    exact hc

/-! Versions and revocations (R550). -/

theorem bit_eq_testBit (v k : Nat) : bit v k = v.testBit k := by
  rw [bit, Nat.testBit_eq_decide_div_mod_eq, Nat.shiftRight_eq_div_pow]
  rfl

theorem bit_setBit (v j k : Nat) : bit (setBit v j) k = (bit v k || decide (j = k)) := by
  simp only [bit_eq_testBit, setBit, Nat.testBit_or, Nat.one_shiftLeft, Nat.testBit_two_pow]

/-- The least security version is no lower, and what was revoked is revoked. -/
structure Vault.Rises (v w : Vault) : Prop where
  minSvn : v.minSvn ≤ w.minSvn
  revoked : ∀ k, bit v.revoked k = true → bit w.revoked k = true

theorem Vault.Rises.trans {u v w : Vault} (h : u.Rises v) (h' : v.Rises w) : u.Rises w :=
  ⟨Nat.le_trans h.minSvn h'.minSvn, fun k hk => h'.revoked k (h.revoked k hk)⟩

theorem Vault.Change.rises {v w : Vault} (h : v.Change w) : v.Rises w := by
  cases h with
  | revoke j => exact ⟨Nat.le_refl _, fun k hk => by rw [bit_setBit, hk, Bool.true_or]⟩
  | confirm svn => exact ⟨Nat.le_max_left .., fun _ => id⟩
  | set | erase | label | format => exact ⟨Nat.le_refl _, fun _ => id⟩

theorem Vault.Reaches.rises {v w : Vault} (h : v.Reaches w) : v.Rises w := by
  induction h with
  | refl => exact ⟨Nat.le_refl _, fun _ => id⟩
  | tail _ hc ih => exact ih.trans hc.rises

/-! The write of a key index. -/

/-- A write of one part whose action is refused leaves the partition and answers the refusal. -/
theorem ownerWrite_refused (v : Vault) (d : Dev) (p : Part) (a : Abort) (h : partCode d (putPart d p) {} [p] false p = none)
    (ha : partAct d {} p v (putPart d p) = .error a) :
    (ownerWrite v d [p]).1 = v ∧ (ownerWrite v d [p]).2.jdp.resp.code = a.code := by
  have hs : superseded p [] = false := by simp [superseded]
  simp [ownerWrite, writeParts, runParts, hs, h, ha]

/-- The write of a key index comes to `fwRevoke`, on the device as it is. -/
theorem partAct_secFwRevoke (old : Dev) (who : Who) (v : Vault) (d : Dev) (key : Fin 4) :
    partAct old who (part1 O.secFwRevoke key) v (putPart d (part1 O.secFwRevoke key)) = fwRevoke v d key := by
  have hkey : leNat (part1 O.secFwRevoke key).data = key := by revert key; decide
  have hact : partAct old who (part1 O.secFwRevoke key) v d = fwRevoke v d (leNat (part1 O.secFwRevoke key).data) := rfl
  rw [putPart_operates d O.secFwRevoke key 0 0 (by decide), hact, hkey]

/-- R550: the key of the running slot, or of the only other valid slot. -/
def KeyInUse (v : Vault) (d : Dev) (k : Nat) : Prop :=
  (fwSlot d d.fw.running ≠ [] ∧ fwKey (fwSlot d d.fw.running) = k) ∨ (fwValid v d (fwOther d) = true ∧ fwKey (fwSlot d (fwOther d)) = k)

theorem fwRevoke_in_use (v : Vault) (d : Dev) (key : Fin 4) (h : KeyInUse v d key) : fwRevoke v d key = .error ⟨aState, 0⟩ := by
  rw [fwRevoke, if_neg (by omega)]
  exact if_pos h

theorem fwRevoke_free (v : Vault) (d : Dev) (key : Fin 4) (h : ¬ KeyInUse v d key) :
    fwRevoke v d key = .ok ({ v with revoked := setBit v.revoked key }, d) := by
  rw [fwRevoke, if_neg (by omega)]
  exact if_neg h

theorem exec_fwRevoke_free {s : State} {key : Fin 4} (ht : s.takes (part1 O.secFwRevoke key)) (h : ¬ KeyInUse s.vault s.ready key) :
    exec (.fwRevoke key) s = .next (s.become ({ s.vault with revoked := setBit s.vault.revoked key }, s.ready.answered)) :=
  congrArg (fun x : Vault × Dev => (.next (s.become x) : Result))
    (ownerWrite_one s.vault s.ready _ _ ht ((partAct_secFwRevoke ..).trans (fwRevoke_free s.vault s.ready key h)))

theorem exec_fwRevoke_in_use {s : State} {key : Fin 4} (ht : s.takes (part1 O.secFwRevoke key)) (h : KeyInUse s.vault s.ready key) :
    ∃ t, exec (.fwRevoke key) s = .next t ∧ t.vault = s.vault ∧ t.dev.jdp.resp.code = aState :=
  ⟨_, rfl, ownerWrite_refused s.vault s.ready _ _ ht ((partAct_secFwRevoke ..).trans (fwRevoke_in_use s.vault s.ready key h))⟩

/-- Settles O6: the only changes of the keys partition that touch a version or a revocation are the confirmation of a slot, which takes
the greater version, and the write of a key index, which sets a bit. -/
theorem versionsAndRevocationsNeverGoBack : Obligations.VersionsAndRevocationsNeverGoBack := by
  refine ⟨fun _ _ _ => rfl, fun s t h => ?_, fun s key ht => ⟨fun hfree => ?_, fun huse => exec_fwRevoke_in_use ht huse⟩⟩
  · have hr := (step_reaches h).rises
    exact ⟨hr.minSvn, hr.revoked⟩
  · have hset : bit (setBit s.vault.revoked key) key = true := by rw [bit_setBit, decide_eq_true rfl, Bool.or_true]
    exact ⟨_, exec_fwRevoke_free ht hfree, hset⟩

end Sys2Proof.Machine

/-! Steps and completion: every command answers a next state with the queue as it is. -/
namespace Sys2Proof.Machine

/-- Settles O1: `step` takes the front command by definition, and what `run`, `runBoth` or `runNet` makes of it is a next state that
differs in the keys partition and the device alone. -/
theorem stepRunsFrontCommand : Obligations.StepRunsFrontCommand := by
  refine fun s c _ => ⟨rfl, ?_⟩
  cases c <;> exact ⟨_, _, rfl⟩

/-- Settles O2. -/
theorem emptyQueueIdles : Obligations.EmptyQueueIdles := fun s h => by rw [step, h]

/-- Settles O3: each value is one of the release of the shipped part. -/
theorem powerOnResetReleasesIntoBoot : Obligations.PowerOnResetReleasesIntoBoot := by
  refine ⟨rfl, rfl, by decide +kernel, powerRelease shippedVault State.reset.ready 0 8388608 true 0, rfl, ?_, ?_, ?_, ?_, ?_, ?_, ?_⟩
  all_goals decide +kernel

/-- Settles O4: slot 0 of the shipped partition holds an OWNER key. -/
theorem resetHoldsAnOwnerKey : Obligations.ResetHoldsAnOwnerKey := by
  show shippedVault.hasOwner = true
  decide

/-! The last OWNER key (R546). -/

theorem Vault.Change.hasOwner {v w : Vault} (h : v.Change w) (hv : v.hasOwner = true) : w.hasOwner = true := by
  cases h with
  | set _ _ h => exact h
  | erase _ h => exact h
  | label | format | revoke | confirm => exact hv

theorem Vault.Reaches.hasOwner {v w : Vault} (h : v.Reaches w) (hv : v.hasOwner = true) : w.hasOwner = true := by
  induction h with
  | refl => exact hv
  | tail _ hc ih => exact hc.hasOwner ih

/-- Settles O5: a key is set or erased only while an OWNER key stays, and the other changes leave the keys. -/
theorem stepsKeepAnOwnerKey : Obligations.StepsKeepAnOwnerKey := fun _ _ hs h => (step_reaches h).hasOwner hs

end Sys2Proof.Machine

namespace Sys2Proof.Machine

/-! Addresses (R392, R393). -/

theorem eq_add_of_strideOf {x base s n k : Nat} (h : strideOf x base s n = some k) : x = base + k * s := by
  unfold strideOf at h
  split at h
  · cases h
  · split at h
    · cases h
      omega
    · split at h
      · cases h
      · split at h
        · next hmod =>
          cases h
          rw [Nat.div_mul_cancel (Nat.dvd_of_mod_eq_zero hmod.1)]
          omega
        · cases h

theorem rowAt_key {index sub i g : Nat} {o : Obj} (h : rowAt index sub o = some (i, g)) : objKey o i g = index * 256 + sub := by
  unfold rowAt at h
  split at h
  · cases h
  · next i' hi =>
    split at h
    · cases h
    · next g' hg =>
      cases h
      rw [objKey, ← eq_add_of_strideOf hi, ← eq_add_of_strideOf hg]

theorem findIn_key {index sub : Nat} {l : Loc} : (os : List Obj) → findIn index sub os = some l → objKey l.o l.i l.g = index * 256 + sub
  | [], h => by cases h
  | o :: os, h => by
    unfold findIn at h
    split at h
    · next i g hr => cases h; exact rowAt_key hr
    · exact findIn_key os h

/-- An address is the key of the cell that it names. -/
theorem lookup_key {index sub : Nat} {l : Loc} (h : lookup index sub = some l) : objKey l.o l.i l.g = index * 256 + sub := by
  unfold lookup at h
  split at h
  · next m hm =>
    split at h
    · cases h
    · cases h; exact findIn_key _ hm
  · cases h

/-- Settles O13: different addresses have different keys. -/
theorem addressesNameTheirOwnCells : Obligations.AddressesNameTheirOwnCells := by
  refine fun d x index sub l hsub hl => ⟨val_put_same .., fun index' sub' m hsub' hm hne => val_put_ne _ _ _ _ _ _ _ _ ?_⟩
  rw [lookup_key hl, lookup_key hm]
  rw [Ne, Prod.mk.injEq] at hne
  omega

/-! The canonical form of the stores. -/

/-- The default of a cell is that of its object, row and group field. -/
theorem cellDflt_key {index sub : Nat} {l : Loc} (hsub : sub < 256) (h : lookup index sub = some l) :
    cellDflt (objKey l.o l.i l.g) = dfltAt l.o l.i l.g := by
  have hi : (index * 256 + sub) / 256 = index := by omega
  have hs : (index * 256 + sub) % 256 = sub := by omega
  rw [lookup_key h, cellDflt, hi, hs, h]

theorem cellsWf_put {d : Dev} (hd : d.cellsWf) {index sub : Nat} {l : Loc} (x : Val) (hsub : sub < 256) (h : lookup index sub = some l) :
    (d.put l.o x l.i l.g).cellsWf := by
  refine ⟨?_, hd.2⟩
  rw [Dev.put, ← cellDflt_key hsub h]
  exact tabWf_set cellDflt d.objs _ x hd.1

theorem memWrite_objs (d : Dev) (n : Nat) : (memWrite d n).1.objs = d.objs := by
  unfold memWrite
  split
  · split <;> rfl
  · rfl

theorem memWrite_bank (d : Dev) (n : Nat) : (memWrite d n).1.bank = d.bank := by
  unfold memWrite
  split
  · split <;> rfl
  · rfl

theorem cellsWf_bankWord {d : Dev} (hd : d.cellsWf) (list : Bool) (k w : Nat) : (bankWord list k w d).cellsWf := by
  obtain ⟨hobjs, hseg, hlist⟩ := hd
  unfold bankWord
  dsimp only
  cases list with
  | true =>
    rw [if_pos rfl]
    refine ⟨?_, ?_, ?_⟩ <;> simp only [memWrite_objs, memWrite_bank]
    · exact hobjs
    · exact hseg
    · exact tabWf_set _ _ k w hlist
  | false =>
    rw [if_neg Bool.false_ne_true]
    refine ⟨?_, ?_, ?_⟩ <;> simp only [memWrite_objs, memWrite_bank]
    · exact hobjs
    · exact tabWf_set _ _ k w hseg
    · exact hlist

theorem cellsWf_bankWrite {d : Dev} (hd : d.cellsWf) (list : Bool) (k : Nat) (ws : List Nat) : (bankWrite list k ws d).cellsWf :=
  List.foldlRecOn (motive := fun a : Dev × Nat => a.1.cellsWf) ws _ hd fun _ ha w _ => cellsWf_bankWord ha list _ w

/-- Settles O14: a put and a write of a word write one key each, in its own default. -/
theorem storesKeepTheirForm : Obligations.StoresKeepTheirForm := by
  refine ⟨by decide +kernel, fun d hd => ⟨fun index sub l x hsub hl => cellsWf_put hd x hsub hl, fun list k ws => cellsWf_bankWrite hd list k ws⟩⟩

/-! Rounding (R18). -/

/-- A right shift takes the quotient, or the next integer when the rest is above one half, or one half beside an odd quotient. -/
theorem roundShift_cases (x : Int) {k : Nat} (hk : 0 < k) : ∃ q r half : Int, x = q * 2 ^ k + r ∧ (2 : Int) ^ k = 2 * half ∧ 0 ≤ r ∧ r < 2 ^ k ∧
    ((half < r ∨ r = half ∧ q % 2 = 1) ∧ roundShift x k = q + 1 ∨
      (r < half ∨ r = half ∧ q % 2 = 0) ∧ roundShift x k = q) := by
  have hpos : (0 : Int) < 2 ^ k := Int.pow_pos (by decide)
  have hhalf : (2 : Int) ^ k = 2 * 2 ^ (k - 1) := by rw [← Int.pow_succ', Nat.sub_add_cancel hk]
  have hx : x = x / 2 ^ k * 2 ^ k + x % 2 ^ k := (Int.ediv_mul_add_emod x _).symm
  have hr : x - x / 2 ^ k * 2 ^ k = x % 2 ^ k := by omega
  refine ⟨x / 2 ^ k, x % 2 ^ k, 2 ^ (k - 1), hx, hhalf, Int.emod_nonneg x (Int.ne_of_gt hpos), Int.emod_lt_of_pos x hpos, ?_⟩
  simp only [roundShift, Nat.ne_of_gt hk, if_false, hr]
  split
  · next h => exact .inl ⟨h, rfl⟩
  · next h => exact .inr ⟨by omega, rfl⟩

theorem roundShift_nearest_even (x : Int) {k : Nat} (hk : 0 < k) :
    2 * (x - roundShift x k * 2 ^ k) ≤ 2 ^ k ∧ -(2 ^ k : Int) ≤ 2 * (x - roundShift x k * 2 ^ k) ∧
      (2 * (x - roundShift x k * 2 ^ k).natAbs = 2 ^ k → roundShift x k % 2 = 0) := by
  obtain ⟨q, r, half, hx, hhalf, h0, h1, hcase⟩ := roundShift_cases x hk
  have hnat : ((2 ^ k : Nat) : Int) = 2 * half := by rw [← hhalf]; push_cast; rfl
  have hup : x - (q + 1) * 2 ^ k = r - 2 ^ k := by rw [hx, Int.add_mul]; omega
  have hdown : x - q * 2 ^ k = r := by rw [hx]; omega
  rcases hcase with ⟨h, hs⟩ | ⟨h, hs⟩
  · rw [hs, hup]; omega
  · rw [hs, hdown]; omega

theorem narrow32_saturates (x : Int) : (2147483647 < x → narrow32 x = 2147483647) ∧ (x < -2147483648 → narrow32 x = -2147483648) ∧
    (-2147483648 ≤ x → x ≤ 2147483647 → narrow32 x = x) := by
  refine ⟨fun h => (if_neg ?_).trans (if_pos h), fun h => if_pos h, fun h h' => (if_neg (Int.not_lt.mpr h)).trans (if_neg (Int.not_lt.mpr h'))⟩
  show ¬ x < -2147483648
  omega

/-- Settles O15. -/
theorem roundingIsToNearestEven : Obligations.RoundingIsToNearestEven :=
  ⟨fun x _ hk => roundShift_nearest_even x hk, fun _ => if_pos rfl, narrow32_saturates⟩

end Sys2Proof.Machine

namespace Sys2Proof.Machine

/-! The times of raises (R502). -/

/-- A new window or threshold empties the ring of its source. -/
theorem writeEffect_rings (old d : Dev) {o : Obj} (ho : o = O.fcrSrcWindow ∨ o = O.fcrSrcThresh) (i g : Nat) :
    (writeEffect old ⟨o, i, g⟩ d).fcr.rings = tabSet [] d.fcr.rings (i * 128 + g) [] := by
  rcases ho with rfl | rfl <;> rfl

theorem clearReset_rings (d : Dev) : (clearReset d).fcr.rings = d.fcr.rings := by
  unfold clearReset
  dsimp only
  split <;> rfl

/-- Settles O11. -/
theorem ringsOfRaisesAreKept : Obligations.RingsOfRaisesAreKept := by
  refine fun d => ⟨clearReset_rings d, rfl, fun o i g ho => ?_⟩
  rw [writeEffect_rings d d ho]
  exact ⟨tabGet_set_same .., fun k hk => tabGet_set_ne _ _ _ _ _ _ (Ne.symm hk)⟩

/-! Refused writes (R375). -/

/-- What an operation of code other than 0 leaves is what it found. -/
def OpOut.RefusedKeeps (v : Vault) (d : Dev) : OpOut → Prop
  | .done r v' d' rep => r.code ≠ 0 → v' = v ∧ d' = d ∧ rep = []
  | .forward _ => True

theorem opAbort_refusedKeeps (v : Vault) (d : Dev) (a : Abort) (item : Nat) : (opAbort v d a item).RefusedKeeps v d :=
  fun _ => ⟨rfl, rfl, rfl⟩

/-- An answer without an abort is no refusal. -/
theorem opOk_refusedKeeps (v v' : Vault) (d d' : Dev) (b : Bytes) : (opOk v' d' b).RefusedKeeps v d :=
  fun h => absurd rfl h

theorem writeOp_refusedKeeps (v : Vault) (d : Dev) (w : Who) (multi : Bool) (xs : List Staged) :
    (writeOp v d w multi xs).RefusedKeeps v d := by
  unfold writeOp
  dsimp only
  split
  · split
    · exact opAbort_refusedKeeps _ _ _ _
    · exact opOk_refusedKeeps _ _ _ _ _
  · split
    · exact opAbort_refusedKeeps _ _ _ _
    · exact opOk_refusedKeeps _ _ _ _ _
  · exact opAbort_refusedKeeps _ _ _ _

/-- Settles O12. -/
theorem refusedWritesChangeNothing : Obligations.RefusedWritesChangeNothing := by
  intro v v' d d' w multi xs r rep h
  have hk := writeOp_refusedKeeps v d w multi xs
  rwa [h] at hk

/-! The keys partition and the role (R21, R546). -/

/-- An outcome that is no abort leaves the partition as it is. -/
def Vault.KeptEff {ε : Type} (v : Vault) : Except ε (Vault × Dev) → Prop
  | .ok x => x.1 = v
  | .error _ => True

/-- The same for an operation of the dictionary protocol. -/
def Vault.KeptOp (v : Vault) : OpOut → Prop
  | .done _ w _ _ => w = v
  | .forward _ => True

section
variable {ε : Type} {v w : Vault} {d : Dev}

theorem keptEff_ite {c : Prop} [Decidable c] {a b : Except ε (Vault × Dev)} (ha : c → v.KeptEff a) (hb : ¬ c → v.KeptEff b) :
    v.KeptEff (if c then a else b) :=
  iteInduction (motive := v.KeptEff) ha hb

/-- An operation on the device alone. -/
theorem keptEff_dev (e : Except ε Dev) : v.KeptEff (e.map fun d => (v, d)) := by
  cases e with
  | error => trivial
  | ok => rfl

theorem keptOp_ite {c : Prop} [Decidable c] {a b : OpOut} (ha : v.KeptOp a) (hb : v.KeptOp b) : v.KeptOp (if c then a else b) :=
  iteInduction (motive := v.KeptOp) (fun _ => ha) fun _ => hb

@[simp] theorem keptOp_forward {n : Nat} : v.KeptOp (.forward n) := trivial
@[simp] theorem keptOp_opOk {b : Bytes} : v.KeptOp (opOk w d b) ↔ w = v := .rfl
@[simp] theorem keptOp_opAbort {a : Abort} {item : Nat} : v.KeptOp (opAbort v d a item) := rfl
@[simp] theorem keptOp_opBad : v.KeptOp (opBad v d) := rfl

end

theorem roleNum_le_writeRole (who : Who) (l : Loc) : roleNum l.o.role ≤ writeRole who l := by
  have h : roleNum l.o.role ≤ 3 := by cases l.o.role <;> decide
  unfold writeRole
  dsimp only
  split
  · exact h
  · split
    · exact h
    · split
      · exact h
      · exact Nat.le_refl _

/-- `pmu.cmd` holds CONFIRM, and the journal its key: what a role below OWNER may write leaves the partition. -/
theorem vaultAct_keeps (v : Vault) (d : Dev) (who : Who) (l : Loc) (n off : Nat) (b : Bytes) (h : roleNum l.o.role < 3) :
    v.KeptEff (vaultAct v d who l n off b) := by
  have owner : ∀ {o : Obj}, l.o = o → ¬ roleNum o.role < 3 → False := fun ho hn => hn (ho ▸ h)
  unfold vaultAct
  refine keptEff_ite (fun ho => (owner ho (by decide)).elim) fun _ => ?_
  refine keptEff_ite (fun ho => (owner ho (by decide)).elim) fun _ => ?_
  refine keptEff_ite (fun ho => (owner ho (by decide)).elim) fun _ => ?_
  refine keptEff_ite (fun ho => (owner ho (by decide)).elim) fun _ => ?_
  refine keptEff_ite (fun ho => (owner ho (by decide)).elim) fun _ => ?_
  refine keptEff_ite (fun _ => keptEff_dev _) fun _ => keptEff_ite (fun _ => keptEff_dev _) fun _ => ?_
  exact keptEff_ite (fun ho => (owner ho (by decide)).elim) fun _ => keptEff_dev _

theorem partAct_keeps (old : Dev) (who : Who) (p : Part) (v : Vault) (d : Dev) (h : roleNum p.l.o.role < 3) :
    v.KeptEff (partAct old who p v d) := by
  unfold partAct
  refine keptEff_ite (fun _ => rfl) fun _ => keptEff_ite (fun _ => keptEff_dev _) fun _ => keptEff_ite (fun _ => keptEff_dev _) fun _ => ?_
  exact keptEff_ite (fun _ => keptEff_dev _) fun _ => keptEff_ite (fun _ => keptEff_dev _) fun _ => vaultAct_keeps _ _ _ _ _ _ _ h

theorem runParts_keeps (old after : Dev) (who : Who) (all : List Part) : (ps : List Part) → (v : Vault) → (d : Dev) →
    (∀ p ∈ ps, roleNum p.l.o.role < 3) → v.KeptEff (runParts old after who all ps v d)
  | [], _, _, _ => rfl
  | p :: rest, v, d, h => by
    obtain ⟨hp, hrest⟩ := List.forall_mem_cons.mp h
    simp only [runParts]
    split
    · trivial
    · split
      · exact runParts_keeps old after who all rest v d hrest
      · have hk := partAct_keeps old who p v d hp
        split
        · trivial
        · next s hs =>
          rw [hs] at hk
          have hk : s.1 = v := hk
          rw [hk]
          exact runParts_keeps old after who all rest v s.2 hrest

/-- No field of a point record is an OWNER's. -/
theorem recordFields_role : ∀ e ∈ recordFields, roleNum e.1.role < 3 := by decide

theorem itemParts_role {k : Nat} {l : Loc} {x : Staged} (h : roleNum l.o.role < 3) : ∀ p ∈ itemParts k l x, roleNum p.l.o.role < 3 := by
  have hview : (oneView l).o = l.o := by unfold oneView; split <;> rfl
  have hself : roleNum (oneView l).o.role < 3 := by rwa [hview]
  unfold itemParts
  dsimp only
  split
  · refine List.forall_mem_cons.mpr ⟨hself, fun p hp => ?_⟩
    obtain ⟨e, he, rfl⟩ := List.mem_map.mp hp
    exact recordFields_role e he
  · exact List.forall_mem_singleton.mpr hself

/-- Conditions 1 to 5 pass no object of an OWNER for a role below. -/
theorem gatherParts_role (d : Dev) (who : Who) (hw : who.role < 3) : (k : Nat) → (xs : List Staged) →
    ∀ p ∈ (gatherParts d who k xs).1, roleNum p.l.o.role < 3
  | _, [] => List.forall_mem_nil _
  | k, x :: xs => by
    unfold gatherParts
    split
    · exact List.forall_mem_nil _
    · next l hl =>
      obtain ⟨-, -, hrole, -⟩ := (itemLoc_eq_ok_iff d who x l).mp hl
      have hl : roleNum l.o.role < 3 := Nat.lt_of_le_of_lt (Nat.le_trans (roleNum_le_writeRole who l) hrole) hw
      intro p hp
      rcases List.mem_append.mp hp with hp | hp
      · exact itemParts_role hl p hp
      · exact gatherParts_role d who hw (k + 1) xs p hp

theorem writeItems_keeps (v : Vault) (d : Dev) (who : Who) (xs : List Staged) (hw : who.role < 3) : v.KeptEff (writeItems v d who xs) := by
  have hk : v.KeptEff (writeParts v d who (gatherParts d who 0 xs).1) := runParts_keeps _ _ _ _ _ _ _ (gatherParts_role d who hw 0 xs)
  simp only [writeItems]
  split
  · trivial
  · trivial
  · next s hs _ => rwa [hs] at hk

section
variable (v : Vault) (d : Dev) (who : Who)

theorem atNode_keeps (n : Nat) {own : OpOut} (h : v.KeptOp own) : v.KeptOp (atNode v d n own) := by
  unfold atNode
  split
  · exact h
  · exact trivial
  · rfl

theorem readOp_keeps (peek : Bool) (a : Addr) : v.KeptOp (readOp v d who peek a) := by
  unfold readOp
  dsimp only
  split <;> rfl

theorem lockOp_keeps (b : Bytes) : v.KeptOp (lockOp v d who b) := by
  unfold lockOp
  refine keptOp_ite rfl (keptOp_ite rfl ?_)
  dsimp only
  split <;> simp

theorem renewOp_keeps (b : Bytes) : v.KeptOp (renewOp v d who b) := by
  unfold renewOp
  refine keptOp_ite rfl ?_
  split
  · rfl
  · refine keptOp_ite rfl ?_
    split <;> simp

theorem releaseOp_keeps (b : Bytes) : v.KeptOp (releaseOp v d who b) := by
  unfold releaseOp
  refine keptOp_ite rfl (keptOp_ite rfl ?_)
  split <;> rfl

theorem subscribeOp_keeps (b : Bytes) : v.KeptOp (subscribeOp v d who b) := by
  unfold subscribeOp
  refine keptOp_ite rfl (keptOp_ite rfl (keptOp_ite rfl ?_))
  split <;> simp

theorem replayOp_keeps (b : Bytes) : v.KeptOp (replayOp v d who b) := keptOp_ite rfl (keptOp_ite rfl rfl)

variable {who}
variable (hw : who.role < 3)
include hw

theorem writeOp_keeps (multi : Bool) (xs : List Staged) : v.KeptOp (writeOp v d who multi xs) := by
  have hk := writeItems_keeps v d who xs hw
  unfold writeOp
  dsimp only
  split
  · split <;> rfl
  · split
    · rfl
    · next s hs => rwa [hs] at hk
  · rfl

theorem writeRequest_keeps (multi : Bool) (b : Bytes) : v.KeptOp (writeRequest v d who multi b) := by
  unfold writeRequest
  split
  · exact keptOp_ite rfl (atNode_keeps v d _ (writeOp_keeps v d hw ..))
  · rfl

theorem commitOp_keeps (b : Bytes) : v.KeptOp (commitOp v d who b) := by
  unfold commitOp
  refine keptOp_ite rfl ?_
  split
  · rfl
  · refine keptOp_ite rfl ?_
    split
    · trivial
    · next k _ _ _ =>
      have hk := writeItems_keeps v d who (d.lock k).staged hw
      dsimp only
      split
      · rfl
      · next s hs => rwa [hs] at hk

theorem blockPiece_keeps (b : Bytes) : v.KeptOp (blockPiece v d who b) := by
  unfold blockPiece
  dsimp only
  split
  · rfl
  · refine keptOp_ite rfl (keptOp_ite rfl (keptOp_ite rfl (keptOp_ite (writeOp_keeps v _ hw ..) ?_)))
    split
    · rfl
    · exact keptOp_ite rfl (keptOp_ite (writeOp_keeps v _ hw ..) rfl)

theorem blockOp_keeps (b : Bytes) : v.KeptOp (blockOp v d who b) := by
  unfold blockOp
  refine keptOp_ite rfl (atNode_keeps v d _ (keptOp_ite ?_ (blockPiece_keeps v d hw b)))
  dsimp only
  split <;> rfl

theorem runOp_keeps (op : Nat) (b : Bytes) : v.KeptOp (runOp v d who op b) := by
  unfold runOp
  refine keptOp_ite (keptOp_ite rfl (atNode_keeps v d _ (readOp_keeps ..))) ?_
  refine keptOp_ite (keptOp_ite rfl ?_) ?_
  · split
    · trivial
    · rfl
  refine keptOp_ite (writeRequest_keeps v d hw ..) (keptOp_ite (writeRequest_keeps v d hw ..) ?_)
  refine keptOp_ite (lockOp_keeps ..) (keptOp_ite (renewOp_keeps ..) (keptOp_ite (releaseOp_keeps ..) ?_))
  refine keptOp_ite (commitOp_keeps v d hw b) (keptOp_ite (subscribeOp_keeps ..) (keptOp_ite (replayOp_keeps ..) ?_))
  exact keptOp_ite (blockOp_keeps v d hw b) (keptOp_ite (keptOp_ite rfl rfl) rfl)

end

/-- Settles O7: the partition changes only by a write of an object whose role is OWNER. -/
theorem onlyAnOwnerChangesKeys : Obligations.OnlyAnOwnerChangesKeys := by
  intro v v' d d' w op b r rep hw h
  have hk := runOp_keeps v d hw op b
  rwa [h] at hk

end Sys2Proof.Machine

/-! How the commands act: the reasoning rules for a command on the device, for the write of an operation and for the write of a
kept value. -/
namespace Sys2Proof.Machine

/-- A command on the device leaves what its operation leaves. -/
theorem next_became {s : State} {d e : Dev} (h : d = e) : (.next (s.became d) : Result) = .next (s.became e) := by rw [h]

theorem next_become {s : State} {x y : Vault × Dev} (h : x = y) : (.next (s.become x) : Result) = .next (s.become y) := by rw [h]

theorem runNet_eq {s : State} {f : Vault → Dev → Vault × Dev} {v : Vault} {e : Dev} (h : f s.vault s.ready = (v, e)) :
    runNet s f = .next (s.become (leaving v e)) := by
  rw [runNet_ready, h]
  rfl

/-- A command written to an object that only operates does what its operation `r` does. -/
theorem runBoth_act {s : State} {o : Obj} {x : Int} {i g : Nat} {r : Eff} {e : Dev} (h : s.takes (part1 o x i g)) (ho : operates o = true)
    (hact : partAct s.ready {} (part1 o x i g) s.vault s.ready = r.map fun d => (s.vault, d)) (hr : r = .ok e) :
    runBoth s (fun v d => ownerWrite v d [part1 o x i g]) = .next (s.wrote e) :=
  runBoth_do s o x i g e h ho (by rw [hact, hr]; rfl)

/-- The same for an operation that may change the keys partition. -/
theorem runBoth_vaultAct {s : State} {o : Obj} {x : Int} {i g : Nat} {v : Vault} {e : Dev} (h : s.takes (part1 o x i g))
    (ho : operates o = true) (hact : partAct s.ready {} (part1 o x i g) s.vault s.ready = .ok (v, e)) :
    runBoth s (fun v d => ownerWrite v d [part1 o x i g]) = .next (s.become (v, e.answered)) := by
  rw [← putPart_operates s.ready o x i g ho] at hact
  rw [runBoth_ready, ownerWrite_one s.vault s.ready _ (v, e) h]
  rwa [putPart_operates s.ready o x i g ho] at hact ⊢

/-- A number written to an object that keeps it leaves what its effect leaves. -/
theorem runBoth_set {s : State} {o : Obj} {x : Int} {i g : Nat} {e : Dev} (h : s.takes (part1 o x i g)) (ho : operates o = false)
    (hb : (o == O.pmuPdBoot) = false) (hp : plainTy o.ty = true) (hf : fits o.ty x = true)
    (he : writeEffect s.ready ⟨o, i, g⟩ (s.ready.setI o x i g) = e) :
    runBoth s (fun v d => ownerWrite v d [part1 o x i g]) = .next (s.put ⟨o, i, g⟩ e) := by
  rw [runBoth_put s o x i g h ho hb hp hf, he]

/-- An object that only operates keeps no bytes. -/
theorem putPart_bytes_operates (d : Dev) (p : Part) (ho : operates p.l.o = true) : putPart d p = d := if_pos ho

/-- The bytes written to an object that only operates do what its operation does. -/
theorem runBoth_bytesAct {s : State} {l : Loc} {off : Option Nat} {b : Bytes} {r : Eff} {e : Dev} (hl : writeLength s.ready l off b = true)
    (hv : oneView l = l) (hr : (l.o == O.ptRecord) = false) (h : s.takes ⟨0, l, b, off⟩) (ho : operates l.o = true)
    (hact : partAct s.ready {} ⟨0, l, b, off⟩ s.vault s.ready = r.map fun d => (s.vault, d)) (he : r = .ok e) :
    runBoth s (fun v d => bytesWrite v d {} l off b) = .next (s.wrote e) :=
  runBoth_bytes s l off b e hl hv hr h (by rw [putPart_bytes_operates _ _ ho, hact, he]; rfl)

/-- The write of an operation by a session of a role. -/
theorem runBoth_roleAct {s : State} {role : Nat} {o : Obj} {x : Int} {i g : Nat} {r : Eff} {e : Dev} (h : s.takesAs role (part1 o x i g))
    (ho : operates o = true)
    (hact : partAct s.ready { role := role } (part1 o x i g) s.vault s.ready = r.map fun d => (s.vault, d)) (hr : r = .ok e) :
    runBoth s (fun v d => roleWrite v d role (part1 o x i g)) = .next (s.wrote e) :=
  runBoth_role s role _ e h.1 h.2 (by rw [putPart_operates _ _ _ _ _ ho, hact, hr]; rfl)

end Sys2Proof.Machine

/-! The Sward link (chapter 2): frames, time-outs, replies and the commands of a lane. -/
namespace Sys2Proof.Machine

/-! Up-frames (R69). -/

/-- The conditions of R69 on the frame that is processed at `d`, `age` frames after it left. -/
def upAccepted (d : Dev) (n : Nat) (aligned inverted : Bool) (age : Nat) (syms : List Sym) : Bool :=
  aligned && inverted == bit (d.lane n).polInForce 1 && symsOk 96 syms && upCrcOk (symBytes 100 syms) &&
    (parseUp (symBytes 100 syms)).fcount == (d.frame - age) % 65536 && decide ((parseUp (symBytes 100 syms)).sstate ≤ ssFault) &&
    decide (age ≤ d.frame)

section
variable {d : Dev} {n : Nat} {aligned inverted : Bool} {age rtt : Nat} {syms : List Sym}

theorem upFrame_silent (h : d.nat O.laneState n = lsOff ∨ (d.lane n).transmitting = false) : upFrame d n aligned inverted age rtt syms = d :=
  if_pos (h.imp id fun ht => by rw [ht]; rfl)

theorem upFrame_unspoiled (hst : d.nat O.laneState n ≠ lsOff) (htx : (d.lane n).transmitting = true)
    (hinj : ∀ x, d.fcr.inject = some x → x.target ≠ 3 ∨ x.unit ≠ n ∨ x.left = 0) :
    upFrame d n aligned inverted age rtt syms =
      if upAccepted d n aligned inverted age syms then d.onLane n fun l =>
        { l with swl := tabPut l.swl (d.frame - age) { parseUp (symBytes 100 syms) with rtt := 400 * rtt } }
      else (d.onLane n fun l => { l with rejectedAt := (d.frame - age) :: l.rejectedAt }).bump O.laneLinkErrUp n := by
  cases hx : d.fcr.inject with
  | none => simp [upFrame, hst, htx, hx, upAccepted]
  | some x =>
    have hno : ¬ (x.target = 3 ∧ x.unit = n ∧ 0 < x.left) := by have := hinj x hx; omega
    simp [upFrame, hst, htx, hx, hno, upAccepted]

theorem upFrame_spoiled {x : Inject} (hst : d.nat O.laneState n ≠ lsOff) (htx : (d.lane n).transmitting = true)
    (hinj : d.fcr.inject = some x) (htarget : x.target = 3) (hunit : x.unit = n) (hleft : 0 < x.left) :
    upFrame d n aligned inverted age rtt syms =
      ({ d with fcr := { d.fcr with inject := if x.left = 1 then none else some { x with left := x.left - 1 } } }.onLane n
        fun l => { l with rejectedAt := (d.frame - age) :: l.rejectedAt }).bump O.laneLinkErrUp n := by
  simp [upFrame, hst, htx, hinj, htarget, hunit, hleft]

end

theorem segmentResend_idle {d : Dev} {n : Nat} (h : (d.lane n).inFlight = false ∨ (d.lane n).txPending = true) : segmentResend d n = d := by
  rcases h with h | h <;> simp [segmentResend, h]

theorem segmentResend_inFlight {d : Dev} {n : Nat} (hin : (d.lane n).inFlight = true) (htx : (d.lane n).txPending = false) :
    segmentResend d n = if (d.lane n).txResends < 8 then
      (d.onLane n fun l => { l with txPending := true, txResends := l.txResends + 1 }).bump O.laneMsgResends n else channelFailed d n := by
  simp [segmentResend, hin, htx, Dev.onLane]

theorem replyTimeout_eq (d : Dev) (n : Nat) : replyTimeout d n = if (d.lane n).request = none then d else channelFailed d n := by
  unfold replyTimeout
  cases (d.lane n).request <;> rfl

/-- Settles O16. -/
theorem linkFramesAndTimeouts : Obligations.LinkFramesAndTimeouts := by
  refine fun s n => ⟨?_, fun h => next_became (segmentResend_idle h), fun hin htx => next_became (segmentResend_inFlight hin htx),
    next_became (replyTimeout_eq s.ready n), rfl, rfl, rfl⟩
  rintro comma aligned inverted age rtt syms b good rfl rfl
  refine ⟨fun h => next_became (upFrame_silent h), fun hst htx hinj => next_became (upFrame_unspoiled hst htx hinj), ?_⟩
  exact fun x hst htx hinj htarget hunit hleft => next_became (upFrame_spoiled hst htx hinj htarget hunit hleft)

/-! Messages of the slice (R63, R75, R76, R78). -/

/-- The lane once the reply to its request has come. -/
def Link.replied (l : Link) : Link := { l with request := none, requestAt := none, txSegs := [], inFlight := false, txPending := false }

section
variable {d : Dev} {n tag : Nat} {b : Bytes} {q : LMsg} (hq : (d.lane n).request = some q)
include hq

theorem onMessage_descData (htag : q.tag = tag) (htyp : q.typ = 1) :
    onMessage d n ⟨0x81, tag, b⟩ = onDescData (d.onLane n Link.replied) n (beField b 0 2) (b.drop 2) := by
  simp [onMessage, hq, htag, htyp, Dev.onLane, Link.replied]

theorem onMessage_status (htag : q.tag = tag) (htyp : q.typ = 2) (hlen : b.length = 72) :
    onMessage d n ⟨0x82, tag, b⟩ = onStatus (d.onLane n Link.replied) n (parseStatus b) := by
  have hfits : ¬ (tag ≠ q.tag ∨ ¬ ((0x82 : Nat) = 0x81 ∧ q.typ = 1 ∨ (0x82 : Nat) = 0x82 ∧ q.typ = 2 ∧ b.length = 72 ∨
      (0x82 : Nat) = 0x83 ∧ beField b 0 1 = q.typ)) := fun h => h.elim (· htag.symm) (· (.inr (.inl ⟨rfl, htyp, hlen⟩)))
  unfold onMessage
  dsimp only
  rw [if_neg (by decide), hq]
  exact if_neg hfits

theorem onMessage_ack (htag : q.tag = tag) (htyp : beField b 0 1 = q.typ) :
    onMessage d n ⟨0x83, tag, b⟩ = onAck (d.onLane n Link.replied) n q (beField b 1 1) := by
  simp [onMessage, hq, htag, htyp, Dev.onLane, Link.replied]

end

/-- Without a request outstanding no reply is taken in. -/
theorem onMessage_unasked {d : Dev} {n : Nat} {m : LMsg} (hq : (d.lane n).request = none) (hm : m.typ ≠ 0x84) : onMessage d n m = d := by
  simp [onMessage, hq, hm]

theorem onMessage_cmdRefused {d : Dev} {n tag : Nat} {b : Bytes} (h : beField b 0 1 = 1) :
    onMessage d n ⟨0x84, tag, b⟩ = d.onLane n fun l => { l with refused := some (beField b 1 1, beField b 2 4 % 65536) } := by
  simp [onMessage, onEvent, h]

theorem laneMessage_eq {d e : Dev} {n : Nat} {m : LMsg} (h : onMessage d n m = e) : laneMessage d n m = autostartAfter n d e := by
  rw [laneMessage, h]

theorem controllerFrame_on {d : Dev} (tick : Nat) (h : d.nat O.devState ≠ 6) :
    controllerFrame d tick = (let e := driftFrame (frameClock d tick)
      let e := calFrame (poolFullFrame (cascadeSweep (frameLanes (seqFrame e e.frame))))
      if e.frame % 20 = 0 then forUpto 96 (fun n x => statusFollow x n) e else e) :=
  if_neg h

/-- Settles O17. -/
theorem framesAndRepliesAreTaken : Obligations.FramesAndRepliesAreTaken := by
  refine fun s => ⟨fun tick h => next_became (controllerFrame_on tick h), fun n tag b q hq htag => ⟨?_, ?_, ?_⟩, fun n tag b hq => ⟨?_, ?_, ?_⟩,
    fun n tag b h => next_became (laneMessage_eq (onMessage_cmdRefused h))⟩
  · exact fun htyp => next_became (laneMessage_eq (onMessage_descData hq htag htyp))
  · exact fun htyp hlen => next_became (laneMessage_eq (onMessage_status hq htag htyp hlen))
  · exact fun htyp => next_became (laneMessage_eq (onMessage_ack hq htag htyp))
  all_goals exact next_became (laneMessage_eq (onMessage_unasked hq (by simp)))

/-! The commands of a lane (R65, R82, R83, R92, R95). -/

theorem laneAttach_lost {d : Dev} {n : Nat} (h : d.nat O.laneState n = lsLost) : laneAttach d n =
    .ok ((d.onLane n fun l => { l.send 2 [] with attach := true, lcmd := lcIdle, descBuf := [] }).setLaneState n lsDescribe) :=
  if_pos h

theorem laneAttach_fault {d : Dev} {n : Nat} (h : d.nat O.laneState n = lsFault) :
    laneAttach d n = .ok ((startTrain d n 1).onLane n fun l => { l with attach := true }) := by
  have hlost : d.nat O.laneState n ≠ lsLost := by rw [h]; decide
  rw [laneAttach, if_neg hlost, if_pos h]

theorem laneRetrain_run {d : Dev} {n : Nat} (h : d.nat O.laneState n = lsRun) : laneRetrain d n = .ok (toRetrain d n) := if_pos h

/-- A slice that is safed whole with its ramps done is released whole. -/
theorem laneSafeRelease_whole {d : Dev} {n : Nat} {x : SStatus} (hrun : d.nat O.laneState n = lsRun) (hdev : d.nat O.devState ≠ 4)
    (hsafe : d.nat O.laneSliceState n = ssSafe) (hx : (d.lane n).status = some x) (hdone : rampsDone (d.lane n).desc x = true) :
    laneSafeRelease d n = .ok (d.onLane n fun l => l.send 5 [0xFF]) := by
  have hdone' : ∀ k < 8, slotPresent (d.lane n).desc k = true → bit (x.slots.getD k ⟨0, 0, 0⟩).flags 2 = true := by
    simpa [rampsDone, ← Bool.not_eq_true, ← Decidable.imp_iff_not_or] using hdone
  have hbar : ¬ ∃ k < 8, slotPresent (d.lane n).desc k = true ∧ bit (x.slots.getD k ⟨0, 0, 0⟩).flags 2 = false := by
    rintro ⟨k, hk, hp, hr⟩
    rw [hdone' k hk hp] at hr
    cases hr
  simp only [List.getD_eq_getElem?_getD] at hbar
  simp [laneSafeRelease, hrun, hdev, hsafe, hx, hbar]
  rfl

/-- Settles O18. -/
theorem laneWritesAct : Obligations.LaneWritesAct := by
  refine fun s n => ⟨fun on h => ?_, fun h hst => ?_, fun h hst => ?_, fun h hst => ?_, fun h hrun hdev hsafe => ?_, fun value hv h => ?_,
    fun value hv h => ?_⟩
  · refine runBoth_set h rfl rfl rfl ?_ ?_
    · cases on <;> decide
    · cases on with
      | true => exact if_pos (on_setB_same ..)
      | false => exact if_neg fun h => Bool.false_ne_true ((on_setB_same s.ready O.laneEnable false n 0).symm.trans h)
  · exact runBoth_act h rfl rfl (laneAttach_lost hst)
  · exact runBoth_act h rfl rfl (laneAttach_fault hst)
  · exact runBoth_act h rfl rfl (laneRetrain_run hst)
  · rintro ⟨x, hx, hdone⟩
    exact runBoth_act h rfl rfl (laneSafeRelease_whole hrun hdev hsafe hx hdone)
  · exact runBoth_set h rfl rfl rfl hv rfl
  · exact runBoth_set h rfl rfl rfl hv rfl

end Sys2Proof.Machine

/-! Channels: enable and disable, cascades, repetitive bins, traces, limits and ranges (chapters 3, 4 and 5). -/
namespace Sys2Proof.Machine

/-! What the shared operations of a channel leave. -/

theorem int_put_ne (d : Dev) (o p : Obj) (v : Val) (i g j k : Nat) (h : objKey o i g ≠ objKey p j k) :
    (d.put o v i g).int p j k = d.int p j k := congrArg numOf (val_put_ne d o p v i g j k h)

theorem nat_put_ne (d : Dev) (o p : Obj) (v : Val) (i g j k : Nat) (h : objKey o i g ≠ objKey p j k) :
    (d.put o v i g).nat p j k = d.nat p j k := congrArg Int.toNat (int_put_ne d o p v i g j k h)

/-- What an object of a family reads after a put in its row. -/
theorem int_put_row (d : Dev) (o p : Obj) (v : Val) (n : Nat) (h : o = p ∨ o.stride = p.stride ∧ o.idx * 256 + o.sub ≠ p.idx * 256 + p.sub) :
    (d.put o v n).int p n = if o = p then numOf v else d.int p n := by
  split
  · next ho => subst ho; exact congrArg numOf (val_put_same ..)
  · next ho => exact int_put_ne _ _ _ _ _ _ _ _ (objKey_ne o p n (h.resolve_left ho).1 (h.resolve_left ho).2)

theorem nat_put_row (d : Dev) (o p : Obj) (v : Val) (n : Nat) (h : o = p ∨ o.stride = p.stride ∧ o.idx * 256 + o.sub ≠ p.idx * 256 + p.sub) :
    (d.put o v n).nat p n = if o = p then (numOf v).toNat else d.nat p n := by
  unfold Dev.nat
  rw [int_put_row d o p v n h]
  split
  · rfl
  · rfl

theorem nat_setN_row (d : Dev) (o p : Obj) (v n : Nat) (h : o = p ∨ o.stride = p.stride ∧ o.idx * 256 + o.sub ≠ p.idx * 256 + p.sub) :
    (d.setN o v n).nat p n = if o = p then v else d.nat p n := nat_put_row d o p _ n h

theorem int_limitSat {d : Dev} {n i g : Nat} {o : Obj} (h : objKey O.chLimitFlags n 0 ≠ objKey o i g) :
    (limitSat d n).int o i g = d.int o i g := by
  unfold limitSat
  split
  · exact int_put_ne d _ _ _ _ _ _ _ h
  · rfl

/-- The objects that `rngPublish` writes. -/
def publishedRng : List Obj := [O.chRngIActive, O.chRngVActive, O.chRngNbr, O.chRngArmCount]

theorem int_rngPublish {d : Dev} {n i g : Nat} {o : Obj} (h : ∀ p ∈ publishedRng, objKey p n 0 ≠ objKey o i g) :
    (rngPublish d n).int o i g = d.int o i g := by
  have hput : ∀ v w x y : Nat, ((((d.setN O.chRngIActive v n).setN O.chRngVActive w n).setN O.chRngNbr x n).setN O.chRngArmCount y n).int o i g =
      d.int o i g := fun v w x y =>
    (int_put_ne _ _ _ _ _ _ _ _ (h _ (by decide))).trans <| (int_put_ne _ _ _ _ _ _ _ _ (h _ (by decide))).trans <|
      (int_put_ne _ _ _ _ _ _ _ _ (h _ (by decide))).trans <| int_put_ne _ _ _ _ _ _ _ _ (h _ (by decide))
  unfold rngPublish
  dsimp only
  split
  · exact hput ..
  · exact hput ..

/-- The loop's own objects, which neither the ranging objects nor the limits' flags touch. -/
def loopObjs : List Obj := [O.chForceLoopState, O.chEnable, O.chEnabledAt, O.chForceIter, O.chRngOverride]

theorem int_published {d : Dev} {n : Nat} {o : Obj} (ho : o ∈ loopObjs) : (rngPublish (limitSat d n) n).int o n = d.int o n := by
  have hkey : ∀ o ∈ loopObjs, ∀ p ∈ O.chLimitFlags :: publishedRng, p.stride = o.stride ∧ p.idx * 256 + p.sub ≠ o.idx * 256 + o.sub := by decide
  have hne : ∀ p ∈ O.chLimitFlags :: publishedRng, objKey p n 0 ≠ objKey o n 0 := fun p hp =>
    objKey_ne p o n (hkey o ho p hp).1 (hkey o ho p hp).2
  rw [int_rngPublish fun p hp => hne p (List.mem_cons_of_mem _ hp), int_limitSat (hne _ List.mem_cons_self)]

theorem memWrites_objs (d : Dev) (n k : Nat) : (memWrites d n k).1.objs = d.objs := by
  unfold memWrites
  split
  · split <;> rfl
  · rfl

theorem memWrites_tod (d : Dev) (n k : Nat) : (memWrites d n k).1.tod = d.tod := by
  unfold memWrites
  split
  · split <;> rfl
  · rfl

theorem memWrites_chans (d : Dev) (n k : Nat) : (memWrites d n k).1.chans = d.chans := by
  unfold memWrites
  split
  · split <;> rfl
  · rfl

theorem now_eq {d e : Dev} (ht : e.tod = d.tod) (hs : e.nat O.todState = d.nat O.todState) : e.now = d.now := by
  unfold Dev.now Dev.stamp Dev.clk
  rw [ht, hs]

theorem now_put (d : Dev) {o : Obj} (v : Val) {i g : Nat} (h : objKey o i g ≠ objKey O.todState 0 0) : (d.put o v i g).now = d.now :=
  now_eq rfl (nat_put_ne _ _ _ _ _ _ _ _ h)

theorem memWrites_now (d : Dev) (n k : Nat) : (memWrites d n k).1.now = d.now :=
  now_eq (memWrites_tod ..) (congrArg (fun t => (numOf (tabGet _ t _)).toNat) (memWrites_objs d n k))

/-- Clearing the bins takes no time. -/
theorem repClear_now (d : Dev) (n : Nat) : (repClear d n).now = d.now := by
  have hrange : objKey O.chRepRange n 0 ≠ objKey O.todState 0 0 := by simp [objKey, O.chRepRange, O.todState]; omega
  have hcycles : objKey O.chRepCycles n 0 ≠ objKey O.todState 0 0 := by simp [objKey, O.chRepCycles, O.todState]; omega
  exact (now_put _ _ hcycles).trans ((now_put _ _ hrange).trans (memWrites_now ..))

/-! Enable and disable (R115, R116). -/

/-- The loop's objects as an enable at `t` into the loop state `st` leaves them. -/
def loopStarted (x : Dev) (n st : Nat) (t : Int) : Dev :=
  (((((x.setN O.chForceLoopState st n).setN O.chEnable 1 n).setI O.chEnabledAt t n).setN O.chForceIter 0 n).setN
    O.chLimitCompState 0 n).setN O.chRngOverride 0 n

theorem int_loopStarted (x : Dev) (n st : Nat) (t : Int) :
    (loopStarted x n st t).int O.chForceLoopState n = st ∧ (loopStarted x n st t).int O.chEnable n = 1 ∧
    (loopStarted x n st t).int O.chEnabledAt n = t ∧ (loopStarted x n st t).int O.chForceIter n = 0 ∧
    (loopStarted x n st t).int O.chRngOverride n = 0 := by
  simp (disch := decide) only [loopStarted, Dev.setN, Dev.setI, int_put_row]
  exact ⟨rfl, rfl, rfl, rfl, rfl⟩

theorem enableChannel_ok {d : Dev} {n : Nat} (hlane : d.nat O.laneState (n / 8) = lsRun) (hst : d.nat O.chForceLoopState n = 0)
    (hslot : slotPresent (d.lane (n / 8)).desc (n % 8) = true) (hsafe : bit (d.lane (n / 8)).safed (n % 8) = false)
    (hr : (startRanges d n).isSome = true) :
    ∃ x : Dev, ∃ t, t = d.now ∧ enableChannel d n =
      .ok (rngPublish (limitSat (loopStarted x n (if chMode d n = 2 then 5 else 1) t) n) n) := by
  obtain ⟨⟨i, v⟩, hiv⟩ := Option.isSome_iff_exists.mp hr
  have hstate : objKey O.chForceLoopState n 0 ≠ objKey O.todState 0 0 := by simp [objKey, O.chForceLoopState, O.todState]; omega
  have hon : objKey O.chEnable n 0 ≠ objKey O.todState 0 0 := by simp [objKey, O.chEnable, O.todState]; omega
  have hready : ¬ (d.nat O.laneState (n / 8) ≠ lsRun ∨ d.nat O.chForceLoopState n ≠ 0 ∨ ¬ slotPresent (d.lane (n / 8)).desc (n % 8) = true ∨
      bit (d.lane (n / 8)).safed (n % 8) = true) := by simp [hlane, hst, hslot, hsafe]
  have hclear : ∀ (c : Prop) [Decidable c], (if c then repClear d n else d).now = d.now := fun c _ => by
    split
    · exact repClear_now d n
    · rfl
  refine ⟨_, _, ?_, (if_neg hready).trans (by rw [hiv]; rfl)⟩
  exact (now_put _ _ hon).trans ((now_put _ _ hstate).trans (hclear _))

theorem chEnableWrite_off {d : Dev} {n : Nat} (hb : chBound d n = false) :
    chEnableWrite d n false = .ok ((disableChannel d n).setN O.chEnable 0 n) := by simp [chEnableWrite, hb]

/-- Settles O19. -/
theorem channelEnableAndDisable : Obligations.ChannelEnableAndDisable := by
  refine fun s n => ⟨fun h hb hlane hst hslot hsafe hr => ?_, fun h hb hst => ?_, fun h hb hst => ?_, fun h hb hst => ?_⟩
  · obtain ⟨x, t, ht, hx⟩ := enableChannel_ok hlane hst hslot hsafe hr
    obtain ⟨hloop, hon, hat, hiter, hover⟩ := int_loopStarted x n (if chMode s.ready n = 2 then 5 else 1) t
    refine ⟨_, runBoth_act (r := chEnableWrite s.ready n true) h rfl rfl ((if_neg (by simp [hb])).trans hx), ?_, ?_, ?_, ?_, ?_⟩
    · exact congrArg Int.toNat ((int_published (by decide)).trans hloop)
    · exact congrArg Int.toNat ((int_published (by decide)).trans hon)
    · rw [int_published (by decide), hat, ht]
    · exact congrArg Int.toNat ((int_published (by decide)).trans hiter)
    · exact congrArg Int.toNat ((int_published (by decide)).trans hover)
  · have hdis : disableChannel s.ready n = (s.ready.setN O.chForceLoopState 3 n).onChan n fun c => { c with drainFirst := true } := if_pos hst
    exact runBoth_act h rfl rfl ((chEnableWrite_off hb).trans (by rw [hdis]))
  · have hopen : s.ready.nat O.chForceLoopState n ≠ 2 := by omega
    have hdis := (if_neg hopen).trans (if_pos hst) (a := disableChannel s.ready n)
    exact runBoth_act h rfl rfl ((chEnableWrite_off hb).trans (by rw [hdis]; rfl))
  · have hdis : disableChannel s.ready n = s.ready := (if_neg (by omega)).trans (if_neg (by omega))
    exact runBoth_act h rfl rfl ((chEnableWrite_off hb).trans (by rw [hdis]))

end Sys2Proof.Machine

/-! Cascades and repetitive bins (chapters 3 and 4), lane traces, limits and range policy (chapters 4 and 5). -/
namespace Sys2Proof.Machine

/-- The effect of a write in the channel pages outside limits and ranging. -/
theorem writeEffect_chan (old d : Dev) {o : Obj} {i g : Nat} (h : 0x3000 ≤ o.idx ∧ o.idx < 0x3010) (hp : o.idx % 16 ≠ 2 ∧ o.idx % 16 ≠ 3) :
    writeEffect old ⟨o, i, g⟩ d = chanEffect d o i g := by
  rw [writeEffect_channel old d o i g h, holdRng_plain old d o i hp]

theorem repClear_bins (d : Dev) (n : Fin 96) : ((repClear d n).chan n).bins = [] :=
  congrArg Chan.bins (chan_setChan (memWrites d (n / 8) (repN (d.nat O.chRepBins n))).1 n _)

theorem int_repClear (d : Dev) (n : Nat) : (repClear d n).int O.chRepRange n = 0xFF ∧ (repClear d n).int O.chRepCycles n = 0 := by
  simp (disch := decide) only [repClear, Dev.setN, int_put_row]
  exact ⟨rfl, rfl⟩

theorem repDataWrite_ok {d : Dev} {n : Nat} {b : Bytes} (hfree : chanRefused d O.chRepData n = false)
    (hlen : b.length = 4 * repN (d.nat O.chRepBins n)) :
    repDataWrite d n b = .ok (((memWrites d (n / 8) (repN (d.nat O.chRepBins n))).1.onChan n fun c =>
        { c with bins := (List.range (repN (d.nat O.chRepBins n))).foldl (fun t j => tabSet 0 t j (leFieldI b (4 * j) 4)) [],
                 binErr := if (memWrites d (n / 8) (repN (d.nat O.chRepBins n))).2.2 = 2 then
                   List.range (memWrites d (n / 8) (repN (d.nat O.chRepBins n))).2.1 else [],
                 binErr1 := if (memWrites d (n / 8) (repN (d.nat O.chRepBins n))).2.2 = 1 then
                   List.range (memWrites d (n / 8) (repN (d.nat O.chRepBins n))).2.1 else [] }).setN O.chRepRange
      (repRangeByte (chMode d n == 1) (if chMode d n == 1 then (d.chan n).iAct else (d.chan n).vAct)) n) := by
  have hok : ¬ chanRefused d O.chRepData n = true := by rw [hfree]; decide
  exact (if_neg hok).trans (if_neg (not_not_intro hlen))

theorem cascadeEngage_valid {d : Dev} {n : Nat} (hfree : chanRefused d O.chCascEngage n = false) (hvalid : cascadeValid d n = true)
    (hloop : d.nat O.chForceLoopState n = 2) (hon : d.on O.chCascEngage n = false) : cascadeEngage d n = .ok (engage d n) := by
  simp [cascadeEngage, hfree, hvalid, hloop, hon]

theorem cascadeDisengage_engaged {d : Dev} {n : Nat} (hfree : chanRefused d O.chCascEngage n = false) (hon : d.on O.chCascEngage n = true) :
    cascadeDisengage d n = .ok (disengage d n false) := by
  simp [cascadeDisengage, hfree, hon]

/-- Settles O20. -/
theorem cascadeAndBinsAct : Obligations.CascadeAndBinsAct := by
  refine fun s n => ⟨fun h hfree hvalid hloop hon => ?_, fun h hfree hon => ?_, fun h => ?_, repClear_bins _ n,
    congrArg Int.toNat (int_repClear _ _).1, congrArg Int.toNat (int_repClear _ _).2, fun value hv h => ?_, fun value hv h => ?_,
    fun b h hl hfree hlen => ?_⟩
  · exact runBoth_act h rfl rfl (cascadeEngage_valid hfree hvalid hloop hon)
  · exact runBoth_act h rfl rfl (cascadeDisengage_engaged hfree hon)
  · exact runBoth_act (r := .ok (repClear s.ready n)) h rfl rfl rfl
  · exact runBoth_set h rfl rfl rfl hv (writeEffect_chan _ _ (by decide) (by decide))
  · exact runBoth_set h rfl rfl rfl hv (writeEffect_chan _ _ (by decide) (by decide))
  · exact runBoth_bytesAct hl rfl rfl h rfl rfl (repDataWrite_ok hfree hlen)

/-! Lane traces (R147, R148). -/

/-- The trace commands of the lane at channel `8 n`. -/
theorem partAct_trace (d : Dev) (n : Nat) (v : Vault) (e : Dev) {x : Nat} (hx : x = 1 ∨ x = 2 ∨ x = 3) :
    partAct d {} (part1 O.chTraceCmd x (8 * n)) v e =
      (if x = 1 then traceArm e n else if x = 2 then traceForce e n else traceStop e n).map fun d => (v, d) := by
  have hn : 8 * n / 8 = n := Nat.mul_div_cancel_left n (by decide)
  rcases hx with rfl | rfl | rfl
  · show (traceArm e (8 * n / 8)).map _ = _
    rw [hn]; rfl
  · show (traceForce e (8 * n / 8)).map _ = _
    rw [hn]; rfl
  · show (traceStop e (8 * n / 8)).map _ = _
    rw [hn]; rfl

/-- What no step of a run of updates changes, the run does not change. -/
theorem foldl_keeps {σ α β : Type} (get : σ → β) {f : σ → α → σ} (hf : ∀ x a, get (f x a) = get x) (l : List α) (x : σ) :
    get (l.foldl f x) = get x := by
  induction l generalizing x with
  | nil => rfl
  | cons a l ih => exact (ih (f x a)).trans (hf x a)

theorem forUpto_keeps {σ β : Type} (get : σ → β) {f : Nat → σ → σ} (hf : ∀ k x, get (f k x) = get x) (n : Nat) (x : σ) :
    get (forUpto n f x) = get x := foldl_keeps get (fun x k => hf k x) _ x

@[simp] theorem put_traces (d : Dev) (o : Obj) (v : Val) (i g : Nat) : (d.put o v i g).traces = d.traces := rfl

/-- The lane's trace cleared and the flags of its channels dropped. -/
def traceCleared (d : Dev) (n : Nat) : Dev :=
  forUpto 8 (fun s x => x.onChan (traceCh n + s) fun c => { c with traceFlags := 0 }) (d.setTrace n {})

theorem traceCleared_objs (d : Dev) (n : Nat) : (traceCleared d n).objs = d.objs := by
  refine forUpto_keeps Dev.objs ?_ 8 _
  exact fun _ _ => rfl

theorem traceCleared_traces (d : Dev) (n : Nat) : (traceCleared d n).traces = d.traces.setIfInBounds n {} := by
  refine forUpto_keeps Dev.traces ?_ 8 _
  exact fun _ _ => rfl

theorem traceArm_idle {d : Dev} {n : Nat} (h : d.nat O.chTraceState (8 * n) = 0 ∨ d.nat O.chTraceState (8 * n) = 4) :
    traceArm d n = .ok (((traceCleared d n).setN O.chTracePreValid 0 (8 * n)).setN O.chTraceState
      (if d.nat O.chTracePre (8 * n) = 0 then 2 else 1) (8 * n)) := by
  have hpre : (traceCleared d n).nat O.chTracePre (8 * n) = d.nat O.chTracePre (8 * n) :=
    congrArg (fun t => (numOf (tabGet _ t _)).toNat) (traceCleared_objs d n)
  rw [← hpre]
  exact if_pos h

theorem traceForce_armed {d : Dev} {n : Nat} (h : d.nat O.chTraceState (8 * n) = 2) :
    traceForce d n = .ok (d.setTrace n { d.trace n with forced := true }) := congrArg Except.ok (if_pos (.inr h))

theorem traceStop_running {d : Dev} {n : Nat} (h : d.nat O.chTraceState (8 * n) = 3) :
    traceStop d n = .ok ((d.setTrace n {}).setN O.chTraceState 0 (8 * n)) :=
  congrArg Except.ok (if_neg (by rw [traceCh, h]; decide))

/-! Limits and range policy (R154, R180). -/

theorem writeEffect_limit (old d : Dev) (n : Nat) (field : LimitField) : writeEffect old ⟨limitObj field, n, 0⟩ d =
    (if field = .absCount then holdRng old (limitObj field) n d
     else limitSat ((holdRng old (limitObj field) n d).onChan n fun c => { c with reselect := true }) n) := by
  rw [writeEffect_channel _ _ _ _ _ (by cases field <;> decide)]
  cases field <;> rfl

/-- The objects whose write starts a policy test. -/
theorem policy_iff (field : RangeField) : [O.chRngIFloor, O.chRngICeil, O.chRngIPin, O.chRngVFloor, O.chRngVCeil, O.chRngVPin].contains (rangeObj field) =
   decide (field = .iFloor ∨ field = .iCeil ∨ field = .iPin ∨ field = .vFloor ∨ field = .vCeil ∨ field = .vPin) := by
  cases field <;> rfl

theorem chanEffect_range (d : Dev) (n : Nat) (field : RangeField) : chanEffect d (rangeObj field) n 0 =
    (if field = .iFloor ∨ field = .iCeil ∨ field = .iPin ∨ field = .vFloor ∨ field = .vCeil ∨ field = .vPin then
       d.onChan n fun c => { c with reselect := true, policyWait := true }
     else d) := by
  have hlimit : [O.chLimitVPos, O.chLimitVNeg, O.chLimitIPos, O.chLimitINeg].contains (rangeObj field) = false := by cases field <;> rfl
  have hforce : [O.chForceVLevel, O.chForceILevel, O.chForceSrc].contains (rangeObj field) = false := by cases field <;> rfl
  have hbins : rangeObj field ≠ O.chRepBins := by cases field <;> decide
  have hcoef : (rangeObj field).idx ≠ 0x3004 := by cases field <;> decide
  simp only [chanEffect, hlimit, policy_iff, hforce, hbins, hcoef, decide_eq_true_eq, Bool.false_eq_true, if_false, false_and]

theorem writeEffect_range (old d : Dev) (n : Nat) (field : RangeField) : writeEffect old ⟨rangeObj field, n, 0⟩ d =
    (if field = .iFloor ∨ field = .iCeil ∨ field = .iPin ∨ field = .vFloor ∨ field = .vCeil ∨ field = .vPin then
       (holdRng old (rangeObj field) n d).onChan n fun c => { c with reselect := true, policyWait := true }
     else holdRng old (rangeObj field) n d) := by
  rw [writeEffect_channel _ _ _ _ _ (by cases field <;> decide), chanEffect_range]

/-- Settles O21. -/
theorem tracesLimitsAndRangesAct : Obligations.TracesLimitsAndRangesAct := by
  refine fun s => ⟨fun n h hst => ?_, fun n h hst => ?_, fun n h hst => ?_, fun n field value hv h => ?_, fun n field value hv h => ?_⟩
  · refine ⟨_, runBoth_act h rfl (partAct_trace _ n _ _ (.inl rfl)) (traceArm_idle hst), nat_setN_same .., ?_, ?_⟩
    · simp (disch := decide) only [nat_setN_row]
      rfl
    · exact (put_traces ..).trans ((put_traces ..).trans (traceCleared_traces ..))
  · exact runBoth_act h rfl (partAct_trace _ n _ _ (.inr (.inl rfl))) (traceForce_armed hst)
  · exact runBoth_act h rfl (partAct_trace _ n _ _ (.inr (.inr rfl))) (traceStop_running hst)
  · refine runBoth_set h ?_ ?_ ?_ hv (writeEffect_limit ..)
    all_goals cases field <;> rfl
  · refine runBoth_set h ?_ ?_ ?_ hv (writeEffect_range ..)
    all_goals cases field <;> rfl

end Sys2Proof.Machine

/-! Sequencers (chapter 7). -/
namespace Sys2Proof.Machine

theorem seqArmCmd_idle {d : Dev} {i : Nat} (hb : chBound d i = false) (hst : d.nat O.seqState i = 0) (hlane : d.nat O.laneState (i / 8) ≠ 0)
    (hsrc : d.nat O.seqStartSrc i ≠ 2) : seqArmCmd d i = .ok (seqArm d i) := by
  simp [seqArmCmd, hb, hst, hlane, lsOff, hsrc]

theorem seqStartCmd_armed {d : Dev} {i : Nat} (hb : chBound d i = false) (hst : d.nat O.seqState i = 1) :
    seqStartCmd d i = .ok (seqBegin d i (d.nat O.seqFirst i) (d.frame + 1)) := by
  simp [seqStartCmd, hb, hst]

/-- A sequencer begun at the next frame. -/
theorem seqBegin_next (d : Dev) (i k : Nat) : seqBegin d i k (d.frame + 1) = seqSetState ((d.setSeqr i
    { first := k, exp := d.nat O.seqExp i, s0 := d.frame + 1 + 3, pre := d.int O.seqValue i, startUp := d.up + 500 }).setI
    O.seqStartTime (d.stamp (frameTime d (d.frame + 1 + 3))) i) i 2 := by
  have hup : (if d.frame ≤ d.frame + 1 then d.up + 500 * (d.frame + 1 - d.frame) else d.up - 500 * (d.frame - (d.frame + 1))) = d.up + 500 := by
    rw [if_pos (Nat.le_succ _), Nat.add_sub_cancel_left, Nat.mul_one]
  show seqSetState ((d.setSeqr i { first := k, exp := d.nat O.seqExp i, s0 := d.frame + 1 + 3, pre := d.int O.seqValue i, startUp := _ }).setI _ _ i)
    i 2 = _
  rw [hup]
  rfl

theorem segTableWrite_ok {d : Dev} {off : Nat} {b : Bytes} (hoff : off % 16 = 0) (hlen : b.length % 16 = 0) (hend : off + b.length ≤ 262144)
    (hseg : segmentsOk (words32 b) = true) : segTableWrite d off b = .ok (bankWrite false (off / 4) (words32 b) d) :=
  if_neg (by simp [hoff, hlen, hseg]; omega)

theorem listWrite_ok {d : Dev} {off : Nat} {b : Bytes} (hoff : off % 4 = 0) (hlen : b.length % 4 = 0) (hend : off + b.length ≤ 2097152) :
    listWrite d off b = .ok (bankWrite true (off / 4) (words32 b) d) :=
  if_neg (by omega)

/-- Settles O23. -/
theorem sequencersAct : Obligations.SequencersAct := by
  refine fun s => ⟨fun n h hb hst hlane hsrc => ?_, fun n h hb hst => ?_, fun n h => ?_, fun off b h hoff hlen hend hseg => ?_,
    fun off b h hoff hlen hend => ?_, fun n g field value hv h => ?_⟩
  · exact runBoth_act h rfl rfl (seqArmCmd_idle hb hst hlane hsrc)
  · exact runBoth_act h rfl rfl ((seqStartCmd_armed hb hst).trans (congrArg Except.ok (seqBegin_next ..)))
  · exact runBoth_act (r := seqStopCmd s.ready n) h rfl rfl rfl
  · exact runBoth_bytesAct rfl rfl rfl h rfl rfl (segTableWrite_ok hoff hlen hend hseg)
  · exact runBoth_bytesAct rfl rfl rfl h rfl rfl (listWrite_ok hoff hlen hend)
  · refine runBoth_set h ?_ ?_ ?_ hv ?_
    all_goals cases field <;> rfl

end Sys2Proof.Machine

/-! What the journal, the notifications and the event matrix leave of the station's objects, and the points (chapter 8). -/
namespace Sys2Proof.Machine

/-- An object of the station: of the clocks, the timing units, the lanes, the channels, the points and the scans (pages 2000 to 5FFF). -/
abbrev stationKey (o : Obj) (i g : Nat) : Prop := 0x200000 ≤ objKey o i g ∧ objKey o i g < 0x600000

/-- `e` reads as `d` at every object of the station. -/
structure Dev.SameStation (d e : Dev) : Prop where
  val {o : Obj} {i g : Nat} : stationKey o i g → e.val o i g = d.val o i g

namespace Dev.SameStation

theorem refl (d : Dev) : d.SameStation d := ⟨fun _ => rfl⟩

theorem trans {d e f : Dev} (h : d.SameStation e) (h' : e.SameStation f) : d.SameStation f :=
  ⟨fun hk => (h'.val hk).trans (h.val hk)⟩

theorem of_objs {d e : Dev} (h : e.objs = d.objs := by rfl) : d.SameStation e :=
  ⟨fun {o i g} _ => congrArg (fun t => tabGet (dfltAt o i g) t _) h⟩

/-- A put outside the station. -/
theorem put {d e : Dev} (h : d.SameStation e) (p : Obj) (v : Val) (j k : Nat) (hp : ¬ stationKey p j k) : d.SameStation (e.put p v j k) :=
  ⟨fun {o i g} hk => (val_put_ne e p o v j k i g fun he => hp (by rw [stationKey, he]; exact hk)).trans (h.val hk)⟩

theorem setN {d e : Dev} (h : d.SameStation e) {p : Obj} {v j k : Nat} (hp : ¬ stationKey p j k := by decide) : d.SameStation (e.setN p v j k) :=
  h.put p _ j k hp

theorem bump {d e : Dev} (h : d.SameStation e) {p : Obj} {j k v : Nat} (hp : ¬ stationKey p j k := by decide) : d.SameStation (e.bump p j k v) :=
  h.put p _ j k hp

theorem flag {d e : Dev} (h : d.SameStation e) {p : Obj} {v j k : Nat} (hp : ¬ stationKey p j k := by decide) : d.SameStation (e.flag p v j k) :=
  h.put p _ j k hp

theorem foldl {α : Type} {f : Dev → α → Dev} {l : List α} (hf : ∀ a ∈ l, ∀ x : Dev, x.SameStation (f x a)) (d : Dev) :
    d.SameStation (l.foldl f d) := by
  induction l generalizing d with
  | nil => exact refl d
  | cons a l ih => exact (hf a List.mem_cons_self d).trans (ih (fun b hb => hf b (List.mem_cons_of_mem _ hb)) (f d a))

theorem forUpto {f : Nat → Dev → Dev} {n : Nat} (hf : ∀ k < n, ∀ x : Dev, x.SameStation (f k x)) (d : Dev) :
    d.SameStation (forUpto n f d) := foldl (fun k hk => hf k (List.mem_range.mp hk)) d

end Dev.SameStation

theorem ringPush_station (r : JRec) (d : Dev) : d.SameStation (ringPush r d) := by
  unfold ringPush
  dsimp only
  split
  · exact .setN .of_objs
  · exact .flag (.bump (.bump .of_objs))

theorem drainToRing_station (d : Dev) : d.SameStation (drainToRing d) := by
  unfold drainToRing
  split
  · exact (Dev.SameStation.foldl (fun r _ x => ringPush_station r x) d).trans .of_objs
  · exact .refl d

theorem stage_station (d : Dev) (r : Bytes) (flt : Bool) : d.SameStation (d.stage r flt).2 := by
  unfold Dev.stage
  dsimp only
  split
  · exact (Dev.SameStation.setN .of_objs).trans (drainToRing_station _)
  · split
    · exact .put (.refl d) O.fcrRecordsLost _ 0 0 (by decide)
    · exact .put (.refl d) O.jrnLost _ 0 0 (by decide)

/-- The objects of the sessions lie below the station's. -/
theorem sesKey_not_station {o : Obj} {k : Nat} (hk : k < 16) (h : o.idx = 0x1110 ∧ o.stride = 1 ∧ o.sub < 0x100) : ¬ stationKey o k 0 := by
  obtain ⟨hidx, hstride, hsub⟩ := h
  unfold stationKey objKey
  rw [hidx, hstride]
  omega

theorem queueNotif_station {k : Nat} (hk : k < 16) (d : Dev) (kind node jseq : Nat) (tail : Bytes) :
    d.SameStation (d.queueNotif k kind node jseq tail).1 := by
  unfold Dev.queueNotif
  dsimp only
  split
  · exact .setN .of_objs (sesKey_not_station hk (by decide))
  · exact .bump .of_objs (sesKey_not_station hk (by decide))

theorem await_station (d : Dev) (x : Await) : d.SameStation (d.await x) := by
  unfold Dev.await
  split
  · exact .of_objs
  · split
    · exact .bump .of_objs
    · exact .bump .of_objs

theorem notify_station (d : Dev) (p : Sub → Bool) (kind node jseq : Nat) (tail : Bytes) : d.SameStation (d.notify p kind node jseq tail) := by
  unfold Dev.notify
  split
  · dsimp only
    split
    · exact .refl d
    · exact await_station ..
  · refine .forUpto (fun k hk x => ?_) d
    split
    · exact queueNotif_station hk ..
    · exact .refl x

/-! Alarms of a point (R236). -/

theorem alarmChange_same (d : Dev) (p chA seqA dest : Nat) (v : Int) : alarmChange d p (d.nat O.ptAlarmState p) chA seqA dest v = d := if_pos rfl

/-- A change of the alarm puts its state, counts it, and leaves the rest of the station. -/
theorem alarmChange_new {d : Dev} {p new chA seqA dest : Nat} {v : Int} (h : new ≠ d.nat O.ptAlarmState p) :
    ∃ k, Dev.SameStation ((d.setN O.ptAlarmState new p).setN O.pscAlarms k) (alarmChange d p new chA seqA dest v) := by
  have hstage : ∀ (e : Dev) r, e.SameStation (if bit dest 0 = true then (e.stage r false).2 else e) := fun e r => by
    split
    · exact stage_station ..
    · exact .refl e
  have hnotify : ∀ (e : Dev) q node tail, e.SameStation (if bit dest 1 = true then e.notify q 2 node 0 tail else e) := fun e q node tail => by
    split
    · exact notify_station ..
    · exact .refl e
  unfold alarmChange
  dsimp only
  rw [if_neg h]
  exact ⟨_, .trans .of_objs ((hstage _ _).trans (hnotify _ _ _ _))⟩

theorem ptKey_station {o : Obj} {p g : Nat} (hp : p < 4096) (ho : o.idx = 0x4000 ∧ o.stride = 1 ∧ o.sub + g * o.gstride < 256) :
    stationKey o p g := by
  obtain ⟨hidx, hstride, hsub⟩ := ho
  unfold stationKey objKey
  rw [hidx, hstride]
  omega

theorem ptKey_ne {o q : Obj} {p g : Nat} (ho : o.idx = 0x4000 ∧ o.stride = 1 ∧ o.sub + g * o.gstride < 0x30)
    (hq : q.idx = 0x4000 ∧ q.stride = 1 ∧ 0x30 ≤ q.sub ∧ q.sub < 256) : objKey q p 0 ≠ objKey o p g := by
  obtain ⟨hidx, hstride, hsub⟩ := ho
  obtain ⟨hidx', hstride', hsub', -⟩ := hq
  unfold objKey
  rw [hidx, hstride, hidx', hstride']
  omega

theorem ptKey_ne_alarms {o : Obj} {p g : Nat} (hp : p < 4096) (ho : o.idx = 0x4000 ∧ o.stride = 1 ∧ o.sub + g * o.gstride < 256) :
    objKey O.pscAlarms 0 0 ≠ objKey o p g := by
  obtain ⟨hidx, hstride, hsub⟩ := ho
  unfold objKey
  rw [hidx, hstride]
  simp [O.pscAlarms]
  omega

/-- The alarm of the point reads NORMAL with no votes. -/
def alarmCleared (d : Dev) (p : Nat) : Prop := d.nat O.ptAlarmState p = 0 ∧ d.nat O.ptAlarmVotes p = 0

theorem alarmChange_state {d : Dev} {p new chA seqA dest : Nat} {v : Int} (hp : p < 4096) :
    (alarmChange d p new chA seqA dest v).nat O.ptAlarmState p = new := by
  by_cases h : new = d.nat O.ptAlarmState p
  · rw [h, alarmChange_same]
  · obtain ⟨k, hk⟩ := alarmChange_new (chA := chA) (seqA := seqA) (dest := dest) (v := v) h
    unfold Dev.nat Dev.int
    rw [hk.val (ptKey_station hp (by decide)), Dev.setN, val_put_ne _ _ _ _ _ _ _ _ (ptKey_ne_alarms hp (by decide)), Dev.setN, val_put_same]
    rfl

theorem clearAlarm_cleared (d : Dev) {p : Nat} (hp : p < 4096) : alarmCleared (clearAlarm d p) p := by
  refine ⟨?_, nat_setN_same ..⟩
  rw [clearAlarm, nat_setN_row _ _ _ _ _ (by decide)]
  exact alarmChange_state hp

/-- Clearing the alarm leaves the point's record. -/
theorem val_clearAlarm (d : Dev) {o : Obj} {p g : Nat} (hp : p < 4096) (ho : o.idx = 0x4000 ∧ o.stride = 1 ∧ o.sub + g * o.gstride < 0x30) :
    (clearAlarm d p).val o p g = d.val o p g := by
  have hwide : o.idx = 0x4000 ∧ o.stride = 1 ∧ o.sub + g * o.gstride < 256 := ⟨ho.1, ho.2.1, by omega⟩
  rw [clearAlarm, Dev.setN, val_put_ne _ _ _ _ _ _ _ _ (ptKey_ne ho (by decide))]
  by_cases h : 0 = d.nat O.ptAlarmState p
  · rw [h, alarmChange_same]
  · obtain ⟨k, hk⟩ := alarmChange_new (chA := d.nat O.ptUsed p % 256) (seqA := 0xFFFFFFFF) (dest := d.nat O.ptDest p) (v := d.int O.ptEng p) h
    rw [hk.val (ptKey_station hp hwide), Dev.setN, val_put_ne _ _ _ _ _ _ _ _ (ptKey_ne_alarms hp hwide), Dev.setN,
      val_put_ne _ _ _ _ _ _ _ _ (ptKey_ne ho (by decide))]

/-! The record of a point (R421). -/

theorem sharedWrite_objs (l : Loc) (d : Dev) : (sharedWrite l d).objs = d.objs := by
  unfold sharedWrite
  split
  · rfl
  · dsimp only
    split
    · exact memWrite_objs d 13
    · exact memWrite_objs d 13

/-- The objects outside the points that `writeEffect` asks for by name. -/
def namedEffects : List Obj := [O.laneEnable, O.laneHoldTimeout, O.resStreamEnable, O.hlEnable, O.hlRole, O.clkRefSel, O.clkGate, O.fcrSrcWindow,
  O.fcrSrcThresh, O.ctbSrc, O.ctbEvtEnable, O.ctbTin, O.ctbMon, O.ctbEncCpr, O.todSrcOrder, O.todUtcOffset, O.ermInSel, O.ermLutFf, O.ermLutFilter,
  O.ermLutClk, O.samECfg, O.axdLevel, O.axdMode, O.rbEnable]

/-- A field of a point's record acts on the alarm alone. -/
theorem writeEffect_point (old d : Dev) {o : Obj} {p g : Nat} (ho : o.idx = 0x4000) :
    writeEffect old ⟨o, p, g⟩ d = if alarmFields.contains o then clearAlarm d p else d := by
  have hne : ∀ q ∈ namedEffects, o ≠ q := by
    have hidx : ∀ q ∈ namedEffects, q.idx ≠ 0x4000 := by decide
    rintro q hq rfl
    exact hidx o hq ho
  simp only [namedEffects, List.forall_mem_cons] at hne
  simp [writeEffect, stationEff, hne, ho]

/-- The cells of a point's record lie below its status. -/
theorem recordFields_cells : ∀ f ∈ recordFields, operates f.1 = false ∧ f.1.idx = 0x4000 ∧ f.1.stride = 1 ∧ f.1.sub + f.2.1 * f.1.gstride < 0x30 := by
  decide

/-- What one part of a record's write makes of the device `d`. -/
structure RecordStep (p : Nat) (alarm : Bool) (d e : Dev) : Prop where
  val : ∀ f ∈ recordFields, e.val f.1 p f.2.1 = d.val f.1 p f.2.1
  cleared : alarm = true ∨ alarmCleared d p → alarmCleared e p

theorem RecordStep.of_objs {p : Nat} {d e : Dev} (h : e.objs = d.objs) : RecordStep p false d e where
  val f _ := congrArg (fun t => tabGet (dfltAt f.1 p f.2.1) t _) h
  cleared := by
    rintro (ha | ⟨hs, hv⟩)
    · cases ha
    · exact ⟨(congrArg (fun t => (numOf (tabGet _ t _)).toNat) h).trans hs, (congrArg (fun t => (numOf (tabGet _ t _)).toNat) h).trans hv⟩

theorem RecordStep.trans {p : Nat} {a b : Bool} {d e f : Dev} (h : RecordStep p a d e) (h' : RecordStep p b e f) : RecordStep p (a || b) d f where
  val x hx := (h'.val x hx).trans (h.val x hx)
  cleared hc := h'.cleared (by
    cases b with
    | true => exact .inl rfl
    | false => exact .inr (h.cleared (by simpa using hc)))

/-- A field of the record comes into force, and a field of the alarm clears it. -/
theorem partAct_field (old d : Dev) (v : Vault) {p : Nat} (hp : p < 4096) {f : Obj × Nat × Nat × Nat} (hf : f ∈ recordFields) {b : Bytes} :
    ∃ e, partAct old {} ⟨0, ⟨f.1, p, f.2.1⟩, b, none⟩ v d = .ok (v, e) ∧ RecordStep p (alarmFields.contains f.1) d e := by
  obtain ⟨hop, hidx, -, -⟩ := recordFields_cells f hf
  refine ⟨sharedWrite ⟨f.1, p, f.2.1⟩ (writeEffect old ⟨f.1, p, f.2.1⟩ d), by simp [partAct, hop], ?_⟩
  have hshared := RecordStep.of_objs (p := p) (sharedWrite_objs ⟨f.1, p, f.2.1⟩ (writeEffect old ⟨f.1, p, f.2.1⟩ d))
  have heffect : RecordStep p (alarmFields.contains f.1) d (writeEffect old ⟨f.1, p, f.2.1⟩ d) := by
    rw [writeEffect_point old d hidx]
    split
    · exact ⟨fun x hx => val_clearAlarm d hp (recordFields_cells x hx).2, fun _ => clearAlarm_cleared d hp⟩
    · next ha =>
      rw [Bool.eq_false_iff.mpr ha]
      exact .of_objs rfl
  have hboth := heffect.trans hshared
  rwa [Bool.or_false] at hboth

/-- Distinct parts of a write in order: each comes into force. -/
theorem runParts_record {old after : Dev} {v : Vault} {p : Nat} {ps : List Part} {alarm : Part → Bool} {l : List Part}
    (hact : ∀ q ∈ l, ∀ d, ∃ e, partAct old {} q v d = .ok (v, e) ∧ RecordStep p (alarm q) d e)
    (hcode : ∀ q ∈ l, partCode old after {} ps false q = none) (hloc : (l.map Part.l).Nodup) (d : Dev) :
    ∃ e, runParts old after {} ps l v d = .ok (v, e) ∧ RecordStep p (l.any alarm) d e := by
  induction l generalizing d with
  | nil => exact ⟨d, rfl, .of_objs rfl⟩
  | cons q l ih =>
    obtain ⟨hq, hl⟩ := List.nodup_cons.mp hloc
    obtain ⟨x, hx, hstep⟩ := hact q List.mem_cons_self d
    obtain ⟨e, he, hrest⟩ := ih (fun r hr => hact r (List.mem_cons_of_mem _ hr)) (fun r hr => hcode r (List.mem_cons_of_mem _ hr)) hl x
    have hskip : superseded q l = false := by
      have hany : (l.any fun r => r.l == q.l) = false := by
        simpa [List.any_eq_false] using fun r hr he => hq (List.mem_map.mpr ⟨r, hr, he⟩)
      rw [superseded, hany, Bool.and_false]
    refine ⟨e, ?_, hstep.trans hrest⟩
    simp [runParts, hskip, hcode q List.mem_cons_self, hx, he]

/-- The cells that the parts of a record write are distinct. -/
theorem recordParts_nodup (p : Nat) (x : Staged) : ((itemParts 0 ⟨O.ptRecord, p, 0⟩ x).map Part.l).Nodup := by
  have hcells : ((O.ptRecord, 0) :: recordFields.map fun f => (f.1, f.2.1)).Nodup := by decide
  refine List.Pairwise.of_map (S := (· ≠ ·)) (fun l : Loc => (l.o, l.g)) (fun a b hne h => hne (congrArg (fun l : Loc => (l.o, l.g)) h)) ?_
  rw [itemParts, if_pos rfl, List.map_cons, List.map_cons, List.map_map, List.map_map]
  exact hcells

end Sys2Proof.Machine

/-! Points: their commands, the dispatch pass, the write of a record (chapter 8). -/
namespace Sys2Proof.Machine

theorem ptRequest_busy {d : Dev} {p requester pos : Nat} (h : d.nat O.ptState p ≠ 0) :
    ptRequest d p requester pos = (d.bump O.ptSkips p).setN O.ptStatus 13 p := if_pos h

theorem ptRequest_unreadable {d : Dev} {p requester pos : Nat} (h : d.nat O.ptState p = 0)
    (hbad : (d.bank.oneBad.filter fun k => k / 256 == 0x4000 + p) ≠ []) :
    ptRequest d p requester pos = ptEnd (d.raise 50 0 1 2 true) p 12 :=
  (if_neg (not_not_intro h)).trans (if_pos hbad)

theorem ptRequest_valid {d : Dev} {p requester pos : Nat} (h : d.nat O.ptState p = 0) (hvalid : (ptCfgOf d p).valid = true)
    (hbad : (d.bank.oneBad.filter fun k => k / 256 == 0x4000 + p) = []) (hfix : (d.bank.oneFix.filter fun k => k / 256 == 0x4000 + p) = []) :
    ptRequest d p requester pos = pscRefresh (ptSet (d.setRun p
      { cfg := ptCfgOf d p, reqFrame := d.frame, reqTime := d.up, requester := requester, pos := pos }) p 1) := by
  simp [ptRequest, h, hvalid, hbad, hfix]

theorem ptStop_waiting {d : Dev} {p : Nat} (h : d.nat O.ptState p = 1) : ptStop d p = ptEnd d p 8 := by
  simp [ptStop, h]

theorem ptStop_active {d : Dev} {p : Nat} (h : 2 ≤ d.nat O.ptState p) (h' : d.nat O.ptState p ≤ 6) : ptStop d p = ptLeave d p 8 :=
  (if_neg (by omega)).trans (if_neg (by omega))

theorem pointWindowExpiry_run {d : Dev} {p : Nat} {r : PtRun} (hr : d.run? p = some r) :
    pointWindowExpiry d p = if d.nat O.ptState p = 1 ∧ r.cfg.window ≠ 0 then ptEnd d p 2 else d := by
  simp [pointWindowExpiry, hr]

theorem pointWindowExpiry_idle {d : Dev} {p : Nat} (hr : d.run? p = none) : pointWindowExpiry d p = d := by
  simp [pointWindowExpiry, hr]

/-- The dispatcher's pass once its domain has not been reset. -/
def passOf (d : Dev) : Dev :=
  let d := d.setB O.pscSuspended (pscSuspended d)
  let d := d.psc.runs.foldl (fun x e => ptProgress x e.1) d
  let d := forUpto 256 (fun n x => scanPending x n) d
  let d := d.psc.runs.foldl (fun x e => if x.nat O.ptState e.1 = 1 ∧ ptRefused x e.2.cfg then ptEnd x e.1 9 else x) d
  if pscSuspended d then pscRefresh d
  else pscRefresh ((sortReqs (d.psc.runs.filter fun e => d.nat O.ptState e.1 == 1)).foldl passOne
    { start := d, dev := d, held := heldResources d }).dev

theorem dispatchPass_eq (d : Dev) :
    dispatchPass d = if !bit (d.nat O.pmuPdState) 14 then d else passOf (if d.psc.resetPend then pscReset d else d) := by
  simp only [dispatchPass, passOf]

theorem dispatchPass_on {d : Dev} (hon : bit (d.nat O.pmuPdState) 14 = true) (hpend : d.psc.resetPend = false) :
    dispatchPass d = passOf d := by
  have hreset : (if d.psc.resetPend then pscReset d else d) = d := if_neg (by rw [hpend]; decide)
  rw [dispatchPass_eq, if_neg (by rw [hon]; decide), hreset]

/-- A point's record that passes its conditions comes into force, and clears the alarm. -/
theorem pointRecord_write (s : State) (p : Fin 4096) (b : Bytes) {ps : List Part} {after : Dev}
    (hps : ps = itemParts 0 ⟨O.ptRecord, p, 0⟩ ⟨O.ptRecord.idx, O.ptRecord.sub, tyCode O.ptRecord.ty, none, b⟩)
    (hafter : after = ps.foldl putPart s.ready) (hlen : writeLength s.ready ⟨O.ptRecord, p, 0⟩ none b = true)
    (hcode : ∀ q ∈ ps, partCode s.ready after {} ps false q = none) :
    ∃ e, exec (.pointRecordWrite p b) s = .next (s.wrote e) ∧ RecordStep p true after e := by
  have hact : ∀ q ∈ ps, ∀ d, ∃ e, partAct s.ready {} q s.vault d = .ok (s.vault, e) ∧ RecordStep p (alarmFields.contains q.l.o) d e := by
    subst hps
    rw [itemParts, if_pos rfl]
    rintro q hq d
    rcases List.mem_cons.mp hq with rfl | hq
    · exact ⟨d, rfl, .of_objs rfl⟩
    · obtain ⟨f, hf, rfl⟩ := List.mem_map.mp hq
      exact partAct_field s.ready d s.vault p.isLt hf
  obtain ⟨e, he, hstep⟩ := runParts_record hact hcode (hps ▸ recordParts_nodup p _) after
  have hany : (ps.any fun q => alarmFields.contains q.l.o) = true := by
    have hmaj : (O.ptAlarmMaj, 0, 108, 1) ∈ recordFields := by decide
    rw [hps, itemParts, if_pos rfl]
    exact List.any_eq_true.mpr ⟨_, List.mem_cons_of_mem _ (List.mem_map.mpr ⟨_, hmaj, rfl⟩), rfl⟩
  rw [hany] at hstep
  refine ⟨e, ?_, hstep⟩
  show runBoth s (fun v d => bytesWrite v d {} ⟨O.ptRecord, p, 0⟩ none b) = _
  subst hafter hps
  simp only [runBoth_ready, bytesWrite, Nat.not_lt.mpr (writeRole_le {} _), if_false, hlen, Bool.not_true, Bool.false_eq_true, writeParts, he,
    written]
  rfl

/-- Settles O24. -/
theorem pointsAct : Obligations.PointsAct := by
  refine fun s p => ⟨fun h hst => ?_, fun h hst hbad => ?_, fun h hst hvalid hbad hfix => ?_, fun h hst => ?_, fun h hlo hhi => ?_, fun h => ?_,
    fun hon hpend => ?_, fun r hr => ?_, fun hr => ?_, fun b ps after hps hafter hlen hcode => ?_⟩
  · exact runBoth_act (r := .ok (ptRequest s.ready p 256 0)) h rfl rfl (congrArg Except.ok (ptRequest_busy hst))
  · exact runBoth_act (r := .ok (ptRequest s.ready p 256 0)) h rfl rfl (congrArg Except.ok (ptRequest_unreadable hst hbad))
  · exact runBoth_act (r := .ok (ptRequest s.ready p 256 0)) h rfl rfl (congrArg Except.ok (ptRequest_valid hst hvalid hbad hfix))
  · exact runBoth_act (r := .ok (ptStop s.ready p)) h rfl rfl (congrArg Except.ok (ptStop_waiting hst))
  · exact runBoth_act (r := .ok (ptStop s.ready p)) h rfl rfl (congrArg Except.ok (ptStop_active hlo hhi))
  · exact ⟨_, runBoth_act (r := .ok (clearAlarm s.ready p)) h rfl rfl rfl, clearAlarm_cleared s.ready p.isLt⟩
  · refine next_became ((dispatchPass_on hon hpend).trans ?_)
    simp only [passOf]
  · exact next_became (pointWindowExpiry_run hr)
  · exact next_became (pointWindowExpiry_idle hr)
  · obtain ⟨e, he, hstep⟩ := pointRecord_write s p b hps hafter hlen hcode
    obtain ⟨hstate, hvotes⟩ := hstep.cleared (.inl rfl)
    exact ⟨e, he, hstate, hvotes, hstep.val⟩

/-! The times of a point's run (R240, R242, R243). -/

section
variable {d : Dev} {p : Nat} {r : PtRun} (hr : d.run? p = some r)
include hr

theorem pathTime_next {e : PathEntry} (hwait : r.pwait = .time) (hmake : r.making = true) (hat : r.cfg.path[r.step]? = some e)
    (hmore : r.step + 1 < r.cfg.path.length) :
    pathTime d p = rbPush (pathChange d p (r.step + 1) true) (.read (driverOf e.relay) (.path p e.relay false) 0) := by
  simp [pathTime, hr, hwait, hmake, hat, hmore]

theorem pathSettleEnd_made (hst : d.nat O.ptState p = 2) (hmade : r.made = r.cfg.path.length) (hlatch : r.pwait ≠ .latch)
    (htime : r.pwait ≠ .time) : pathSettleEnd d p = ptProgress (d.setRun p { r with settled := true }) p := by
  simp [pathSettleEnd, hr, hst, hmade, hlatch, htime]

theorem ptSettled_settling (hst : d.nat O.ptState p = 4) : ptSettled d p =
    if r.cfg.apStart = 1 then (ptSet d p 5).setRun p { r with awaitEdge := true } else ptApStart (ptSet d p 5) p (ptSet d p 5).clk := by
  simp [ptSettled, hr, hst]

theorem pointListenTimeout_done (hst : d.nat O.ptState p = 6) (hseq : d.nat O.seqState r.chA = 3) : pointListenTimeout d p = ptLeave d p 7 := by
  simp [pointListenTimeout, hr, hst, hseq]

end

/-- Settles O25. -/
theorem pointTimesAct : Obligations.PointTimesAct := by
  refine fun s p r hr => ⟨fun e hwait hmake hat hmore => ?_, fun hst hmade hlatch htime => ?_, fun hst hedge => ?_, fun hst hnow => ?_,
    fun hst hseq => ?_⟩
  · exact next_became (pathTime_next hr hwait hmake hat hmore)
  · exact next_became (pathSettleEnd_made hr hst hmade hlatch htime)
  · exact next_became ((ptSettled_settling hr hst).trans (if_pos hedge))
  · exact next_became ((ptSettled_settling hr hst).trans (if_neg (by omega)))
  · exact next_became (pointListenTimeout_done hr hst hseq)

end Sys2Proof.Machine

/-! The relay bus and the scans (chapter 8). -/
namespace Sys2Proof.Machine

/-! Slots of the relay bus (R256, R257). -/

theorem onRb_congr {d : Dev} {f g : Rb → Rb} (h : f d.rb = g d.rb) : d.onRb f = d.onRb g := by
  rw [Dev.onRb, Dev.onRb]
  exact congrArg (fun b => { d with psc := { d.psc with rb := b } }) h

theorem relayBusSlot_idle {d : Dev} (hrun : rbRunning d = true) (hq : d.rb.queue = []) : relayBusSlot d =
    (d.onRb fun b => { b with frame := rbCommand 0 0 0 (b.slot % 64), latched := false }).onRb fun b => { b with slot := b.slot + 1 } := by
  simp only [relayBusSlot, hrun, hq, Bool.not_true, Bool.false_eq_true, if_false]
  exact congrArg (fun x : Dev => x.onRb _) (onRb_congr rfl)

theorem relayBusSlot_coil {d : Dev} {r : Nat} {on : Bool} {pt : Option Nat} {q : List RbOp} (hrun : rbRunning d = true)
    (hq : d.rb.queue = .coil r on pt :: q) :
    relayBusSlot d = (rbWrite (d.onRb fun b => { b with queue := q }) r on pt).onRb fun b => { b with slot := b.slot + 1 } := by
  simp [relayBusSlot, hrun, hq]

theorem relayReply_good {d : Dev} {x : RbRead} {rest : List RbRead} {f : Nat} (hout : d.rb.out = x :: rest)
    (hok : rbReplyOk f x.driver x.tag = true) : relayReply d true f =
      rbAnswer (d.onRb fun b => { b with out := rest }) x.driver (bits f 29 14) (bits f 43 40) x.use := by
  simp [relayReply, hout, hok]

theorem relayReply_missing {d : Dev} {x : RbRead} {rest : List RbRead} {f : Nat} (hout : d.rb.out = x :: rest) (htries : x.tries < 3) :
    relayReply d false f = d.onRb fun b => { b with out := rest, queue := .read x.driver x.use (x.tries + 1) :: b.queue } := by
  simp [relayReply, hout, htries]
  rfl

theorem relayReread_next {d : Dev} {k p : Nat} {t : List (Nat × Nat)} (h : d.rb.reread = (k, p) :: t) :
    relayReread d = rbPush (d.onRb fun b => { b with reread := t }) (.read (driverOf k) (.path p k true) 0) := by
  simp [relayReread, h]

theorem relayAudit_running {d : Dev} (hrun : rbRunning d = true) (hms : d.nat O.rbAuditMs ≠ 0) (hn : 1 ≤ d.nat O.rbDrivers) :
    relayAudit d = rbPush (d.onRb fun b => { b with auditAt := (d.rb.auditAt % d.nat O.rbDrivers + 1) % d.nat O.rbDrivers })
      (.read (d.rb.auditAt % d.nat O.rbDrivers) .audit 0) := by
  simp [relayAudit, hrun, hms, Nat.max_eq_right hn]

/-- Settles O26. -/
theorem relayBusActs : Obligations.RelayBusActs :=
  fun _ => ⟨fun hrun hq => next_became (relayBusSlot_idle hrun hq), fun _ _ _ _ hrun hq => next_became (relayBusSlot_coil hrun hq),
    fun _ _ _ hout hok => next_became (relayReply_good hout hok), fun _ _ _ hout htries => next_became (relayReply_missing hout htries),
    fun _ _ _ h => next_became (relayReread_next h), fun hrun => next_became (if_pos hrun),
    fun hrun hms hn => next_became (relayAudit_running hrun hms hn)⟩

/-! Commands and counts of the relays (R263 to R266). -/

theorem rbcStart_off {d : Dev} (hrun : rbRunning d = false) (hon : d.on O.rbEnable = true) (hpd : bit (d.nat O.pmuPdState) 14 = true) :
    rbcStart d = forUpto (d.nat O.rbDrivers) (fun k x => rbPush x (.read k .start 0)) (rbState (d.onRb fun b => { b with silent := 0 }) true) := by
  have hn : (rbState (d.onRb fun b => { b with silent := 0 }) true).nat O.rbDrivers = d.nat O.rbDrivers :=
    nat_setN_row _ _ _ _ 0 (by decide)
  refine (if_neg (by simp [hrun, hon, hpd])).trans ?_
  dsimp only
  rw [hn]

theorem releaseOrphans_none {d : Dev} (hfree : rbCmdRefused d = false) (ho : d.rb.orphans = []) : releaseOrphans d = .ok d := by
  simp [releaseOrphans, hfree, ho]

/-- The one orphan of driver `k` is its first relay. -/
theorem releaseOrphans_first {d : Dev} {k : Nat} (hfree : rbCmdRefused d = false) (ho : d.rb.orphans = [(k, 1)]) :
    releaseOrphans d = .ok (rbPush d (.coil (16 * k) ((invRelays d).contains (16 * k)) none)) := by
  have hbits : (List.range 16).filter (fun j => bit 1 j) = [0] := by decide
  simp [releaseOrphans, hfree, ho, hbits]

theorem allOff_ok {d : Dev} (hfree : rbCmdRefused d = false) : allOff d = .ok (rbPush d .allOff) := if_neg (by rw [hfree]; decide)

theorem relayCountClear_ok {d : Dev} {r : Nat} (hr : r < 16384) : relayCountClear d r =
    .ok ((d.onRb fun b => { b with counts := tabSet 0 b.counts r 0 }).station 4 r (leBytes 4 (tabGet 0 d.rb.counts r))) :=
  if_neg (by omega)

theorem leNat_leInt_nat {n x : Nat} (h : x < 2 ^ (8 * n)) : leNat (leInt n x) = x := by
  rw [leNat_leInt]
  exact_mod_cast ofSigned_unsigned (8 * n) x (Int.natCast_nonneg x) (by exact_mod_cast h)

/-- Settles O27. -/
theorem relayCommandsAct : Obligations.RelayCommandsAct := by
  refine fun s => ⟨fun hrun hon hpd => next_became (rbcStart_off hrun hon hpd), fun h hfree ho => ?_, fun k h hfree ho => ?_, fun h hfree => ?_,
    fun r h => ?_, rfl⟩
  · exact runBoth_act h rfl rfl (releaseOrphans_none hfree ho)
  · exact runBoth_act h rfl rfl (releaseOrphans_first hfree ho)
  · exact runBoth_act h rfl rfl (allOff_ok hfree)
  · refine runBoth_act h rfl ?_ (relayCountClear_ok r.isLt)
    show (relayCountClear s.ready (leNat (leInt 2 (r : Nat)))).map _ = _
    rw [leNat_leInt_nat (by omega)]

/-! Scans (R248, R250, R251). -/

@[simp] theorem nat_setScan (d : Dev) (n : Nat) (x : ScanRun) (o : Obj) (i g : Nat) : (d.setScan n x).nat o i g = d.nat o i g := rfl

/-- A scan armed with its counts cleared and no grid. -/
def scanArmed (d : Dev) (n : Nat) : Dev :=
  (scanSetGrid ((((d.setScan n {}).setN O.scanRunCount 0 n).setN O.scanLateCount 0 n).setN O.scanSkipped 0 n) n none).setN O.scanState 1 n

theorem nat_scanArmed (d : Dev) (n : Nat) : (scanArmed d n).nat O.scanState n = 1 ∧ (scanArmed d n).nat O.scanRunCount n = 0 ∧
    (scanArmed d n).nat O.scanLateCount n = 0 ∧ (scanArmed d n).nat O.scanSkipped n = 0 := by
  simp (disch := decide) only [scanArmed, scanSetGrid, scanSetNext, Dev.setN, Dev.setI, nat_put_row, nat_setScan]
  exact ⟨rfl, rfl, rfl, rfl⟩

theorem scanArm_idle {d : Dev} {n : Nat} (hst : d.nat O.scanState n = 0) (hsrc : d.nat O.scanSrc n = 0) : scanArm d n = .ok (scanArmed d n) := by
  simp [scanArm, hst, hsrc, scanArmed]

theorem scanStart_armed {d : Dev} {n : Nat} (hst : d.nat O.scanState n = 1) (hsus : pscSuspended d = false) (hpend : (d.scan n).pending = none)
    (htol : 0 ≤ d.int O.scanLateTol n) : scanStart d n d.clk false = scanBegin d n d.clk false := by
  have hlate : ¬ d.clk + d.int O.scanLateTol n < d.clk := by omega
  simp [scanStart, scanPending, hst, hsus, hpend, hlate]

theorem scanStartCmd_armed {d : Dev} {n : Nat} (hst : d.nat O.scanState n = 1) (hsrc : d.nat O.scanSrc n = 0) :
    scanStartCmd d n = .ok (scanStart d n d.clk false) := by
  simp [scanStartCmd, hst, hsrc]

theorem scanStop_running {d : Dev} {n : Nat} (hst : d.nat O.scanState n = 2) :
    scanStop d n = scanSetNext (((((d.psc.runs.filter fun e => e.2.requester == n).map (·.1)).foldl ptStop d).setScan n {}).setN O.scanState 0 n)
      n none := if_neg (by omega)

theorem scanTimeStart_grid {d : Dev} {n : Nat} {t : Int} (hgrid : (d.scan n).gridNext = some t) (hsrc : d.nat O.scanSrc n = 1)
    (hst : d.nat O.scanState n = 1) : scanTimeStart d n =
      scanStart (scanSetGrid d n (if d.int O.scanPeriod n ≤ 0 then none else some (t + d.int O.scanPeriod n))) n t false := by
  simp [scanTimeStart, hgrid, hsrc, hst]

theorem scanNextEntry_ended {d : Dev} {n : Nat} (hst : d.nat O.scanState n = 2) (hdelay : (d.scan n).delaying = false)
    (hgroup : ((d.scan n).group.all fun p => d.nat O.ptState p == 0) = true) : scanNextEntry d n = scanReach d n :=
  if_pos ⟨hst, by rw [hdelay]; decide, hgroup⟩

theorem scanDelayEnd_delaying {d : Dev} {n : Nat} (hst : d.nat O.scanState n = 2) (hdelay : (d.scan n).delaying = true) :
    scanDelayEnd d n = scanReach (d.setScan n { d.scan n with delaying := false }) n := if_pos ⟨hst, hdelay⟩

/-- Settles O28. -/
theorem scansAct : Obligations.ScansAct := by
  refine fun s n => ⟨fun h hst hsrc => ?_, fun h hst hsrc hsus hpend htol => ?_, fun h hst => ?_,
    fun t hgrid hsrc hst => next_became (scanTimeStart_grid hgrid hsrc hst), fun hst hdelay hgroup => next_became (scanNextEntry_ended hst hdelay hgroup),
    fun hst hdelay => next_became (scanDelayEnd_delaying hst hdelay)⟩
  · exact ⟨_, runBoth_act h rfl rfl (scanArm_idle hst hsrc), nat_scanArmed s.ready n⟩
  · exact runBoth_act h rfl rfl ((scanStartCmd_armed hst hsrc).trans (congrArg Except.ok (scanStart_armed hst hsus hpend htol)))
  · exact runBoth_act (r := .ok (scanStop s.ready n)) h rfl rfl (congrArg Except.ok (scanStop_running hst))

end Sys2Proof.Machine

/-! The cycle time base (chapter 9). -/
namespace Sys2Proof.Machine

/-- A write of the timing input restarts the time base that takes its cycles from it. -/
theorem writeEffect_ctbTin (old d : Dev) (h : d.nat O.ctbSrc = 1 ∨ d.nat O.ctbSrc = 3) : writeEffect old ⟨O.ctbTin, 0, 0⟩ d = ctbRestart d := by
  show (if (_ ∧ (d.nat O.ctbSrc = 1 ∨ d.nat O.ctbSrc = 3)) ∨ _ then ctbRestart d else _) = _
  exact if_pos (.inl ⟨rfl, h⟩)

section
variable {d : Dev} {t back : Nat} (hon : ctbOn d = true) (hsrc : d.nat O.ctbSrc = 1 ∨ d.nat O.ctbSrc = 3)
include hon hsrc

/-- An edge of a timing input finds the time base carried to its instant. -/
theorem ctbEdge_tin : ctbEdge d t back = (let d := ctbTo d t
    let now := absTick d d.ctb.tick
    let d := d.onCtb fun c => { c with monFound := none }
    let st := ctbState d
    if st = csAcquire then (if d.coasting then d else ctbAcquire d (now - back) back)
    else if st = csLocked ∨ st = csCoasting then ctbTrack d back
    else if st = csStall then ctbMarked (ctbSet (d.onCtb fun c => { c with rawAt := some (now - back), raws := [] }) csAcquire)
    else d) := by
  have htin : ¬ ((!ctbOn d) = true ∨ d.nat O.ctbSrc = 0 ∨ d.nat O.ctbSrc = 4) := by
    rw [hon]
    simp only [Bool.not_true, Bool.false_eq_true, false_or]
    omega
  refine (if_neg htin).trans ?_
  dsimp only
  rw [if_neg (by omega)]

end

theorem ctbCoastTimeout_locked {d : Dev} {t : Nat} (hon : ctbOn d = true) (hst : ctbState d = csLocked) : ctbCoastTimeout d t =
    (let d := ctbTo d t
     if ctbOverdue d 3 then
       ctbMarked (ctbSet ((d.onCtb fun c => { c with inc := if d.nat O.ctbSrc = 4 then c.inc else c.incF }).flag O.ctbFlags 2) csCoasting)
     else d) := by
  refine (if_neg (by simp [hon, hst])).trans ?_
  dsimp only
  cases ctbOverdue (ctbTo d t) 3
  · rfl
  · rfl

theorem ctbStallTimeout_coasting {d : Dev} {t : Nat} (hon : ctbOn d = true) (hst : ctbState d = csCoasting) : ctbStallTimeout d t =
    (let d := ctbTo d t
     if ctbOverdue d (2 * d.nat O.ctbCoast + 3) then ctbStallNow d else d) := by
  refine (if_neg (by simp [hon, hst])).trans ?_
  dsimp only
  cases ctbOverdue (ctbTo d t) (2 * (ctbTo d t).nat O.ctbCoast + 3)
  · rfl
  · rfl

/-- Both signals of the encoder changed at once. -/
theorem ctbEncoderCount_both {d : Dev} {t : Nat} {a b : Bool} (hon : ctbOn d = true) (hsrc : d.nat O.ctbSrc = 4)
    (ha : (ctbTo d t).ctb.encA = !a) (hb : (ctbTo d t).ctb.encB = !b) : ctbEncoderCount d t a b =
      (((ctbTo d t).onCtb fun c => { c with encA := a, encB := b }).bump O.ctbEncErrors).flag O.ctbFlags 32 := by
  refine (if_neg (by simp [hon, hsrc])).trans (if_pos ?_)
  rw [ha, hb]
  cases a <;> cases b <;> rfl

/-- Settles O29. -/
theorem cycleTimeBaseActs : Obligations.CycleTimeBaseActs := by
  refine fun s => ⟨fun value hv h => ?_, fun value hv h hsrc => ?_, fun h => ?_, ?_, fun tick hon hst => ?_, fun tick hon hst => ?_,
    fun tick a b hon hsrc ha hb => ?_, fun tick => rfl⟩
  · exact runBoth_set h rfl rfl rfl hv rfl
  · refine runBoth_set h rfl rfl rfl hv (writeEffect_ctbTin _ _ ?_)
    rwa [Dev.setI, nat_put_row _ _ _ _ _ (by decide)]
  · exact runBoth_act (r := ctbReacquire s.ready) h rfl rfl rfl
  · rintro tick back now d hon hsrc rfl rfl
    refine ⟨fun hst => ?_, fun hst hcoast => ?_, fun hst => ?_⟩
    · refine next_became ((ctbEdge_tin hon hsrc).trans ?_)
      dsimp only
      rw [if_neg (by rcases hst with h | h <;> rw [h] <;> decide), if_pos hst]
    · refine next_became ((ctbEdge_tin hon hsrc).trans ?_)
      dsimp only
      rw [if_pos hst, if_neg (by rw [hcoast]; decide)]
    · refine next_became ((ctbEdge_tin hon hsrc).trans ?_)
      dsimp only
      rw [if_neg (by rw [hst]; decide), if_neg (by rw [hst]; decide), if_pos hst]
  · exact next_became (ctbCoastTimeout_locked hon hst)
  · exact next_became (ctbStallTimeout_coasting hon hst)
  · exact next_became (ctbEncoderCount_both hon hsrc ha hb)

end Sys2Proof.Machine

/-! Time of day (chapter 10). -/
namespace Sys2Proof.Machine

/-- A lost source that was selected and has no successor leaves the time in HOLDOVER. -/
theorem todSourceLoss_holdover {d x : Dev} {k : Nat} (hk : k ≠ 0) (hsel : d.nat O.todSrc = k)
    (hx : x = (d.onTod fun t => { t with srcs := t.srcs.setIfInBounds k {} }).setN O.todQual (clrBit (d.nat O.todQual) k))
    (hbest : bestSource x = none) : todSourceLoss d k = (((((x.onTod fun t =>
      { t with c := 0, holdAt := x.up, holdSrc := x.nat O.todSrc, step := none }).setN O.todSrc 0).setN O.todState tsHoldover).setN
      O.todHoldoverTime 0).flag O.todFlags 36).raise 56 0 2 0 := by
  have hsel' : x.nat O.todSrc = k := by
    rw [hx, nat_setN_row _ _ _ _ 0 (by decide)]
    exact hsel
  have hlost : todSourceLoss d k = if x.nat O.todSrc ≠ k ∨ k = 0 then x else todReselect x := by rw [hx]; rfl
  rw [hlost, if_neg (by simp [hsel', hk]), todReselect, hbest]

theorem todSwitchHoldoff_better {d : Dev} {k : Nat} (hq : srcQualified d k = true) (hk : k ≠ 0) (hsel : d.nat O.todSrc ≠ 0)
    (hrank : srcRank d k < srcRank d (d.nat O.todSrc)) (hon : todSelects d = true) : todSwitchHoldoff d k = selectSource d k :=
  if_pos ⟨hq, hk, hsel, hrank, hon⟩

theorem todStepApply_due {d : Dev} {th : Int} (hstep : d.tod.step = some th) (hwrite : d.tod.write = none) : todStepApply d =
    (let e := d.onTod fun t => { t with t := secondAt d.clk + th, tf := 0, step := none }
     let e := (e.setI O.todLastStep th).flag O.todFlags 16
     scanStepped (leapCheck (todChanged e 1 (e.stamp (secondAt d.clk)) (secondAt d.clk + th)))) := by
  simp [todStepApply, hstep, hwrite]

theorem todWriteApply_due {d : Dev} {v : Int} (h : d.tod.write = some v) :
    todWriteApply d = (todSetNow d v).onTod fun t => { t with step := none } := by
  simp [todWriteApply, h]

/-- Settles O30. -/
theorem timeOfDaySourcesAct : Obligations.TimeOfDaySourcesAct :=
  fun _ => ⟨fun _ _ hk hsel hd hbest => next_became (todSourceLoss_holdover hk hsel hd hbest),
    fun _ hq hk hsel hrank hon => next_became (todSwitchHoldoff_better hq hk hsel hrank hon), fun h => next_became (if_pos h), rfl,
    fun _ hstep hwrite => next_became (todStepApply_due hstep hwrite), fun _ h => next_became (todWriteApply_due h),
    fun _ h => next_became (if_pos (.inl h))⟩

/-! Setting the time (R297, R298, R301, R302). -/

theorem leSigned_time64 {v : Int} (h : fits .time64 v = true) : leSigned 8 (leInt 8 v) = v :=
  Val.num.inj (decode_encode .time64 v rfl h)

theorem todSet_taken {d : Dev} {v : Int} (hst : todState d ≠ tsLocked) (hv : timeValid v = true) (hmode : d.nat O.todSetMode ≠ 0) :
    todSet d v = .ok (todSetValue d v) := by
  simp [todSet, hst, hv, hmode]

theorem todCalSet_taken {d : Dev} {b : Bytes} {t : Int} (hlen : b.length = 16) (hzero : allZero (slice b 12 4) = true)
    (hst : todState d ≠ tsLocked) (ht : calendarValue d b = some t) : todCalSet d b = .ok (todSetValue d t) := by
  simp [todCalSet, hlen, hzero, hst, ht]

theorem writeEffect_utcOffset (old d : Dev) (v : Int) :
    writeEffect old ⟨O.todUtcOffset, 0, 0⟩ (d.setI O.todUtcOffset v) = todChanged (d.setI O.todUtcOffset v) 3 (old.int O.todUtcOffset) v :=
  congrArg (todChanged _ 3 _) (int_setI_same d O.todUtcOffset v 0 0)

/-- Settles O31. -/
theorem timeOfDayIsSet : Obligations.TimeOfDayIsSet := by
  refine fun s => ⟨fun value hv h hst hvalid hmode => ?_, fun b t h hl hlen hzero hst ht => ?_, fun h => ?_, fun value hv h => ?_,
    fun field value hv h => ?_, fun h => next_became (if_neg h)⟩
  · refine runBoth_act h rfl ?_ (todSet_taken hst hvalid hmode)
    show (todSet s.ready (leSigned 8 (leInt 8 value))).map _ = _
    rw [leSigned_time64 hv]
  · exact runBoth_bytesAct hl rfl rfl h rfl rfl (todCalSet_taken hlen hzero hst ht)
  · exact runBoth_act (r := .ok (todCancel s.ready)) h rfl rfl rfl
  · exact runBoth_set h rfl rfl rfl hv (writeEffect_utcOffset ..)
  · refine runBoth_set h ?_ ?_ ?_ hv ?_
    all_goals cases field <;> rfl

end Sys2Proof.Machine

/-! Timing inputs and time measurements (chapter 11). -/
namespace Sys2Proof.Machine

theorem tinEdge_eq (d : Dev) (k : Nat) (uv : List Int) (tick back code : Nat) : tinEdge d k uv tick back code =
    if tiuOn d then
      (let e := uv.foldl (tinTick k code) (tinHold k code d (absTick d tick - back - uv.length - (d.tin k).last))
       tinHold k code e (absTick d tick - (e.tin k).last))
    else d := by
  unfold tinEdge
  cases tiuOn d
  · rfl
  · rfl

/-- A sample that changes the filtered level is an edge. -/
theorem tinTick_edge {k code : Nat} {d : Dev} {uv : Int} {x : Tin} (hx : x = ((d.tin k).clock ((d.tin k).last + 1) uv
      (comparator (d.nat O.tiuInThresh k) (d.nat O.tiuInHyst k) uv (d.tin k).cmp)).sample)
    (hat : ((d.tin k).last + 1 + 4 * (d.up / 2)) % 5 = 0) (hlevel : d.on O.tiuInLevel k = !x.level) :
    tinTick k code d uv = tinFiltered (d.setTin k x) k x.level
      (d.clk + 2 * ((if x.level then x.rise else x.fall : Nat) - 2 - (absTick d 0 : Int))) (if x.level then x.rise else x.fall) code := by
  have hchange : ¬ x.level = (d.setTin k x).on O.tiuInLevel k := by
    show ¬ x.level = d.on O.tiuInLevel k
    rw [hlevel]
    cases x.level <;> decide
  subst hx
  exact (if_neg (not_not_intro hat)).trans (if_neg hchange)

/-- An edge of an input that takes both slopes sets its latch, is counted and issues its event. -/
theorem tinFiltered_both {k : Nat} {rising : Bool} {stop code : Nat} {stamp : Int} {e d : Dev} (hk : k < 6)
    (hst : (e.setB O.tiuInLevel rising k).nat O.tiuInState k = 0)
    (hd : d = forUpto 8 (tdcEdge k rising stamp stop code) (e.setB O.tiuInLevel rising k)) (hslope : d.nat O.tiuInSlope k = 2) :
    tinFiltered e k rising stamp stop code =
      (let x := (((d.setB O.tiuInLatch true k).bump O.tiuInEdges k).setI O.tiuInLastEdge ((d.setB O.tiuInLatch true k).stamp stamp) k).event (2 + k) stamp
       { x with erm := { x.erm with latStamp := tabSet 0 x.erm.latStamp k stamp } }) := by
  have hfree : (if (e.setB O.tiuInLevel rising k).nat O.tiuInState k = 2 then (e.setB O.tiuInLevel rising k).setN O.tiuInState 0 k
      else e.setB O.tiuInLevel rising k) = e.setB O.tiuInLevel rising k := if_neg (by rw [hst]; decide)
  refine (if_neg (by rw [hst]; decide)).trans ?_
  dsimp only
  rw [hfree, ← hd, if_neg (by rw [hslope]; simp), if_pos hk, if_pos hk]

theorem tinOverrate_ends {d : Dev} {k : Nat} (hon : tiuOn d = true) (hst : d.nat O.tiuInState k ≠ 1) :
    tinOverrate d k = forUpto 8 (fun j x =>
      if (j == k || (x.nat O.tiuMMode j == 0 && x.nat O.tiuMStopTin j == k)) && (x.nat O.tiuMState j == 2 || x.nat O.tiuMState j == 3) then
        tdcEnd x j 3 else x) (((d.setN O.tiuInState 1 k).flag O.tiuInFlags 4 k).bump O.tiuInOverrates k) :=
  if_neg (by simp [hon, hst])

theorem tinStuck_active {d : Dev} {k : Nat} (hon : tiuOn d = true) (hstuck : d.nat O.tiuInStuck k ≠ 0) (hst : d.nat O.tiuInState k = 0)
    (hact : tinActive d k) : tinStuck d k = ((d.setN O.tiuInState 2 k).flag O.tiuInFlags 8 k).raise 57 0 1 k :=
  if_neg (by simp [hon, hstuck, hst, hact])

theorem tinLatchClear_ok {d : Dev} {k : Nat} (hk : k < 6) : tinLatchClear d k = .ok (d.setB O.tiuInLatch false k) := if_neg (by omega)

/-- Settles O33. -/
theorem timingInputsAct : Obligations.TimingInputsAct := by
  refine fun s k => ⟨fun uv tick back code n hn => ?_, fun code d uv x hx hat hlevel => tinTick_edge hx hat hlevel,
    fun rising stop code stamp e d hk hst hd hslope => tinFiltered_both hk hst hd hslope, fun hon hst => next_became (tinOverrate_ends hon hst),
    fun hst => next_became (if_pos hst), fun hon hstuck hst hact => next_became (tinStuck_active hon hstuck hst hact), fun hclr hk => next_became (if_pos ⟨hclr, hk⟩), fun h hk => ?_, fun field value hv h => ?_⟩
  · subst hn
    exact next_became (tinEdge_eq ..)
  · exact runBoth_act h rfl rfl (tinLatchClear_ok hk)
  · refine runBoth_set h ?_ ?_ ?_ hv ?_
    all_goals cases field <;> rfl

/-! Time measurements (R318, R319, R328). -/

section
variable {d : Dev} {k k1 k2 : Nat}

/-- The calibration's two counts are kept. -/
def tdcCounted (d : Dev) (k k1 k2 : Nat) : Dev := (d.setTdc k { d.tdc k with k1 := k1, k2 := k2 }).setN O.tiuMCal (k2 * 2 ^ 32 + k1) k

theorem tdcArm_free {t : Nat} (hheld : tinHeld d k = false) (hbusy : tdcBusy d k = false) : tdcArm d k t = .ok (tdcArmNow d k t false) :=
  if_neg (by simp [hheld, hbusy])

theorem tdcStop_free (hheld : tinHeld d k = false) : tdcStop d k = .ok ((d.setN O.tiuMState 0 k).setN O.tiuMStatus 5 k) :=
  if_neg (by simp [hheld])

theorem tdcCalDone_good (hst : d.nat O.tiuMState k = 1) (hlo : k1 + 6144 ≤ k2) (hhi : k2 ≤ k1 + 10240) :
    tdcCalDone d k k1 k2 = (tdcCounted d k k1 k2).setN O.tiuMState 2 k :=
  (if_neg (not_not_intro hst)).trans (if_pos (by omega))

theorem tdcCalDone_short (hst : d.nat O.tiuMState k = 1) (hlo : k2 < k1 + 6144) :
    tdcCalDone d k k1 k2 = ((tdcEnd (tdcCounted d k k1 k2) k 4).flag O.tiuMFlags 2 k).raise 57 0 2 k :=
  (if_neg (not_not_intro hst)).trans (if_neg (by omega))

theorem tdcWindowEnd_measuring (hst : d.nat O.tiuMState k = 3) (hmode : d.nat O.tiuMMode k = 2) : tdcWindowEnd d k =
    if (d.tdc k).seen < 2 then tdcEnd d k 6
    else tdcDone d k (roundDiv ((((d.tdc k).seen : Int) - 1) * (10 : Int) ^ 18) ((d.tdc k).tl - (d.tdc k).t0)) ((d.tdc k).tl - (d.tdc k).t0)
      (d.tdc k).seen :=
  if_neg (by omega)

theorem tiuGateEdge_armed {t : Nat} (hgate : d.nat O.tiuMGate k = 1) : tiuGateEdge d k t =
    if tdcBusy d k then ((ermOverrun d (124 + k)).flag O.tiuMFlags 1 k).bump O.tiuMOverruns k else tdcArmNow d k t true :=
  if_neg (not_not_intro hgate)

end

/-- Settles O34. -/
theorem timeMeasurementsAct : Obligations.TimeMeasurementsAct := by
  refine fun s k => ⟨fun h hheld hbusy => ?_, fun h hheld => ?_, fun k1 k2 hst hlo hhi => next_became (tdcCalDone_good hst hlo hhi),
    fun k1 k2 hst hlo => next_became (tdcCalDone_short hst hlo), fun hst => next_became (if_pos hst),
    fun hst hmode hseen => next_became ((tdcWindowEnd_measuring hst hmode).trans (if_pos hseen)),
    fun hst hmode hseen => next_became ((tdcWindowEnd_measuring hst hmode).trans (if_neg (by omega))),
    fun tick hgate hbusy => next_became ((tiuGateEdge_armed hgate).trans (if_neg (by simp [hbusy]))),
    fun tick hgate hbusy => next_became ((tiuGateEdge_armed hgate).trans (if_pos hbusy))⟩
  · exact runBoth_act h rfl rfl (tdcArm_free hheld hbusy)
  · exact runBoth_act h rfl rfl (tdcStop_free hheld)

end Sys2Proof.Machine

/-! The event matrix: pins, cells, selectors and lines, and the edges at its consumers (chapter 12). -/
namespace Sys2Proof.Machine

/-! A cycle of the matrix (R322, R326, R329). -/

/-- What the consumers of a cycle see: the signals, the selectors that are new and the edges. -/
def Erm.inputs (e : Erm) : Nat × Nat × List (Nat × Int) := (e.was, e.fresh, e.edges)

theorem evioSync_inputs (t : Int) (p : Nat) (d : Dev) : (evioSync t p d).erm.inputs = d.erm.inputs := by
  unfold evioSync
  dsimp only
  split
  · split
    · rfl
    · rfl
  · split
    · rfl
    · rfl

/-- Cell `k` takes its new registers and its new output, which has its stamp when it changes. -/
def lutPut (t : Int) (k : Nat) (r : Lut × Bool) (d : Dev) : Dev :=
  let e := d.setLut k r.1
  if r.2 = d.on O.ermLutOut k then e
  else
    let e := e.setB O.ermLutOut r.2 k
    let e := if r.2 then e.bump O.ermLutRises k else e
    { e with erm := { e.erm with stamps := tabSet 0 e.erm.stamps (224 + k) t } }

theorem lutPut_inputs (t : Int) (k : Nat) (r : Lut × Bool) (d : Dev) : (lutPut t k r d).erm.inputs = d.erm.inputs := by
  unfold lutPut
  dsimp only
  split
  · rfl
  · split
    · rfl
    · rfl

theorem lutCycle_inputs (sig : Nat) (t : Int) (k : Nat) (d : Dev) : (lutCycle sig t k d).erm.inputs = d.erm.inputs :=
  lutPut_inputs t k _ d

/-- The rising edges among the consumers of edges. -/
def risingInputs (now was fresh : Nat) : List Nat :=
  (List.range 187).filter fun i => !levelInput i && (bit now i && !bit was i && !bit fresh i)

theorem mem_risingInputs {now was fresh i : Nat} (hi : i < 187) : (risingInputs now was fresh).contains i = true ↔
    levelInput i = false ∧ bit now i = true ∧ bit was i = false ∧ bit fresh i = false := by
  simp [risingInputs, hi, and_assoc]

theorem ermIssue_inputs (d : Dev) (t : Int) : (ermIssue d t).erm.inputs = d.erm.inputs := rfl

/-- The device of a cycle once its consumers have seen the signals of the last one: outputs and line terms follow, the latches'
stamps are taken. -/
def cycleSeen (d : Dev) : Dev :=
  let now := inputSignals d d.erm.sig
  let was := d.erm.was
  let fresh := d.erm.fresh
  let edges := (risingInputs now was fresh).map fun i => (i, tabGet 0 d.erm.stamps (d.nat O.ermInSel 0 i % 256))
  let d := forUpto 16 (fun p x => evioOut (bit now (148 + p)) (bit now (148 + p) && !bit was (148 + p) && !bit fresh (148 + p)) p x) d
  let terms := forUpto 16 (fun k m => if d.on O.ermSysGate k then putBit m k (bit now (164 + k)) else setBit m k) d.erm.terms
  let d := { d with erm := { d.erm with was := now, fresh := 0, edges := edges, terms := terms } }
  forUpto 6 (fun k x => { x with erm := { x.erm with stamps := tabSet 0 x.erm.stamps (10 + k) (tabGet 0 x.erm.latStamp k) } }) d

/-- The device at the end of a cycle that starts at `t`: events issued, pins synchronised, cells computed. -/
def cycleEnd (d : Dev) (sig : Nat) (t : Int) : Dev := forUpto 32 (lutCycle sig t) (forUpto 16 (evioSync t) (ermIssue d t))

theorem ermCycle_eq {d : Dev} (c : Nat) (hon : ermOn d = true) :
    ermCycle d c = (let e := cycleEnd (cycleSeen d) d.erm.sig (d.clk + 10 * (c : Int)); { e with erm := { e.erm with sig := levelSignals e } }) := by
  simp only [ermCycle, hon, Bool.not_true, Bool.false_eq_true, if_false, cycleEnd, cycleSeen, risingInputs]

theorem cycleSeen_inputs (d : Dev) : (cycleSeen d).erm.inputs = (inputSignals d d.erm.sig, 0,
    (risingInputs (inputSignals d d.erm.sig) d.erm.was d.erm.fresh).map fun i => (i, tabGet 0 d.erm.stamps (d.nat O.ermInSel 0 i % 256))) := by
  unfold cycleSeen
  refine (forUpto_keeps (fun x : Dev => x.erm.inputs) ?_ 6 _).trans ?_
  · exact fun _ _ => rfl
  · exact rfl

theorem cycleEnd_inputs (d : Dev) (sig : Nat) (t : Int) : (cycleEnd d sig t).erm.inputs = d.erm.inputs :=
  (forUpto_keeps (fun x : Dev => x.erm.inputs) (lutCycle_inputs sig t) 32 _).trans <|
    (forUpto_keeps (fun x : Dev => x.erm.inputs) (evioSync_inputs t) 16 _).trans (ermIssue_inputs d t)

/-- The level signals do not depend on those kept of the last cycle. -/
theorem levelSignals_sig (d : Dev) (x : Nat) : levelSignals { d with erm := { d.erm with sig := x } } = levelSignals d := rfl

theorem ermCycle_on {d : Dev} (c : Nat) (hon : ermOn d = true) :
    (ermCycle d c).erm.was = inputSignals d d.erm.sig ∧ (ermCycle d c).erm.fresh = 0 ∧ (ermCycle d c).erm.sig = levelSignals (ermCycle d c) ∧
      (ermCycle d c).erm.edges.map (·.1) = risingInputs (inputSignals d d.erm.sig) d.erm.was d.erm.fresh := by
  have hin := (cycleEnd_inputs (cycleSeen d) d.erm.sig (d.clk + 10 * (c : Int))).trans (cycleSeen_inputs d)
  rw [ermCycle_eq c hon]
  generalize cycleEnd (cycleSeen d) d.erm.sig (d.clk + 10 * (c : Int)) = e at hin
  obtain ⟨hwas, hrest⟩ := Prod.mk.inj hin
  obtain ⟨hfresh, hedges⟩ := Prod.mk.inj hrest
  refine ⟨hwas, hfresh, (levelSignals_sig _ _).symm, ?_⟩
  rw [hedges, List.map_map]
  exact List.map_id _

/-! Events, selectors, cells, pins and lines. -/

theorem softEvent_one (d : Dev) (k : Fin 8) : softEvent d (2 ^ k.val) = d.event (77 + k) d.clk := by
  match k with
  | 0 | 1 | 2 | 3 | 4 | 5 | 6 | 7 => rfl

theorem writeEffect_selector {old d : Dev} {c v : Nat} (h : v ≠ old.nat O.ermInSel 0 c) :
    writeEffect old ⟨O.ermInSel, 0, c⟩ (d.setN O.ermInSel v 0 c) =
      (let e := d.setN O.ermInSel v 0 c
       { e with erm := { e.erm with fresh := setBit e.erm.fresh c } }) := by
  refine if_neg ?_
  rw [nat_setN_same]
  exact h.symm

theorem writeEffect_lut (old d : Dev) (k : Nat) (field : LutField) :
    writeEffect old ⟨lutObj field, k, 0⟩ d = d.setLut k { d.lut k with clear := true } := by
  cases field with
  | ff => rfl
  | filter => rfl
  | clk => rfl

theorem evioPulseEnd_running {d : Dev} {p : Nat} (hpulse : bit d.erm.pulse p = true) (hmode : d.nat O.ermEvioOutMode p = 1) :
    evioPulseEnd d p = { d with erm := { d.erm with pulse := clrBit d.erm.pulse p, drive := clrBit d.erm.drive p } } := by
  rw [evioPulseEnd, if_pos hpulse, if_pos hmode]

theorem sysSample_changed {d : Dev} {tick : Nat} {t : Int} {v : Nat} (hon : ermOn d = true) (hlast : d.erm.termLog.getLast? = some (t, v))
    (hchange : d.erm.terms ≠ v) : sysSample d tick = { d with erm := { d.erm with
      termLog := lastN 512 (d.erm.termLog ++ [((d.clk + 2 * (tick : Int)) / 40 * 40, d.erm.terms)]) } } := by
  simp [sysSample, hon, hlast, hchange]

theorem sysRelease_synced {d : Dev} {t : Int} {v : Nat} {rest : List (Int × Nat)} (hsync : hlSynced d = true) (hbreak : d.hl.breaking = false)
    (hmiss : d.hl.missing = none) (hq : d.erm.samples = (t, v) :: rest) :
    sysRelease d = sysDeliver { d with erm := { d.erm with samples := rest }, hl := { d.hl with lastFinal := t - 2000 } } v t := by
  simp [sysRelease, hsync, hbreak, hmiss, hq]

/-- Settles O35. -/
theorem eventRoutingActs : Obligations.EventRoutingActs := by
  refine fun s => ⟨fun p level => rfl, fun c hon => ?_, fun k h => ?_, fun c value hv h hne => ?_, fun k field value hv h => ?_,
    fun p hpulse hmode => next_became (evioPulseEnd_running hpulse hmode),
    fun tick t v hon hlast hchange => next_became (sysSample_changed hon hlast hchange),
    fun t v rest hsync hbreak hmiss hq => next_became (sysRelease_synced hsync hbreak hmiss hq)⟩
  · obtain ⟨hwas, hfresh, hsig, hedges⟩ := ermCycle_on c hon
    refine ⟨ermCycle s.ready c, rfl, hwas, hfresh, hsig, fun i hi => ?_⟩
    rw [hedges]
    exact mem_risingInputs hi
  · refine runBoth_act (r := .ok (softEvent s.ready (2 ^ k.val))) h rfl ?_ (congrArg Except.ok (softEvent_one _ k))
    show (Except.ok (softEvent s.ready (leNat (leInt 1 (2 ^ k.val : Nat)))) : Eff).map _ = _
    rw [leNat_leInt_nat (Nat.pow_lt_pow_right (by decide) k.isLt)]
  · exact runBoth_set h rfl rfl rfl hv (writeEffect_selector hne)
  · refine runBoth_set h ?_ ?_ ?_ hv (writeEffect_lut ..)
    all_goals cases field <;> rfl

end Sys2Proof.Machine

/-! Edges at the consumers (chapters 4, 7, 8, 12 and 13) and the supervisory converters (chapter 13). -/
namespace Sys2Proof.Machine

section
variable {d : Dev} {n : Nat} {stamp : Int}

theorem apStartEdge_idle (hb : chBound d n = false) (hstart : d.nat O.chApStart n = 1) (hap : apState (d.chan n) = 0)
    (hok : apStartRefused d n = false) : apStartEdge d n stamp = apBegin d n stamp := by
  simp [apStartEdge, hb, hstart, hap, hok]

theorem apStartEdge_busy (hb : chBound d n = false) (hstart : d.nat O.chApStart n = 1) (hap : apState (d.chan n) ≠ 0) :
    apStartEdge d n stamp = ermOverrun d n := by
  simp [apStartEdge, hb, hstart, hap]

theorem traceEdge_armed (hsrc : d.nat O.chTraceTrigSrc (8 * n) = 1) (hst : d.nat O.chTraceState (8 * n) = 2) :
    traceEdge d n = d.setTrace n { d.trace n with held := true } :=
  (if_pos hsrc).trans (if_pos (.inr hst))

end

theorem samUrgentEdge_free {d : Dev} {k c : Nat} (hon : d.nat O.samState k ≠ 0) (hu : (d.conv k).urgent = []) : samUrgentEdge d k c =
    (let t := (d.up + 10 * c + 10) / 20 + 1
     d.setConv k { d.conv k with urgent := [(t, t + samDwell (samWordAt d k (d.nat O.samUrgEntry k % 32) t))] }) := by
  simp [samUrgentEdge, hon, hu]

theorem axdTrig_start {d : Dev} {k c : Nat} (hon : axdOn d = true) (hstart : d.nat O.axdStart k = 1) (hst : d.nat O.axdState k = 1) :
    axdTrig d k c = axdRun d k c := by
  simp [axdTrig, hon, hstart, hst]

theorem axdTrig_step {d : Dev} {k c : Nat} (hon : axdOn d = true) (hst : d.nat O.axdState k = 2) (hmode : d.nat O.axdMode k = 3)
    (hfill : d.nat O.axdFill k ≠ 0) : axdTrig d k c = axdPop d k (d.up + 10 * (c + 1)) := by
  simp [axdTrig, hon, hst, hmode, hfill]

/-! A mark enters staging (R328, R517). -/

@[simp] theorem put_jrn (d : Dev) (o : Obj) (v : Val) (i g : Nat) : (d.put o v i g).jrn = d.jrn := rfl

theorem ringPush_jrn {d e : Dev} (r : JRec) (h : d.jrn = e.jrn) : (ringPush r d).jrn = (ringPush r e).jrn := by
  unfold ringPush
  dsimp only
  rw [h]
  split
  · simp only [Dev.setN, put_jrn]
  · simp only [Dev.bump, Dev.flag, Dev.setN, put_jrn]

theorem drainToRing_jrn {d e : Dev} (h : d.jrn = e.jrn) : (drainToRing d).jrn = (drainToRing e).jrn := by
  have hfold : ∀ (l : List JRec) (x y : Dev), x.jrn = y.jrn → (l.foldl (fun x r => ringPush r x) x).jrn = (l.foldl (fun x r => ringPush r x) y).jrn := by
    intro l
    induction l with
    | nil => exact fun _ _ hxy => hxy
    | cons r l ih => exact fun x y hxy => ih _ _ (ringPush_jrn r hxy)
  unfold drainToRing
  rw [h]
  split
  · exact congrArg (fun j : Jrn => { j with staging := [] }) (hfold _ d e h)
  · exact h

/-- What staging makes of the journal depends on the journal and on the next sequence alone. -/
theorem stage_jrn {d e : Dev} (r : Bytes) (flt : Bool) (hj : d.jrn = e.jrn) (hs : d.nat O.jrnSeqNext = e.nat O.jrnSeqNext) :
    (d.stage r flt).2.jrn = (e.stage r flt).2.jrn := by
  unfold Dev.stage
  dsimp only
  rw [hj, hs]
  split
  · exact drainToRing_jrn rfl
  · split
    · exact hj
    · exact hj

theorem markEdge_staged {d : Dev} {stamp : Int} (hmark : d.erm.mark = none) (hroom : stagingRoom d.jrn.staging false = true) :
    (markEdge d stamp).erm.mark = none ∧
      (markEdge d stamp).jrn = (d.stage (jrecord 5 0xFFFF 0xFF 0 (d.stamp stamp) []) false).2.jrn := by
  have hnone : markTry d = d := by simp [markTry, hmark]
  have hedge : markEdge d stamp = markTry { d with erm := { d.erm with mark := some stamp } } := by simp [markEdge, hnone, hmark]
  rw [hedge, markTry]
  dsimp only
  rw [if_pos hroom]
  exact ⟨rfl, stage_jrn _ _ rfl rfl⟩

/-- Settles O36. -/
theorem consumerEdgesAct : Obligations.ConsumerEdgesAct :=
  fun s => ⟨fun _ hb hstart hap hok => next_became (apStartEdge_idle hb hstart hap hok),
    fun _ hb hstart hap => next_became (apStartEdge_busy hb hstart hap), fun _ hsrc hst => next_became (traceEdge_armed hsrc hst), fun _ => rfl,
    fun _ => rfl, fun _ _ hon hu => next_became (samUrgentEdge_free hon hu), fun _ _ hon hstart hst => next_became (axdTrig_start hon hstart hst),
    fun _ _ hon hst hmode hfill => next_became (axdTrig_step hon hst hmode hfill),
    fun hmark hroom => ⟨markEdge s.ready (edgeStamp s.ready 186), rfl, markEdge_staged hmark hroom⟩⟩

/-! The converters and their calibration (R338, R345, R352). -/

theorem ite_bnot {α : Type} (b : Bool) (x y : α) : (if (!b) = true then x else y) = if b = true then y else x := by
  cases b
  · rfl
  · rfl

theorem samConversion_reference {d : Dev} {k : Nat} {uV : Int} {vref : Nat} (hon : d.nat O.samState k ≠ 0) (hslot : (samSlot d k).entry = none) :
    samConversion d k uV vref =
      (let e := d.bump O.samConversions k
       let e := if (List.range 32).any fun j => bit (samWordAt e k j (samSlot d k).first) 31 then e else e.flag O.samFlags 2 k
       let e := e.setConv k { d.conv k with clock := (samSlot d k).last, sinceRef := 0 }
       samReference e k (samCode e k 24 false (samRaw 24 false uV vref))) := by
  simp only [samConversion, hon, if_false, hslot, ite_bnot]

theorem samRestart_on {d : Dev} {k : Nat} (hon : d.nat O.samState k ≠ 0) :
    samRestart d k = samRefRestart (forUpto 32 (fun e x => samEntryRestart x k e) d) := if_neg hon

theorem samCalZero_idle {d : Dev} (hst : d.nat O.samCalState = 0)
    (hentry : ∃ e, e < 32 ∧ bit (d.nat O.samECfg (samE (samCalConv d) e)) 31 = true ∧
      samCalMatches d (samCalConv d) (d.nat O.samECfg (samE (samCalConv d) e)) = true) :
    samCalZero d = .ok ({ d with sam := { d.sam with e0 := samIdeal d, calSum := 0, calN := 0 } }.setN O.samCalState 1) := by
  have hany : ((List.range 32).any fun e => bit (d.nat O.samECfg (samE (samCalConv d) e)) 31 &&
      samCalMatches d (samCalConv d) (d.nat O.samECfg (samE (samCalConv d) e))) = true := by
    obtain ⟨e, he, hon, hmatch⟩ := hentry
    exact List.any_eq_true.mpr ⟨e, List.mem_range.mpr he, by rw [hon, hmatch]; rfl⟩
  refine (if_neg ?_).trans (if_neg (by omega))
  rw [hany]
  decide

theorem samCalSpan_zeroed {d : Dev} (hst : d.nat O.samCalState = 2) :
    samCalSpan d = .ok ({ d with sam := { d.sam with e1 := samIdeal d, calSum := 0, calN := 0 } }.setN O.samCalState 3) :=
  if_neg (not_not_intro hst)

theorem samCalCompute_close {d : Dev} {role : Nat} (hst : d.nat O.samCalState = 4) (hclose : (d.sam.m1 - d.sam.m0).natAbs < 16384) :
    samCalCompute d role = .ok (samCalEnd d 6 2) :=
  (if_neg (not_not_intro hst)).trans (if_pos hclose)

theorem samCalAbort_running {d : Dev} (hlo : 1 ≤ d.nat O.samCalState) (hhi : d.nat O.samCalState ≤ 4) : samCalAbort d = samCalEnd d 6 4 :=
  if_pos ⟨hlo, hhi⟩

/-- Settles O37. -/
theorem convertersAct : Obligations.ConvertersAct := by
  refine fun s => ⟨fun k uV vref hon hslot => next_became (samConversion_reference hon hslot), fun k h hon => ?_, fun e value hv h => ?_,
    fun h hst hentry => ?_, fun h hst => ?_, fun role h hst hclose => ?_, fun h hlo hhi => ?_⟩
  · exact runBoth_act (r := .ok (samRestart s.ready k)) h rfl rfl (congrArg Except.ok (samRestart_on hon))
  · exact runBoth_set h rfl rfl rfl hv rfl
  · exact runBoth_act h rfl rfl (samCalZero_idle hst hentry)
  · exact runBoth_act h rfl rfl (samCalSpan_zeroed hst)
  · exact runBoth_roleAct h rfl rfl (samCalCompute_close hst hclose)
  · exact runBoth_act (r := .ok (samCalAbort s.ready)) h rfl rfl (congrArg Except.ok (samCalAbort_running hlo hhi))

end Sys2Proof.Machine

/-! The next request of a session (R368, R369, Table 14.8): it is executed at once, answered, and nothing held follows it. -/
namespace Sys2Proof.Machine

/-! What answers and messages leave of a session. -/

@[simp] theorem ses_onSes (d : Dev) (k : Fin 16) (f : Session → Session) : (d.onSes k f).ses k = f (d.ses k) := by
  simp [Dev.onSes, Dev.setSes, Dev.ses]

@[simp] theorem nat_onSes (d : Dev) (k : Nat) (f : Session → Session) (o : Obj) (i g : Nat) : (d.onSes k f).nat o i g = d.nat o i g := rfl

@[simp] theorem emit_ses (d : Dev) (binding peer : Nat) (m : Bytes) (k : Nat) : (d.emit binding peer m).ses k = d.ses k := by
  unfold Dev.emit
  split
  · rfl
  · rfl

theorem sesSend_held (d : Dev) (k : Fin 16) (vf op cseq dseq : Nat) (body : Bytes) :
    ((sesSend d k vf op cseq dseq body).ses k).held = (d.ses k).held := by
  simp [sesSend]

theorem sesAnswer_held (d : Dev) (k : Fin 16) (op cseq : Nat) (request : Bytes) (err : Bool) (body : Bytes) :
    ((sesAnswer d k op cseq request err body).ses k).held = (d.ses k).held := by
  rw [sesAnswer, sesRespond, sesSend_held, ses_onSes]

theorem finish_held (d : Dev) (k : Fin 16) (op cseq : Nat) (req : Bytes) (err : Bool) (body : Bytes) (rep : List (Nat × Bytes)) (e : Dev) :
    ((finish d k op cseq req err body rep e).ses k).held = (e.ses k).held := by
  unfold finish
  split
  · refine (foldl_keeps (fun x : Dev => (x.ses k).held) ?_ rep _).trans ((sesAnswer_held ..).trans (congrArg Session.held (put_ses ..)))
    exact fun x a => sesSend_held x k ..
  · exact congrArg Session.held (emit_ses ..)

/-- A session that holds no request runs none. -/
theorem runHeld_none {v : Vault} {d : Dev} {k : Nat} (h : (d.ses k).held = []) (n : Nat) : runHeld v d k n = (v, d) := by
  cases n with
  | zero => rfl
  | succ n =>
    unfold runHeld
    split
    · rfl
    · rw [h]
      rfl

/-! The request in order. -/

/-- The session has heard from its peer. -/
def sesHeard (d : Dev) (k ack : Nat) : Dev := (d.onSes k fun x => { x with lastAt := d.up }).setN O.jdpSesAck ack k

theorem accepted_next {v : Vault} {d : Dev} {k : Fin 16} {op vf ack src : Nat} {b : Bytes} (hst : sesState d k = 2)
    (hawait : (d.ses k).awaiting = none) (hroom : d.nat O.jdpSesCseq k < 0xFFFFFFFF) :
    accepted v d k op vf (d.nat O.jdpSesCseq k + 1) ack src b =
      (let x := execute v (sesHeard d k ack) k op vf (d.nat O.jdpSesCseq k + 1) src b
       runHeld x.1 x.2 k 16) := by
  have hstate : sesState (sesHeard d k ack) k = 2 := by
    rw [sesState, sesHeard, nat_setN_row _ _ _ _ _ (by decide)]
    exact hst
  have hcseq : (sesHeard d k ack).nat O.jdpSesCseq k = d.nat O.jdpSesCseq k := by
    rw [sesHeard, nat_setN_row _ _ _ _ _ (by decide)]
    rfl
  have hfree : ((sesHeard d k ack).ses k).awaiting = none := by
    rw [sesHeard, Dev.setN, put_ses, ses_onSes]
    exact hawait
  have hopen : (if sesState (sesHeard d k ack) k = 1 then (sesHeard d k ack).setN O.jdpSesState 2 k else sesHeard d k ack) = sesHeard d k ack :=
    if_neg (by rw [hstate]; decide)
  unfold accepted
  dsimp only
  rw [show (d.onSes k fun x => { x with lastAt := d.up }).setN O.jdpSesAck ack k = sesHeard d k ack from rfl, hopen, hcseq, hfree, if_neg ?_,
    if_pos ⟨rfl, rfl⟩]
  simp only [Bool.false_or, Bool.or_eq_true, beq_iff_eq]
  omega

theorem nextCseq_free {d : Dev} {k : Nat} (hawait : (d.ses k).awaiting = none) (hnone : (d.ses k).held = []) :
    nextCseq d k = d.nat O.jdpSesCseq k + 1 := by
  simp [nextCseq, hawait, hnone]

/-- An operation that is done here is answered. -/
theorem execute_done {v v' : Vault} {d x e : Dev} {k op cseq src : Nat} {b body : Bytes} {rep : List (Nat × Bytes)}
    (hx : x = (d.onSes k fun s => { s with iface := src / 2 ^ 48 }).setN O.jdpSesPeer (src % 2 ^ 48) k)
    (hop : runOp v x (whoOf x k cseq) op b = .done { body := body } v' e rep) :
    execute v d k op 0 cseq src b = (v', finish x k op cseq b false body rep { e with jdp := { e.jdp with resp := { body := body } } }) := by
  subst hx
  simp only [execute, Nat.zero_mod, ne_eq, not_true_eq_false, if_false, hop]
  rfl

/-- The request of a session that is next: what its operation comes to is the answer. -/
theorem request_next {s : State} {k : Fin 16} {acked op : Nat} {b body : Bytes} {v : Vault} {e : Dev} {rep : List (Nat × Bytes)} (ha : s.asks k)
    (hop : runOp s.vault (s.heard k acked) (s.asker k acked) op b = .done { body := body } v e rep) (hheld : (e.ses k).held = []) :
    request s.vault s.ready k acked op b =
      (v, finish (s.heard k acked) k op (s.turn k) b false body rep { e with jdp := { e.jdp with resp := { body := body } } }) := by
  obtain ⟨hst, hserved, hawait, hnone, hroom⟩ := ha
  have hopen : s.ready.sesOpen k = true := by
    show (sesState s.ready k != 0) = true
    rw [hst]
    rfl
  have hexec := execute_done (d := sesHeard s.ready k acked) (src := sesSrc s.ready k) rfl hop
  have hrun := runHeld_none (v := v) (k := k) ((finish_held (s.heard k acked) k op (s.turn k) b false body rep
    { e with jdp := { e.jdp with resp := { body := body } } }).trans hheld) 16
  rw [request, if_neg (by simp [hopen]), if_neg (by simp [hserved]), nextCseq_free hawait hnone, accepted_next hst hawait hroom]
  exact (congrArg (fun x : Vault × Dev => runHeld x.1 x.2 k 16) hexec).trans hrun

/-- The same for the command. -/
theorem runNet_request {s : State} {k : Fin 16} {acked op : Nat} {b body : Bytes} {v : Vault} {e : Dev} {rep : List (Nat × Bytes)} (ha : s.asks k)
    (hop : runOp s.vault (s.heard k acked) (s.asker k acked) op b = .done { body := body } v e rep) (hheld : (e.ses k).held = []) :
    runNet s (fun v d => request v d k acked op b) = .next (s.replied k acked op b body v e rep) :=
  runNet_eq (request_next ha hop hheld)

end Sys2Proof.Machine

/-! The bodies of requests (Tables 14.3 and 14.5): what the fields of the bytes of a body spell. -/
namespace Sys2Proof.Machine

@[simp] theorem leBytes_length (n x : Nat) : (leBytes n x).length = n := by
  induction n generalizing x with
  | zero => rfl
  | succ n ih => exact congrArg (· + 1) (ih _)

theorem slice_skip {p r : Bytes} {off n : Nat} (h : p.length ≤ off) : slice (p ++ r) off n = slice r (off - p.length) n := by
  rw [slice, List.drop_append, List.drop_eq_nil_of_le h, List.nil_append]
  rfl

theorem slice_here {p r : Bytes} {n : Nat} (h : p.length = n) : slice (p ++ r) 0 n = p := by
  subst h
  exact List.take_left

/-! A field behind others, behind a byte, at the front, alone. -/

@[simp] theorem slice_field {r : Bytes} {off n k x : Nat} (h : k ≤ off) : slice (leBytes k x ++ r) off n = slice r (off - k) n := by
  rw [slice_skip (by rwa [leBytes_length]), leBytes_length]

@[simp] theorem slice_cons {r : Bytes} {b : Byte} {off n : Nat} (h : 1 ≤ off) : slice (b :: r) off n = slice r (off - 1) n := by
  rw [← List.singleton_append, slice_skip h]
  rfl

@[simp] theorem leField_field {r : Bytes} {off n k x : Nat} (h : k ≤ off) : leField (leBytes k x ++ r) off n = leField r (off - k) n :=
  congrArg leNat (slice_field h)

@[simp] theorem leField_cons {r : Bytes} {b : Byte} {off n : Nat} (h : 1 ≤ off) : leField (b :: r) off n = leField r (off - 1) n :=
  congrArg leNat (slice_cons h)

@[simp] theorem leField_here {r : Bytes} {n x : Nat} (h : x < 256 ^ n) : leField (leBytes n x ++ r) 0 n = x := by
  rw [leField, slice_here (leBytes_length ..), leNat_leBytes, Nat.mod_eq_of_lt h]

@[simp] theorem leField_last {n x : Nat} (h : x < 256 ^ n) : leField (leBytes n x) 0 n = x := by
  rw [← List.append_nil (leBytes n x), leField_here h]

/-! Addresses. -/

theorem addrOk_iff {a : Addr} : addrOk a = true ↔ a.index < 65536 ∧ a.sub < 256 ∧ a.node < 256 := by
  simp [addrOk, Sys2Proof.u, and_assoc]

@[simp] theorem addrBytes_length (a : Addr) : (addrBytes a).length = 4 := rfl

/-- The address behind a stretch of bytes. -/
theorem addrAt_behind {a : Addr} (ha : addrOk a = true) (p r : Bytes) : addrAt (p ++ addrBytes a ++ r) p.length = a := by
  obtain ⟨hi, hs, hn⟩ := addrOk_iff.mp ha
  have hskip : ∀ j n, leField (p ++ (addrBytes a ++ r)) (p.length + j) n = leField (addrBytes a ++ r) j n := fun j n => by
    rw [leField, slice_skip (Nat.le_add_right ..), Nat.add_sub_cancel_left]
    rfl
  have h0 := hskip 0 2
  rw [Nat.add_zero] at h0
  rw [addrAt, List.append_assoc, h0, hskip, hskip]
  simp (disch := omega) [addrBytes]

theorem addrAt_front {a : Addr} (ha : addrOk a = true) (r : Bytes) : addrAt (addrBytes a ++ r) 0 = a := addrAt_behind ha [] r

theorem addrAt_addrBytes {a : Addr} (ha : addrOk a = true) : addrAt (addrBytes a) 0 = a := by
  have h := addrAt_front ha []
  rwa [List.append_nil] at h

/-- A run of entries of one size, read one by one. -/
theorem map_entries {α : Type} {enc : α → Bytes} {get : Bytes → Nat → α} {w : Nat} (l : List α) (hlen : ∀ a ∈ l, (enc a).length = w)
    (hget : ∀ a ∈ l, ∀ p r, get (p ++ enc a ++ r) p.length = a) (p : Bytes) :
    (List.range l.length).map (fun k => get (p ++ l.flatMap enc) (p.length + w * k)) = l := by
  induction l generalizing p with
  | nil => rfl
  | cons a l ih =>
    have hrest := ih (fun b hb => hlen b (List.mem_cons_of_mem _ hb)) (fun b hb => hget b (List.mem_cons_of_mem _ hb)) (p ++ enc a)
    have hw := hlen a List.mem_cons_self
    rw [List.length_cons, List.range_succ_eq_map, List.map_cons, List.map_map, List.flatMap_cons, ← List.append_assoc, Nat.mul_zero, Nat.add_zero,
      hget a List.mem_cons_self]
    rw [List.length_append, hw] at hrest
    refine congrArg (a :: ·) (Eq.trans (List.map_congr_left fun k _ => ?_) hrest)
    rw [Function.comp_apply, Nat.mul_succ, Nat.add_assoc, Nat.add_comm w]

/-- A run of entries of one size. -/
theorem length_entries {α : Type} {enc : α → Bytes} {w : Nat} (l : List α) (hlen : ∀ a, (enc a).length = w) :
    (l.flatMap enc).length = w * l.length := by
  induction l with
  | nil => rfl
  | cons a l ih => rw [List.flatMap_cons, List.length_append, ih, hlen, List.length_cons, Nat.mul_succ, Nat.add_comm]

/-! The body of READ_MULTI. -/

/-- The body of a READ_MULTI. -/
def multiBody (l : List Addr) : Bytes := leBytes 1 l.length ++ [0, 0, 0] ++ l.flatMap addrBytes

theorem multiBody_count {l : List Addr} (hn : l.length < 256) : leField (multiBody l) 0 1 = l.length := by
  simp (disch := omega) [multiBody]

theorem multiAddrs_body {l : List Addr} (hl : ∀ a ∈ l, addrOk a = true) (hn : l.length < 256) :
    multiAddrs (multiBody l) = l := by
  rw [multiAddrs, multiBody_count hn]
  exact map_entries (enc := addrBytes) (get := addrAt) l (fun _ _ => rfl) (fun a ha => addrAt_behind (hl a ha)) (leBytes 1 l.length ++ [0, 0, 0])

theorem multiOk_body {l : List Addr} (h1 : 1 ≤ l.length) (h32 : l.length ≤ 32) : multiOk (multiBody l) = true := by
  have hlen : (multiBody l).length = 4 + 4 * l.length := by
    rw [multiBody, List.length_append, List.length_append, leBytes_length, length_entries l addrBytes_length]
    rfl
  rw [multiOk, multiBody_count (by omega), hlen]
  simp [h1, h32]
  rfl

/-! The body of BLOCK. -/

theorem blockBody_eq (dir : Nat) (a : Addr) (off len : Nat) (data : Bytes) :
    blockBody dir a off len data = leBytes 2 a.index ++ (leBytes 1 a.sub ++ (leBytes 1 a.node ++ (leBytes 1 dir ++ 0 :: (leBytes 2 len ++
      (leBytes 4 off ++ data))))) := by
  simp [blockBody, addrBytes]

theorem blockBody_addr {dir : Nat} {a : Addr} {off len : Nat} {data : Bytes} (ha : addrOk a = true) : addrAt (blockBody dir a off len data) 0 = a := by
  rw [blockBody, List.append_assoc, List.append_assoc, List.append_assoc, List.append_assoc]
  exact addrAt_front ha _

theorem blockBody_length (dir : Nat) (a : Addr) (off len : Nat) (data : Bytes) : (blockBody dir a off len data).length = 12 + data.length := by
  simp [blockBody]
  omega

theorem blockBody_data (dir : Nat) (a : Addr) (off len : Nat) (data : Bytes) : (blockBody dir a off len data).drop 12 = data := rfl

theorem blockBody_fields {dir : Nat} {a : Addr} {off len : Nat} {data : Bytes} (hdir : dir < 256) (hoff : off < 2 ^ 32) (hlen : len < 2 ^ 16) :
    leField (blockBody dir a off len data) 4 1 = dir ∧ leField (blockBody dir a off len data) 5 1 = 0 ∧
    leField (blockBody dir a off len data) 6 2 = len ∧ leField (blockBody dir a off len data) 8 4 = off := by
  rw [blockBody_eq]
  simp (disch := omega)
  rfl

end Sys2Proof.Machine

/-! Requests that read (R360, R375, R376, R377, R385). -/
namespace Sys2Proof.Machine

theorem place_own (d : Dev) : place d d.node = .own := if_pos rfl

theorem atNode_own {v : Vault} {d : Dev} {n : Nat} {o : OpOut} (h : n = d.node) : atNode v d n o = o := by
  subst h
  rw [atNode, place_own]

theorem heard_held {s : State} {k : Fin 16} (acked : Nat) (h : (s.ready.ses k).held = []) : ((s.heard k acked).ses k).held = [] := by
  rw [State.heard, Dev.setN, put_ses, ses_onSes, Dev.setN, put_ses, ses_onSes]
  exact h

/-! What each operation runs. -/

section
variable (v : Vault) (d : Dev) (w : Who) (b : Bytes)

theorem runOp_read : runOp v d w opRead b = if b.length ≠ 4 then opBad v d else atNode v d (addrAt b 0).node (readOp v d w false (addrAt b 0)) := rfl

theorem runOp_peek : runOp v d w opPeek b = if b.length ≠ 4 then opBad v d else atNode v d (addrAt b 0).node (readOp v d w true (addrAt b 0)) := rfl

theorem runOp_readMulti : runOp v d w opReadMulti b =
    (if !multiOk b then opBad v d else match nextFar d b [] with | some n => .forward n | none => readMulti v d w false b []) := rfl

theorem runOp_block : runOp v d w opBlock b = blockOp v d w b := rfl

theorem runOp_resync : runOp v d w opResync b = replayOp v d w b := rfl

end

theorem readOp_ok {v : Vault} {d e : Dev} {w : Who} {peek : Bool} {a : Addr} {t : Nat} {b : Bytes}
    (h : readAt v (touchAt d w a.index a.sub) w peek a.index a.sub = .ok (t, b, e)) : readOp v d w peek a = opOk v e (typed t b) := by
  simp [readOp, h]

section
variable {v : Vault} {d : Dev} {w : Who} {a : Addr}

theorem runOp_readOwn (ha : addrOk a = true) (hnode : a.node = d.node) : runOp v d w opRead (addrBytes a) = readOp v d w false a := by
  rw [runOp_read, if_neg (not_not_intro (addrBytes_length a)), addrAt_addrBytes ha, atNode_own hnode]

theorem runOp_peekOwn (ha : addrOk a = true) (hnode : a.node = d.node) : runOp v d w opPeek (addrBytes a) = readOp v d w true a := by
  rw [runOp_peek, if_neg (not_not_intro (addrBytes_length a)), addrAt_addrBytes ha, atNode_own hnode]

/-- The items of a READ_MULTI all lie at this node. -/
theorem runOp_readMultiOwn {l : List Addr} (hl : ∀ a ∈ l, addrOk a = true) (h1 : 1 ≤ l.length) (h32 : l.length ≤ 32)
    (hnode : ∀ a ∈ l, a.node = d.node) :
    runOp v d w opReadMulti (multiBody l) = opOk v (readItems v w false l [] d []).2 (readItems v w false l [] d []).1 := by
  have hfar : nextFar d (multiBody l) [] = none := by
    rw [nextFar, multiAddrs_body hl (by omega), List.find?_eq_none]
    intro n hn
    obtain ⟨a, ha, rfl⟩ := List.mem_map.mp hn
    rw [hnode a ha, place_own]
    simp
  rw [runOp_readMulti, multiOk_body h1 h32, hfar]
  show readMulti v d w false (multiBody l) [] = _
  rw [readMulti, multiAddrs_body hl (by omega)]
  rfl

/-- A piece of an object at this node. -/
theorem runOp_blockReadOwn {off len : Nat} {x : Bytes} (ha : addrOk a = true) (hoff : off < 2 ^ 32) (hlen : len < 2 ^ 16) (hnode : a.node = d.node)
    (h : blockRead (touchBlock d w a.index a.sub off len) w a.index a.sub off len = .ok x) :
    runOp v d w opBlock (blockBody 0 a off len []) = opOk v (touchBlock d w a.index a.sub off len) x := by
  obtain ⟨hdir, hzero, hlenf, hofff⟩ := blockBody_fields (a := a) (data := []) (dir := 0) (by decide) hoff hlen
  rw [runOp_block, blockOp, hdir, hzero, hlenf, hofff, blockBody_length, blockBody_addr ha, if_neg (by simp), atNode_own hnode, if_pos rfl]
  simp only [h]

/-- RESYNC with mode REPLAY. -/
theorem runOp_replay {seen : Nat} (hseen : seen < 2 ^ 32) (hfollow : dseqFollows seen (d.nat O.jdpSesDseq w.slot) = false) :
    runOp v d w opResync (resyncBody 2 0 0 seen [] 0) =
      .done { body := resyncAnswer d w.slot (firstReplayed d w.slot seen) 0 0 [] } v d (replay d w.slot seen) := by
  have hfield : leField (resyncBody 2 0 0 seen [] 0) 4 4 = seen := by
    rw [show resyncBody 2 0 0 seen [] 0 = 2 :: 0 :: 0 :: 0 :: (leBytes 4 seen ++ List.replicate 20 0) from rfl]
    simp (disch := omega) only [leField_cons, leField_here, Nat.reduceSub]
  have hlen : (resyncBody 2 0 0 seen [] 0).length = 28 := rfl
  have hmode : leField (resyncBody 2 0 0 seen [] 0) 0 1 = 2 := rfl
  have hzero : leField (resyncBody 2 0 0 seen [] 0) 3 1 = 0 := rfl
  have hnonce : slice (resyncBody 2 0 0 seen [] 0) 8 16 = List.replicate 16 0 := rfl
  have htail : slice (resyncBody 2 0 0 seen [] 0) 26 2 = [0, 0] := rfl
  have hform : ¬ ((resyncBody 2 0 0 seen [] 0).length ≠ 28 ∨ leField (resyncBody 2 0 0 seen [] 0) 3 1 ≠ 0 ∨
      (!allZero (slice (resyncBody 2 0 0 seen [] 0) 8 16)) = true ∨ (!allZero (slice (resyncBody 2 0 0 seen [] 0) 26 2)) = true) := by
    rw [hlen, hzero, hnonce, htail]
    decide
  rw [runOp_resync, replayOp, hfield, hmode, if_neg hform]
  exact if_neg (by rw [hfollow]; decide)

end

/-- Settles O39. -/
theorem sessionReadsAct : Obligations.SessionReadsAct := by
  rintro s k acked d w hask rfl rfl
  have hheard := heard_held acked hask.2.2.2.1
  refine ⟨fun a t b e hwf hnode hread hheld => ?_, fun a t b e hwf hnode hread hheld => ?_, fun l hwf h1 h32 hnode hheld => ?_,
    fun a off len x hwf hnode hread hheld => ?_, ?_, fun seen hwf hfollow => ?_⟩
  · exact runNet_request hask ((runOp_readOwn (Bool.and_eq_true_iff.mp hwf).2 hnode).trans (readOp_ok hread)) hheld
  · exact runNet_request hask ((runOp_peekOwn (Bool.and_eq_true_iff.mp hwf).2 hnode).trans (readOp_ok hread)) hheld
  · have hl : ∀ a ∈ l, addrOk a = true := List.all_eq_true.mp (Bool.and_eq_true_iff.mp hwf).2
    exact runNet_request hask (runOp_readMultiOwn hl h1 h32 hnode) hheld
  · obtain ⟨hwf, hlen⟩ := Bool.and_eq_true_iff.mp hwf
    obtain ⟨hwf, hoff⟩ := Bool.and_eq_true_iff.mp hwf
    obtain ⟨-, ha⟩ := Bool.and_eq_true_iff.mp hwf
    exact runNet_request hask (runOp_blockReadOwn ha (of_decide_eq_true hoff) (of_decide_eq_true hlen) hnode hread) hheld
  · exact runNet_request hask rfl hheard
  · exact runNet_request hask (runOp_replay (of_decide_eq_true (Bool.and_eq_true_iff.mp hwf).2) hfollow) hheard

end Sys2Proof.Machine

/-! Requests that write (R375, R377). -/
namespace Sys2Proof.Machine

/-! The bodies of WRITE and WRITE_MULTI. -/

/-- The item of a request as the write engine takes it. -/
def Item.staged (x : Item) : Staged := ⟨x.addr.index, x.addr.sub, x.typ, none, x.data⟩

theorem itemOk_iff {x : Item} : itemOk x = true ↔ addrOk x.addr = true ∧ x.typ < 256 ∧ x.data.length ≤ 1040 := by
  simp [itemOk, Sys2Proof.u, atMost, and_assoc]

theorem itemBytes_eq (x : Item) (r : Bytes) : itemBytes x ++ r = addrBytes x.addr ++ (leBytes 1 x.typ ++ 0 :: (leBytes 2 x.data.length ++
    (x.data ++ r))) := by
  simp [itemBytes]

/-- Reading an item takes the item and leaves what follows it. -/
theorem writeItem_itemBytes {x : Item} (hx : itemOk x = true) (r : Bytes) :
    writeItem (itemBytes x ++ r) = some (x.addr.node, x.staged, r) := by
  obtain ⟨ha, ht, hd⟩ := itemOk_iff.mp hx
  have hskip : ∀ {off n : Nat}, 4 ≤ off → slice (itemBytes x ++ r) off n =
      slice (leBytes 1 x.typ ++ 0 :: (leBytes 2 x.data.length ++ (x.data ++ r))) (off - 4) n := fun h => by
    rw [itemBytes_eq, slice_skip h]
    rfl
  have htyp : leField (itemBytes x ++ r) 4 1 = x.typ := by
    rw [leField, hskip (by omega)]
    exact leField_here (by omega)
  have hzero : leField (itemBytes x ++ r) 5 1 = 0 := by
    rw [leField, hskip (by omega), slice_field (by omega)]
    rfl
  have hlen : leField (itemBytes x ++ r) 6 2 = x.data.length := by
    rw [leField, hskip (by omega), slice_field (by omega), slice_cons (by omega)]
    exact leField_here (by omega)
  have hdata : slice (itemBytes x ++ r) 8 x.data.length = x.data := by
    rw [hskip (by omega), slice_field (by omega), slice_cons (by omega), slice_field (by omega)]
    exact slice_here rfl
  have hsize : (itemBytes x).length = 8 + x.data.length := by
    simp [itemBytes]
    omega
  have haddr : addrAt (itemBytes x ++ r) 0 = x.addr := by
    rw [itemBytes_eq]
    exact addrAt_front ha _
  rw [writeItem, hlen, hzero, htyp, hdata, haddr, List.drop_left' hsize]
  exact if_neg (by simp [hsize])

theorem writeItemsOf_itemBytes (l : List Item) (hl : ∀ x ∈ l, itemOk x = true) :
    writeItemsOf l.length (l.flatMap itemBytes) = some (l.map fun x => (x.addr.node, x.staged)) := by
  induction l with
  | nil => rfl
  | cons x l ih =>
    rw [List.length_cons, List.flatMap_cons, writeItemsOf, writeItem_itemBytes (hl x List.mem_cons_self)]
    simp only [ih fun y hy => hl y (List.mem_cons_of_mem _ hy), Option.map_some, List.map_cons]

theorem writeBody_one {x : Item} (hx : itemOk x = true) : writeBody false (itemBytes x) = some [(x.addr.node, x.staged)] := by
  have h := writeItemsOf_itemBytes [x] (by simpa using hx)
  rwa [List.flatMap_singleton] at h

theorem writeBody_multi {l : List Item} (hl : ∀ x ∈ l, itemOk x = true) (h1 : 1 ≤ l.length) (h32 : l.length ≤ 32) :
    writeBody true (leBytes 1 l.length ++ [0, 0, 0] ++ l.flatMap itemBytes) = some (l.map fun x => (x.addr.node, x.staged)) := by
  have hcount : leField (leBytes 1 l.length ++ [0, 0, 0] ++ l.flatMap itemBytes) 0 1 = l.length := by
    rw [List.append_assoc]
    exact leField_here (by omega)
  have hzero : allZero (slice (leBytes 1 l.length ++ [0, 0, 0] ++ l.flatMap itemBytes) 1 3) = true := rfl
  have hlen : (leBytes 1 l.length ++ [0, 0, 0] ++ l.flatMap itemBytes).length = 4 + (l.flatMap itemBytes).length := by
    simp
    omega
  rw [writeBody, if_neg (by decide)]
  dsimp only
  rw [hcount, hzero, hlen, if_neg (by simp only [Bool.not_true, Bool.false_eq_true, or_false]; omega)]
  exact writeItemsOf_itemBytes l hl

/-! What the operations come to outside the session's locks. -/

section
variable {v v' : Vault} {d e : Dev} {w : Who}

theorem runOp_write (b : Bytes) : runOp v d w opWrite b = writeRequest v d w false b := rfl

theorem runOp_writeMulti (b : Bytes) : runOp v d w opWriteMulti b = writeRequest v d w true b := rfl

/-- No item lies in a lock of the session: the write engine takes them at once (R379). -/
theorem writeOp_unlocked {multi : Bool} {y : Staged} {ys : List Staged} (hlock : ∀ x ∈ y :: ys, holderLock d w.slot d.node x = none)
    (hwrite : writeItems v d w (y :: ys) = .ok (v', e)) : writeOp v d w multi (y :: ys) = opOk v' e [] := by
  have hmap : ((y :: ys).map (holderLock d w.slot d.node)).eraseDups = [none] := by
    rw [List.map_congr_left hlock, List.map_cons, List.eraseDups_cons, List.filter_eq_nil_iff.mpr ?_]
    · rfl
    · intro o ho
      obtain ⟨_, -, rfl⟩ := List.mem_map.mp ho
      decide
  simp only [writeOp, hmap, hwrite]

theorem writeRequest_unlocked {multi : Bool} {b : Bytes} {y : Staged} {ys : List Staged} {l : List (Nat × Staged)}
    (hbody : writeBody multi b = some l) (hl : l = (y :: ys).map fun x => (d.node, x))
    (hlock : ∀ x ∈ y :: ys, holderLock d w.slot d.node x = none)
    (hwrite : writeItems v d w (y :: ys) = .ok (v', e)) : writeRequest v d w multi b = opOk v' e [] := by
  have hsame : (ys.map fun x => (d.node, x)).any (fun q => q.1 != d.node) = false := by simp
  have hitems : (ys.map fun x => (d.node, x)).map (·.2) = ys := by
    rw [List.map_map]
    exact List.map_id ys
  subst hl
  unfold writeRequest
  simp only [hbody, List.map_cons, hsame, hitems, Bool.false_eq_true, if_false, atNode_own, writeOp_unlocked hlock hwrite]

/-- WRITE of an object at this node. -/
theorem runOp_writeOwn {x : Item} (hx : itemOk x = true) (hnode : x.addr.node = d.node) (hlock : holderLock d w.slot d.node x.staged = none)
    (hwrite : writeItems v d w [x.staged] = .ok (v', e)) : runOp v d w opWrite (itemBytes x) = opOk v' e [] :=
  (runOp_write _).trans <| writeRequest_unlocked (writeBody_one hx) (by rw [hnode]; rfl) (by simpa using hlock) hwrite

/-- The items of a WRITE_MULTI all lie at this node. -/
theorem runOp_writeMultiOwn {l : List Item} (hl : ∀ x ∈ l, itemOk x = true) (h1 : 1 ≤ l.length) (h32 : l.length ≤ 32)
    (hnode : ∀ x ∈ l, x.addr.node = d.node) (hlock : ∀ y ∈ l.map Item.staged, holderLock d w.slot d.node y = none)
    (hwrite : writeItems v d w (l.map Item.staged) = .ok (v', e)) :
    runOp v d w opWriteMulti (leBytes 1 l.length ++ [0, 0, 0] ++ l.flatMap itemBytes) = opOk v' e [] := by
  obtain ⟨y, ys, hys⟩ := List.exists_cons_of_length_pos (l := l.map Item.staged) (by rw [List.length_map]; exact h1)
  rw [hys] at hlock hwrite
  refine (runOp_writeMulti _).trans (writeRequest_unlocked (writeBody_multi hl h1 h32) ?_ hlock hwrite)
  rw [← hys, List.map_map]
  exact List.map_congr_left fun x hx => by rw [hnode x hx]; rfl

/-! BLOCK. -/

/-- What a session keeps of a transfer takes no part in its locks. -/
theorem holderLock_onSes (d : Dev) (j k n : Nat) (f : Session → Session) (x : Staged) : holderLock (d.onSes j f) k n x = holderLock d k n x := rfl

/-- A piece for an object at this node. -/
theorem runOp_blockPiece {dir : Nat} {a : Addr} {b : Bytes} (hdir : dir < 3) (hpos : 0 < dir) (ha : addrOk a = true) (hnode : a.node = d.node)
    (hb : b.length ≤ 1012) : runOp v d w opBlock (blockBody dir a 0 b.length b) = blockPiece v d w (blockBody dir a 0 b.length b) := by
  obtain ⟨hd, hzero, hlen, hoff⟩ := blockBody_fields (a := a) (data := b) (dir := dir) (off := 0) (len := b.length) (by omega) (by decide) (by omega)
  rw [runOp_block, blockOp, hd, hzero, hlen, hoff, blockBody_length, blockBody_addr ha, if_neg (by simp; omega), atNode_own hnode, if_neg (by omega)]

/-- What a piece at offset 0 of an assembled object does. -/
theorem blockPiece_first {dir : Nat} {a : Addr} {b : Bytes} {l : Loc} (hdir : dir < 3) (ha : addrOk a = true) (hb : b.length ≤ 1012)
    (hl : lookup a.index a.sub = some l) (hro : l.o.acc ≠ .ro) (hconst : l.o.acc ≠ .const) (hrole : writeRole w l ≤ w.role)
    (hdom : l.o.ty = .domain) (hpart : partialObj l.o = false) :
    blockPiece v d w (blockBody dir a 0 b.length b) =
      if dir = 2 then blockApply v (d.onSes w.slot fun x => { x with block := none }) w a b
      else opOk v (d.onSes w.slot fun x => { x with block := some (blockKey (addrBytes a), b) }) [] := by
  obtain ⟨hd, -, -, hoff⟩ := blockBody_fields (a := a) (data := b) (dir := dir) (off := 0) (len := b.length) (by omega) (by decide) (by omega)
  have hkey : blockKey (blockBody dir a 0 b.length b) = blockKey (addrBytes a) := rfl
  unfold blockPiece
  dsimp only
  rw [blockBody_addr ha, hd, hoff, hl, hkey, blockBody_data]
  dsimp only
  rw [if_neg (not_or.mpr ⟨hro, hconst⟩), if_neg (by omega), if_neg (not_not_intro hdom), hpart, if_neg Bool.false_ne_true, if_pos rfl]
  dsimp only
  rw [if_neg (by omega)]
  simp only [beq_iff_eq]

/-- The last piece applies the value outside the session's locks. -/
theorem blockPiece_last {a : Addr} {b : Bytes} {l : Loc} (ha : addrOk a = true) (hb : b.length ≤ 1012)
    (hl : lookup a.index a.sub = some l) (hro : l.o.acc ≠ .ro) (hconst : l.o.acc ≠ .const) (hrole : writeRole w l ≤ w.role)
    (hdom : l.o.ty = .domain) (hpart : partialObj l.o = false)
    (hlock : holderLock d w.slot d.node ⟨a.index, a.sub, tyCode .domain, none, b⟩ = none)
    (hwrite : writeItems v (d.onSes w.slot fun x => { x with block := none }) w [⟨a.index, a.sub, tyCode .domain, none, b⟩] = .ok (v', e)) :
    blockPiece v d w (blockBody 2 a 0 b.length b) = opOk v' e [] := by
  rw [blockPiece_first (by decide) ha hb hl hro hconst hrole hdom hpart, if_pos rfl]
  exact writeOp_unlocked (List.forall_mem_singleton.mpr ((holderLock_onSes ..).trans hlock)) hwrite

/-- The first piece is kept for the session. -/
theorem blockPiece_kept {a : Addr} {b : Bytes} {l : Loc} (ha : addrOk a = true) (hb : b.length ≤ 1012)
    (hl : lookup a.index a.sub = some l) (hro : l.o.acc ≠ .ro) (hconst : l.o.acc ≠ .const) (hrole : writeRole w l ≤ w.role)
    (hdom : l.o.ty = .domain) (hpart : partialObj l.o = false) :
    blockPiece v d w (blockBody 1 a 0 b.length b) =
      opOk v (d.onSes w.slot fun x => { x with block := some (blockKey (addrBytes a), b) }) [] := by
  rw [blockPiece_first (by decide) ha hb hl hro hconst hrole hdom hpart, if_neg (by decide)]

end

theorem blockWrite_wf {acked off : Nat} {a : Addr} {b : Bytes}
    (hwf : (Sys2Proof.u 32 acked && addrOk a && Sys2Proof.u 32 off && atMost 1012 b) = true) : addrOk a = true ∧ b.length ≤ 1012 := by
  simp only [Bool.and_eq_true] at hwf
  obtain ⟨⟨⟨-, ha⟩, -⟩, hb⟩ := hwf
  exact ⟨ha, of_decide_eq_true hb⟩

/-- Settles O40. -/
theorem sessionWritesAct : Obligations.SessionWritesAct := by
  rintro s k acked d w hask rfl rfl
  refine ⟨?_, ?_, ?_, ?_⟩
  · rintro x y v e hwf hnode rfl hlock hwrite hheld
    exact runNet_request hask (runOp_writeOwn (Bool.and_eq_true_iff.mp hwf).2 hnode hlock hwrite) hheld
  · rintro l ys v e hwf h1 h32 hnode rfl hlock hwrite hheld
    have hl := List.all_eq_true.mp (Bool.and_eq_true_iff.mp hwf).2
    exact runNet_request hask (runOp_writeMultiOwn hl h1 h32 hnode hlock hwrite) hheld
  · intro a l b hwf hnode hl hro hconst hrole hdom hpart
    obtain ⟨ha, hb⟩ := blockWrite_wf hwf
    exact runNet_request hask ((runOp_blockPiece (dir := 1) (by decide) (by decide) ha hnode hb).trans
      (blockPiece_kept ha hb hl hro hconst hrole hdom hpart)) ((congrArg Session.held (ses_onSes ..)).trans (heard_held acked hask.2.2.2.1))
  · rintro a l b y v e hwf hnode hl hro hconst hrole hdom hpart rfl hlock hwrite hheld
    obtain ⟨ha, hb⟩ := blockWrite_wf hwf
    exact runNet_request hask ((runOp_blockPiece (dir := 2) (by decide) (by decide) ha hnode hb).trans
      (blockPiece_last ha hb hl hro hconst hrole hdom hpart hlock hwrite)) hheld

end Sys2Proof.Machine

/-! Locks, commits and subscriptions of a session (R378, R380, R381, R384). -/
namespace Sys2Proof.Machine

/-! What the operations on a lock leave of the sessions. -/

@[simp] theorem setLock_ses (d : Dev) (j : Nat) (x : LockSt) (k : Nat) : (d.setLock j x).ses k = d.ses k := rfl

@[simp] theorem setN_ses (d : Dev) (o : Obj) (v : Nat) (i j : Nat) (k : Nat) : (d.setN o v i j).ses k = d.ses k := put_ses ..

theorem renewLock_ses (d : Dev) (j lease k : Nat) : (renewLock d j lease).ses k = d.ses k := rfl

theorem setStaged_ses (d : Dev) (j : Nat) (l : List Staged) (k : Nat) : (setStaged d j l).ses k = d.ses k := by simp [setStaged]

theorem freeLock_ses (d : Dev) (j k : Nat) : ((freeLock d j).1).ses k = d.ses k := by
  simp only [freeLock, setN_ses, setLock_ses]
  split <;> rfl

theorem takeLock_held (d : Dev) (k : Fin 16) (node lease : Nat) (l : List (Nat × Nat)) (r : Nat) :
    (((takeLock d k node lease l r).2).ses k).held = (d.ses k).held := by
  simp only [takeLock, setN_ses, ses_onSes, setLock_ses]
  rfl

theorem setSubs_held (d : Dev) (k : Fin 16) (l : List Sub) : ((setSubs d k l).ses k).held = (d.ses k).held := by
  rw [setSubs, setN_ses, ses_onSes]

/-! The bodies. -/

theorem lockBody_eq (node lease : Nat) (l : List (Nat × Nat)) : lockBody node lease l =
    leBytes 1 node ++ (leBytes 1 l.length ++ 0 :: 0 :: (leBytes 4 lease ++ l.flatMap fun r => leBytes 2 r.1 ++ leBytes 2 r.2)) := by
  simp [lockBody]

theorem lockBody_fields {node lease : Nat} {l : List (Nat × Nat)} (hnode : node < 256) (hlease : lease < 2 ^ 32) (hl : l.length ≤ 8) :
    leField (lockBody node lease l) 0 1 = node ∧ leField (lockBody node lease l) 1 1 = l.length ∧ leField (lockBody node lease l) 4 4 = lease := by
  rw [lockBody_eq]
  simp (disch := omega) only [leField_field, leField_here, leField_cons, Nat.reduceSub, and_self]

theorem lockOk_body {node lease : Nat} {l : List (Nat × Nat)} (hnode : node < 256) (hlease : lease < 2 ^ 32) (h1 : 1 ≤ l.length)
    (h8 : l.length ≤ 8) : lockOk (lockBody node lease l) = true := by
  have hlen : (lockBody node lease l).length = 8 + 4 * l.length := by
    rw [lockBody, List.length_append, length_entries (w := 4) l fun _ => rfl]
    rfl
  have hzero : allZero (slice (lockBody node lease l) 2 2) = true := by
    rw [lockBody_eq, slice_field (by omega), slice_field (by omega)]
    rfl
  rw [lockOk, (lockBody_fields hnode hlease h8).2.1, hlen, hzero]
  simp [h8]
  omega

/-- A range behind a stretch of bytes. -/
theorem range_behind {x : Nat × Nat} (h1 : x.1 < 65536) (h2 : x.2 < 65536) (p r : Bytes) :
    (leField (p ++ (leBytes 2 x.1 ++ leBytes 2 x.2) ++ r) p.length 2, leField (p ++ (leBytes 2 x.1 ++ leBytes 2 x.2) ++ r) (p.length + 2) 2) = x := by
  have hskip : ∀ j, leField (p ++ (leBytes 2 x.1 ++ (leBytes 2 x.2 ++ r))) (p.length + j) 2 = leField (leBytes 2 x.1 ++ (leBytes 2 x.2 ++ r)) j 2 :=
    fun j => by
      rw [leField, slice_skip (Nat.le_add_right ..), Nat.add_sub_cancel_left]
      rfl
  have h0 := hskip 0
  rw [Nat.add_zero] at h0
  rw [List.append_assoc, List.append_assoc, h0, hskip]
  simp (disch := omega) only [leField_field, leField_here, Nat.reduceSub]

theorem lockRanges_body {node lease : Nat} {l : List (Nat × Nat)} (hnode : node < 256) (hlease : lease < 2 ^ 32) (h8 : l.length ≤ 8)
    (hl : ∀ r ∈ l, r.1 < 65536 ∧ r.2 < 65536) : lockRanges (lockBody node lease l) = l := by
  rw [lockRanges, (lockBody_fields hnode hlease h8).2.1]
  have h := map_entries (enc := fun r : Nat × Nat => leBytes 2 r.1 ++ leBytes 2 r.2) (get := fun b o => (leField b o 2, leField b (o + 2) 2)) (w := 4) l
    (fun _ _ => by simp) (fun r hr => range_behind (hl r hr).1 (hl r hr).2) (leBytes 1 node ++ leBytes 1 l.length ++ [0, 0] ++ leBytes 4 lease)
  simp only [List.length_append, leBytes_length, List.length_cons, List.length_nil] at h
  refine Eq.trans (List.map_congr_left fun k _ => ?_) h
  have : 8 + 4 * k + 2 = 10 + 4 * k := by omega
  show _ = (leField (lockBody node lease l) (8 + 4 * k) 2, leField (lockBody node lease l) (8 + 4 * k + 2) 2)
  rw [this]

/-- A body of a handle, two zero bytes and what follows. -/
theorem handle_fields {h : Nat} (hh : h < 65536) (r : Bytes) :
    leField (leBytes 2 h ++ [0, 0] ++ r) 0 2 = h ∧ allZero (slice (leBytes 2 h ++ [0, 0] ++ r) 2 2) = true := by
  rw [List.append_assoc]
  refine ⟨leField_here (by omega), ?_⟩
  rw [slice_field (by omega)]
  rfl

theorem renewBody_lease {h lease : Nat} (hl : lease < 2 ^ 32) : leField (leBytes 2 h ++ [0, 0] ++ leBytes 4 lease) 4 4 = lease := by
  simp only [List.append_assoc, List.cons_append, List.nil_append]
  simp (disch := omega) only [leField_field, leField_last, leField_cons, Nat.reduceSub]

theorem commitBody_fields {h n : Nat} (hh : h < 65536) (hn : n < 256) :
    leField (leBytes 2 h ++ leBytes 1 n ++ [0]) 0 2 = h ∧ leField (leBytes 2 h ++ leBytes 1 n ++ [0]) 2 1 = n ∧
    leField (leBytes 2 h ++ leBytes 1 n ++ [0]) 3 1 = 0 := by
  rw [List.append_assoc]
  simp (disch := omega) only [leField_field, leField_here, Nat.reduceSub, true_and]
  rfl

theorem subBody_fields {action kind : Nat} {a : Addr} (ha : addrOk a = true) (hact : action < 256) (hkind : kind < 256) :
    leField (subBody action kind a) 0 1 = action ∧ subOfBody (subBody action kind a) = subOf kind a.node a.index a.sub ∧
    allZero (slice (subBody action kind a) 6 2) = true := by
  obtain ⟨hi, hs, hn⟩ := addrOk_iff.mp ha
  rw [subOfBody, show subBody action kind a = leBytes 1 action ++ (leBytes 1 kind ++ (leBytes 1 a.node ++ (leBytes 1 a.sub ++ (leBytes 2 a.index ++
    [0, 0])))) by simp [subBody]]
  simp (disch := omega) only [leField_field, leField_here, slice_field, Nat.reduceSub, true_and]
  rfl

/-! What the operations come to. -/

section
variable {v v' : Vault} {d e : Dev} {w : Who}

theorem runOp_lockOp (b : Bytes) : runOp v d w opLock b = lockOp v d w b := rfl
theorem runOp_renewOp (b : Bytes) : runOp v d w opRenew b = renewOp v d w b := rfl
theorem runOp_releaseOp (b : Bytes) : runOp v d w opRelease b = releaseOp v d w b := rfl
theorem runOp_commitOp (b : Bytes) : runOp v d w opCommit b = commitOp v d w b := rfl
theorem runOp_subscribeOp (b : Bytes) : runOp v d w opSubscribe b = subscribeOp v d w b := rfl

theorem runOp_lock {node lease : Nat} {l : List (Nat × Nat)} (hnode : d.node < 256) (hlease : lease < 2 ^ 32) (h1 : 1 ≤ l.length)
    (h8 : l.length ≤ 8) (hl : ∀ r ∈ l, r.1 < 65536 ∧ r.2 < 65536) (hrole : 1 ≤ w.role) (hcode : lockCode d w.slot d.node lease l = none)
    (hown : node = d.node) :
    runOp v d w opLock (lockBody node lease l) =
      opOk v (takeLock d w.slot d.node lease l 0).2 (lockAnswer (takeLock d w.slot d.node lease l 0).1 lease) := by
  subst hown
  obtain ⟨hn, -, hle⟩ := lockBody_fields hnode hlease h8
  rw [runOp_lockOp, lockOp]
  dsimp only
  rw [lockOk_body hnode hlease h1 h8, lockRanges_body hnode hlease h8 hl, hn, hle, if_neg (by decide), if_neg (by omega), place_own, hcode]

theorem runOp_renew {h lease j : Nat} (hh : h < 65536) (hl : lease < 2 ^ 32) (hlock : namedLock d w.slot h = .ok j) (hok : leaseOk lease = true)
    (hfar : lockFar d j = none) :
    runOp v d w opRenew (leBytes 2 h ++ [0, 0] ++ leBytes 4 lease) = opOk v (renewLock d j lease) (leBytes 4 lease) := by
  obtain ⟨hhandle, hzero⟩ := handle_fields hh (leBytes 4 lease)
  rw [runOp_renewOp, renewOp, if_neg (by rw [hzero]; simp), hhandle, hlock]
  dsimp only
  rw [renewBody_lease hl, hok, if_neg (by decide), hfar]

theorem runOp_release {h j : Nat} (hh : h < 65536) (hall : h ≠ 0xFFFF) (hlock : namedLock d w.slot h = .ok j) :
    runOp v d w opRelease (leBytes 2 h ++ [0, 0]) = opOk v (freeLock d j).1 (leBytes 2 (freeLock d j).2 ++ [0, 0]) := by
  obtain ⟨hhandle, hzero⟩ := handle_fields hh []
  rw [List.append_nil] at hhandle hzero
  rw [runOp_releaseOp, releaseOp, if_neg (by rw [hzero]; simp), hhandle, if_neg hall, hlock]

/-- COMMIT writes what is staged; keep = 1 keeps the lease. -/
theorem runOp_commit {h n j : Nat} (hh : h < 65536) (hn : n ≤ 1) (hlock : namedLock d w.slot h = .ok j) (hfar : lockFar d j = none)
    (hwrite : writeItems v d w (d.lock j).staged = .ok (v', e)) :
    runOp v d w opCommit (leBytes 2 h ++ leBytes 1 n ++ [0]) =
      opOk v' (if n = 0 then (freeLock e j).1 else setStaged e j []) (leBytes 2 (d.lock j).staged.length ++ [0, 0]) := by
  obtain ⟨hhandle, hkeep, hzero⟩ := commitBody_fields hh (n := n) (by omega)
  rw [runOp_commitOp, commitOp, if_neg (by rw [hzero]; simp), hhandle, hlock]
  dsimp only
  rw [hkeep, if_neg (by omega), hfar]
  simp only [hwrite]

theorem runOp_subscribe {kind : Nat} {a : Addr} (ha : addrOk a = true) (hnode : a.node = d.node) (hkind : kind ≤ 4)
    (hcode : subCode w (subOf kind a.node a.index a.sub) = none) (hnew : (d.ses w.slot).subs.contains (subOf kind a.node a.index a.sub) = false)
    (hroom : (d.ses w.slot).subs.length < 48) (hslot : w.slot < 16) :
    runOp v d w opSubscribe (subBody 1 kind a) =
      opOk v (setSubs d w.slot ((d.ses w.slot).subs ++ [subOf kind a.node a.index a.sub])) (subAnswer ((d.ses w.slot).subs.length + 1)) := by
  obtain ⟨hact, hsub, hzero⟩ := subBody_fields ha (action := 1) (kind := kind) (by decide) (by omega)
  have hk : (subOf kind a.node a.index a.sub).kind = kind := by
    unfold subOf
    split
    · exact Eq.symm ‹_›
    · split
      · exact Eq.symm ‹_›
      · rfl
  have hn : (subOf kind a.node a.index a.sub).node = d.node := by
    unfold subOf
    split
    · exact hnode
    · split
      · exact hnode
      · exact hnode
  have hcount : ((setSubs d w.slot ((d.ses w.slot).subs ++ [subOf kind a.node a.index a.sub])).ses w.slot).subs.length = (d.ses w.slot).subs.length + 1 := by
    rw [setSubs, setN_ses, show w.slot = (⟨w.slot, hslot⟩ : Fin 16).val from rfl, ses_onSes]
    exact List.length_append ..
  rw [runOp_subscribeOp, subscribeOp, if_neg (by rw [hzero]; simp [subBody])]
  dsimp only
  rw [hact, hsub, hk, if_neg (by decide), if_neg (by omega), hn, place_own, subApply]
  rw [if_pos rfl, hcode]
  dsimp only
  rw [hnew, if_neg (by decide), if_neg (by omega)]
  dsimp only
  rw [hcount]

end

/-- Settles O41. -/
theorem sessionLocksAct : Obligations.SessionLocksAct := by
  rintro s k acked d w hask rfl rfl
  have hheard := heard_held acked hask.2.2.2.1
  refine ⟨?_, ?_, ?_, ?_, ?_, ?_⟩
  · intro lease l hwf h1 h8 hrole hcode
    obtain ⟨hwf, hl⟩ := Bool.and_eq_true_iff.mp hwf
    obtain ⟨hwf, -⟩ := Bool.and_eq_true_iff.mp hwf
    obtain ⟨hwf, hlease⟩ := Bool.and_eq_true_iff.mp hwf
    have hnode := (Bool.and_eq_true_iff.mp hwf).2
    exact runNet_request hask (runOp_lock (of_decide_eq_true hnode) (of_decide_eq_true hlease) h1 h8
      (fun r hr => by simpa [Sys2Proof.u] using List.all_eq_true.mp hl r hr) hrole hcode rfl) ((takeLock_held ..).trans hheard)
  · intro handle lease j hwf hlock hok hfar
    obtain ⟨hwf, hlease⟩ := Bool.and_eq_true_iff.mp hwf
    have hhandle := (Bool.and_eq_true_iff.mp hwf).2
    exact runNet_request hask (runOp_renew (of_decide_eq_true hhandle) (of_decide_eq_true hlease) hlock hok hfar)
      ((congrArg Session.held (renewLock_ses ..)).trans hheard)
  · intro handle j hwf hall hlock
    have hhandle := (Bool.and_eq_true_iff.mp hwf).2
    exact runNet_request hask (runOp_release (of_decide_eq_true hhandle) hall hlock) ((congrArg Session.held (freeLock_ses ..)).trans hheard)
  · intro handle j v e hwf hlock hfar hwrite hheld
    have hhandle := (Bool.and_eq_true_iff.mp hwf).2
    exact runNet_request hask (runOp_commit (n := 0) (of_decide_eq_true hhandle) (by decide) hlock hfar hwrite)
      ((congrArg Session.held (freeLock_ses ..)).trans hheld)
  · intro handle j v e hwf hlock hfar hwrite hheld
    have hhandle := (Bool.and_eq_true_iff.mp hwf).2
    exact runNet_request hask (runOp_commit (n := 1) (of_decide_eq_true hhandle) (by decide) hlock hfar hwrite)
      ((congrArg Session.held (setStaged_ses ..)).trans hheld)
  · rintro kind a u hwf hnode hkind rfl hcode hnew hroom
    have ha := (Bool.and_eq_true_iff.mp hwf).2
    exact runNet_request hask (runOp_subscribe ha hnode hkind hcode hnew hroom k.isLt) ((setSubs_held ..).trans hheard)

end Sys2Proof.Machine

/-! Sessions open, rejoin and end (R365, R368, R369, R381, R386, R391). -/
namespace Sys2Proof.Machine

/-! The body of RESYNC. -/

theorem padTo_length_eq {n : Nat} {b : Bytes} (h : b.length = n) : padTo n b = b := by
  subst h
  exact List.take_left

theorem resyncBody_eq {nonce : Bytes} (h : nonce.length = 16) (mode role key seen timeout : Nat) : resyncBody mode role key seen nonce timeout =
    leBytes 1 mode ++ (leBytes 1 role ++ (leBytes 1 key ++ 0 :: (leBytes 4 seen ++ (nonce ++ (leBytes 2 timeout ++ [0, 0]))))) := by
  simp [resyncBody, padTo_length_eq h]

/-- The fields of a RESYNC body. -/
theorem resyncBody_fields {mode role key seen timeout : Nat} {nonce : Bytes} (hmode : mode < 256) (hrole : role < 256) (hkey : key < 256)
    (hseen : seen < 2 ^ 32) (htime : timeout < 65536) (h : nonce.length = 16) :
    leField (resyncBody mode role key seen nonce timeout) 0 1 = mode ∧ leField (resyncBody mode role key seen nonce timeout) 1 1 = role ∧
    leField (resyncBody mode role key seen nonce timeout) 2 1 = key ∧ leField (resyncBody mode role key seen nonce timeout) 3 1 = 0 ∧
    leField (resyncBody mode role key seen nonce timeout) 4 4 = seen ∧ slice (resyncBody mode role key seen nonce timeout) 8 16 = nonce ∧
    leField (resyncBody mode role key seen nonce timeout) 24 2 = timeout ∧ leField (resyncBody mode role key seen nonce timeout) 26 2 = 0 ∧
    (resyncBody mode role key seen nonce timeout).length = 28 := by
  rw [resyncBody_eq h]
  have hskip : ∀ {off n : Nat} {r : Bytes}, 16 ≤ off → leField (nonce ++ r) off n = leField r (off - 16) n := fun hoff => by
    rw [leField, slice_skip (by omega), h]
    rfl
  simp (disch := omega) only [leField_field, leField_here, leField_cons, slice_field, slice_cons, hskip, Nat.reduceSub, slice_here h, true_and]
  refine ⟨rfl, rfl, ?_⟩
  simp [h]

/-! The messages under a role key. -/

section
variable {v : Vault} {d : Dev} {binding src sid key : Nat} {rk : RoleKey} {body : Bytes}

/-- An OPEN whose key and nonce are accepted. -/
theorem keyRequest_open (hserved : served d binding = true) (hkey : v.key key = some rk) (hmode : leField body 0 1 = 0)
    (hid : leField body 2 1 = key) (hnonce : d.jdp.openNonces.contains (slice body 8 16) = false) :
    keyRequest v d binding src sid key body = (v, openSession d rk key binding src sid 0 body) := by
  rw [keyRequest, hserved, if_neg (by decide), hkey]
  dsimp only
  rw [resyncMessage, hmode, hid]
  simp only [hkey, hnonce]
  simp

/-- A REJOIN of an open session whose key and nonce are accepted. -/
theorem keyRequest_rejoin {k : Nat} (hserved : served d (sesBinding d k) = true) (hkey : v.key key = some rk) (hmode : leField body 0 1 = 1)
    (hid : leField body 2 1 = key) (hses : sessionOf d sid = some k) (hnonce : (d.ses k).nonces.contains (slice body 8 16) = false) :
    keyRequest v d (sesBinding d k) src sid key body = (v, rejoinSession d rk key k src 0 body) := by
  rw [keyRequest, hserved, if_neg (by decide), hkey]
  dsimp only
  rw [resyncMessage, hmode, hid]
  simp [hkey, hses]
  exact fun hmem => absurd (List.contains_iff_mem.mpr hmem) (by simp only [hnonce]; decide)

end

/-! The end of a session. -/

/-- Freeing the locks of a session for no reason of their own leaves the sessions and what is retained. -/
theorem freeLock_retained (d : Dev) (j : Nat) : (freeLock d j).1.jdp.retained = d.jdp.retained := by
  simp only [freeLock, Dev.setN]
  show (if _ then _ else _ : Dev).jdp.retained = _
  split <;> rfl

theorem freeLocks_retained (d : Dev) (slot : Nat) : (freeLocks d slot 0).1.jdp.retained = d.jdp.retained := by
  unfold freeLocks
  refine foldl_keeps (fun x : Dev × Nat × Nat => x.1.jdp.retained) (fun x j => ?_) _ _
  split
  · exact freeLock_retained ..
  · rfl

/-- The session's slot is emptied, with what was retained for it. -/
def dropSession (d : Dev) (k : Nat) : Dev :=
  { d.setSes k {} with jdp := { (d.setSes k {}).jdp with retained := d.jdp.retained.filter fun n => n.slot != k } }

/-- The objects of the session's row take their defaults. -/
def resetRow (l : List Obj) (k : Nat) (d : Dev) : Dev := forEach l (fun o x => x.put o o.dflt k) d

theorem endSession_eq {d : Dev} {k : Nat} (h : d.sesOpen k = true) :
    ∃ l, endSession d k = countSessions (resetRow sesObjects k
      (dropSession { (freeLocks d k 0).1 with jdp := { (freeLocks d k 0).1.jdp with notices := l } } k)) :=
  ⟨_, if_neg (by simp [h])⟩

theorem resetRow_jdp (l : List Obj) (k : Nat) (d : Dev) : (resetRow l k d).jdp = d.jdp := by
  refine foldl_keeps Dev.jdp ?_ l d
  exact fun _ _ => rfl

theorem resetRow_cons (o : Obj) (l : List Obj) (k : Nat) (d : Dev) : resetRow (o :: l) k d = resetRow l k (d.put o o.dflt k) := rfl

theorem resetRow_keeps {p : Obj} {l : List Obj} (h : ∀ o ∈ l, o ≠ p ∧ o.stride = p.stride ∧ o.idx * 256 + o.sub ≠ p.idx * 256 + p.sub)
    (k : Nat) (d : Dev) : (resetRow l k d).nat p k = d.nat p k := by
  induction l generalizing d with
  | nil => rfl
  | cons o l ih =>
    obtain ⟨hne, hrow⟩ := h o List.mem_cons_self
    exact (ih (fun q hq => h q (List.mem_cons_of_mem _ hq)) _).trans ((nat_put_row d o p o.dflt k (.inr hrow)).trans (if_neg hne))

theorem resetRow_closed (d : Dev) (k : Nat) : (resetRow sesObjects k d).nat O.jdpSesState k = 0 := by
  rw [show sesObjects = O.jdpSesState :: sesObjects.tail from rfl, resetRow_cons, resetRow_keeps (by decide), nat_put_row _ _ _ _ _ (.inl rfl)]
  rfl

theorem countSessions_open (d : Dev) (k : Fin 16) : (countSessions d).sesOpen k = d.sesOpen k := by
  have hne : ∀ k : Fin 16, objKey O.jdpSessions 0 0 ≠ objKey O.jdpSesState k 0 := by decide
  rw [Dev.sesOpen, countSessions, nat_setN_ne _ _ _ _ _ _ _ _ (hne k)]
  rfl

theorem countSessions_jdp (d : Dev) : (countSessions d).jdp = d.jdp := rfl

theorem dropSession_ses (d : Dev) (k : Fin 16) : (dropSession d k).ses k = {} := by
  simp [dropSession, Dev.setSes, Dev.ses]

theorem dropSession_retained (d : Dev) (k : Nat) : (dropSession d k).jdp.retained = d.jdp.retained.filter fun n => n.slot != k := rfl

/-- What is left of a session that has ended. -/
theorem endSession_ended {d : Dev} {k : Fin 16} (h : d.sesOpen k = true) :
    (endSession d k).sesOpen k = false ∧ (endSession d k).ses k = {} ∧
    (endSession d k).jdp.retained = d.jdp.retained.filter fun n => n.slot != k.val := by
  obtain ⟨l, heq⟩ := endSession_eq h
  have hses : ∀ x y : Dev, x.jdp = y.jdp → x.ses k = y.ses k := fun x y hxy => by rw [Dev.ses, Dev.ses, hxy]
  have hjdp := (countSessions_jdp _).trans (resetRow_jdp sesObjects k
    (dropSession { (freeLocks d k 0).1 with jdp := { (freeLocks d k 0).1.jdp with notices := l } } k))
  rw [heq]
  refine ⟨?_, ?_, ?_⟩
  · rw [countSessions_open, Dev.sesOpen, resetRow_closed]
    rfl
  · rw [hses _ _ hjdp, dropSession_ses]
  · rw [hjdp, dropSession_retained, freeLocks_retained]

/-! OPEN and REJOIN. -/

/-- The session that an OPEN starts in slot `j`, answered. -/
def opened (d : Dev) (rk : RoleKey) (key binding src role timeout j : Nat) (nonce : Bytes) : Dev :=
  let nd := (d.random 16).1
  let d := (d.random 16).2
  let id := nextSid d 17 d.jdp.lastSid
  let e := sessionStart d j id role key (if timeout = 0 then d.nat O.jdpTimeoutDefault else timeout) binding src (sesKey rk.key id nonce nd) nonce
  sesRespond e j opResync 0 false (resyncAnswer e j 0 0 0 nd)

theorem openSession_opened {d : Dev} {rk : RoleKey} {binding src key role timeout j : Nat} {nonce : Bytes} (hlen : nonce.length = 16)
    (htime : timeout < 65536) (hkey : key < 256) (hrole : role < 256) (hring : d.ringMember = false) (hrk : role ≤ roleNum rk.role)
    (hrng : d.on O.secRngState = false) (hslot : freeSlot d role = some j) :
    openSession d rk key binding src 0 0 (resyncBody 0 role key 0 nonce timeout) = opened d rk key binding src role timeout j nonce := by
  obtain ⟨-, hr, -, h3, h4, hn, ht, h26, hl⟩ := resyncBody_fields (mode := 0) (seen := 0) (by decide) hrole hkey (by decide) htime hlen
  rw [openSession]
  dsimp only
  rw [hr, h3, h4, hn, ht, h26, hl, hring, hrng, hslot, if_neg (by decide), if_neg (by decide), if_neg (by omega), if_neg (by decide)]
  rfl

/-- The session that a REJOIN keys anew, answered, with what is replayed. -/
def rejoined (d : Dev) (rk : RoleKey) (key k src seen timeout : Nat) (nonce : Bytes) : Dev :=
  let nd := (d.random 16).1
  let e := (d.random 16).2.onSes k fun x => { x with
    keyId := key, key := sesKey rk.key (d.nat O.jdpSesId k) nonce nd, lastAt := d.up, held := [], kept := [], block := none, awaiting := none,
    absent := false, gathered := [], nonces := lastN 16 (x.nonces ++ [nonce]), iface := src / 2 ^ 48 }
  let e := ((e.setN O.jdpSesCseq 0 k).setN O.jdpSesPeer (src % 2 ^ 48) k).setN O.jdpSesTimeout
    (if timeout = 0 then e.nat O.jdpTimeoutDefault else timeout) k
  let x := freeLocks (e.bump O.jdpSesRejoins k) k 2
  let e := sesRespond x.1 k opResync 0 false (resyncAnswer x.1 k (firstReplayed x.1 k seen) x.2.1 x.2.2 nd)
  (replay x.1 k seen).foldl (fun y m => sesSend y k 4 0x40 0 m.1 m.2) e

/-- The replay reads of the protocol's state what is retained alone. -/
theorem replay_jdp (d : Dev) {j : Jdp} (h : j.retained = d.jdp.retained) (k seen : Nat) : replay { d with jdp := j } k seen = replay d k seen := by
  have hfrom : ∀ n l prev acc, replayFrom { d with jdp := j } seen n l prev acc = replayFrom d seen n l prev acc := fun n l => by
    induction l with
    | nil => exact fun _ _ => rfl
    | cons x l ih =>
      intro prev acc
      unfold replayFrom
      dsimp only
      rw [ih, ih]
      rfl
  unfold replay
  dsimp only
  rw [hfrom, h]
  rfl

theorem replay_emit (d : Dev) (binding peer : Nat) (m : Bytes) (k seen : Nat) : replay (d.emit binding peer m) k seen = replay d k seen := by
  unfold Dev.emit
  split
  · refine replay_jdp d ?_ k seen
    rfl
  · refine replay_jdp d ?_ k seen
    rfl

theorem sesRespond_replay (d : Dev) (k op cseq : Nat) (err : Bool) (body : Bytes) (seen : Nat) :
    replay (sesRespond d k op cseq err body) k seen = replay d k seen := by
  rw [sesRespond, sesSend, replay_emit]
  exact replay_jdp d (j := (d.onSes k fun s => { s with loss := false }).jdp) rfl k seen

theorem rejoinSession_rejoined {d : Dev} {rk : RoleKey} {k src key seen timeout : Nat} {nonce : Bytes} (hlen : nonce.length = 16)
    (htime : timeout < 65536) (hkey : key < 256) (hseen : seen < 2 ^ 32) (hrole : sesRole d k < 256) (hring : d.ringMember = false)
    (hrk : sesRole d k ≤ roleNum rk.role) (hrng : d.on O.secRngState = false) (hfollow : dseqFollows seen (d.nat O.jdpSesDseq k) = false) :
    rejoinSession d rk key k src 0 (resyncBody 1 (sesRole d k) key seen nonce timeout) = rejoined d rk key k src seen timeout nonce := by
  obtain ⟨-, hr, -, h3, h4, hn, ht, h26, hl⟩ := resyncBody_fields (mode := 1) (by decide) hrole hkey hseen htime hlen
  rw [rejoinSession]
  dsimp only
  rw [hr, h3, h4, hn, ht, h26, hl, hring, hrng, hfollow, if_neg (by decide), if_neg (by decide), if_neg (by omega), if_neg (by omega),
    if_neg (by decide), if_neg (by decide)]
  unfold rejoined
  dsimp only [Dev.random]
  generalize freeLocks _ k 2 = x
  rw [sesRespond_replay]

/-- An OPEN that is accepted. -/
theorem openRequest_opened {v : Vault} {d : Dev} {rk : RoleKey} {binding src key role timeout j : Nat} {nonce : Bytes} (hlen : nonce.length = 16)
    (htime : timeout < 65536) (hid : key < 256) (hrole : role < 256) (hserved : served d binding = true) (hkey : v.key key = some rk)
    (hnonce : d.jdp.openNonces.contains nonce = false) (hring : d.ringMember = false) (hrk : role ≤ roleNum rk.role)
    (hrng : d.on O.secRngState = false) (hslot : freeSlot d role = some j) :
    openRequest v d binding src key role timeout nonce = (v, opened d rk key binding src role timeout j nonce) := by
  obtain ⟨hm, -, hi, -, -, hn, -, -, -⟩ := resyncBody_fields (mode := 0) (seen := 0) (by decide) hrole hid (by decide) htime hlen
  rw [openRequest, keyRequest_open hserved hkey hm hi (by rw [hn]; exact hnonce),
    openSession_opened hlen htime hid hrole hring hrk hrng hslot]

/-- A REJOIN that is accepted. -/
theorem rejoinRequest_rejoined {v : Vault} {d : Dev} {rk : RoleKey} {k src key seen timeout : Nat} {nonce : Bytes} (hlen : nonce.length = 16)
    (htime : timeout < 65536) (hid : key < 256) (hseen : seen < 2 ^ 32) (hrole : sesRole d k < 256)
    (hses : sessionOf d (d.nat O.jdpSesId k) = some k) (hserved : served d (sesBinding d k) = true) (hkey : v.key key = some rk)
    (hnonce : (d.ses k).nonces.contains nonce = false) (hring : d.ringMember = false) (hrk : sesRole d k ≤ roleNum rk.role)
    (hrng : d.on O.secRngState = false) (hfollow : dseqFollows seen (d.nat O.jdpSesDseq k) = false) :
    rejoinRequest v d k src key seen timeout nonce = (v, rejoined d rk key k src seen timeout nonce) := by
  obtain ⟨hm, -, hi, -, -, hn, -, -, -⟩ := resyncBody_fields (mode := 1) (by decide) hrole hid hseen htime hlen
  rw [rejoinRequest, keyRequest_rejoin hserved hkey hm hi hses (by rw [hn]; exact hnonce),
    rejoinSession_rejoined hlen htime hid hseen hrole hring hrk hrng hfollow]

/-! Requests, leases and bindings. -/

theorem heldExpiry_cons {d : Dev} {k : Nat} {h : HeldReq} {t : List HeldReq} (hheld : (d.ses k).held = h :: t) :
    heldExpiry d k = (d.onSes k fun x => { x with held := t }).bump O.jdpCntHeldExpired := by
  rw [heldExpiry, hheld]

theorem openingTimeout_opening {d : Dev} {k : Nat} (h : sesState d k = 1) : openingTimeout d k = endSession d k := if_pos h

theorem leaseExpiry_held {d : Dev} {k : Nat} (h : d.nat O.jdpLockOwner k ≠ 0xFF) :
    leaseExpiry d k = lockLost ((freeLock d k).1.onSes (d.nat O.jdpLockOwner k) fun x =>
      { x with expired := x.expired ++ [d.nat O.jdpLockHandle k] }) (d.nat O.jdpLockOwner k) (d.nat O.jdpLockHandle k) 1 (freeLock d k).2 :=
  if_neg h

/-- Settles O42. -/
theorem sessionsOpenAndEnd : Obligations.SessionsOpenAndEnd := by
  intro s
  refine ⟨?_, ?_, fun k h t hheld => next_became (heldExpiry_cons hheld), fun k hopen => ?_, fun k hst => next_became (openingTimeout_opening hst),
    ?_, ?_, ?_⟩
  · intro binding src key role timeout nonce rk j hwf hserved hkey hnonce hring hrk hrng hslot
    obtain ⟨hwf, hlen⟩ := Bool.and_eq_true_iff.mp hwf
    have htime := (Bool.and_eq_true_iff.mp hwf).2
    exact runNet_eq (f := fun v d => openRequest v d binding src key role timeout nonce) (openRequest_opened (of_decide_eq_true hlen)
      (of_decide_eq_true htime) (by omega) (by omega) hserved hkey hnonce hring hrk hrng hslot)
  · intro k src key seen timeout nonce rk hwf hopen hses hserved hid hrole hkey hnonce hring hrk hrng hfollow
    obtain ⟨hwf, hlen⟩ := Bool.and_eq_true_iff.mp hwf
    obtain ⟨hwf, htime⟩ := Bool.and_eq_true_iff.mp hwf
    have hseen := (Bool.and_eq_true_iff.mp hwf).2
    refine (runNet_eq (f := fun v d => rejoinRequest v d k src key seen timeout nonce) (rejoinRequest_rejoined (of_decide_eq_true hlen)
      (of_decide_eq_true htime) (by omega) (of_decide_eq_true hseen) hrole hses hserved hkey hnonce hring hrk hrng hfollow)).trans ?_
    simp only [rejoined]
  · exact ⟨_, rfl, endSession_ended hopen⟩
  · intro k h hopen
    exact runBoth_act h rfl rfl (r := sesClose s.ready k) (by rw [sesClose]; simp [hopen])
  · rintro k slot rfl hne
    exact next_became (leaseExpiry_held hne)
  · intro field value hv h
    refine runBoth_set h ?_ ?_ ?_ hv ?_
    all_goals cases field <;> rfl

end Sys2Proof.Machine

/-! Configuration and mirrors (R396, R400, R402). -/
namespace Sys2Proof.Machine

section
variable {d : Dev}

theorem cfgStore_begins {n : Nat} (hidle : cfgWriting d = false) (hn : n = match activeImage d.cfg with | some (b, _) => imageSeq b | none => 0)
    (hmax : n ≠ 0xFFFFFFFF) (hsize : imageSize d ≤ 131072) :
    cfgStore d = .ok ({ d with cfg := { d.cfg with writing := some (imageOf d (n + 1)) } }.setN O.devCfgState 1) := by
  subst hn
  exact (if_neg (by rw [hidle]; exact not_or.mpr ⟨Bool.false_ne_true, hmax⟩)).trans (if_neg (by omega))

/-- A first image is put in slot A. -/
theorem cfgStoreDone_first {b : Bytes} (hw : d.cfg.writing = some b) (hnone : activeImage d.cfg = none) :
    cfgStoreDone d true = cfgObjects ({ d with cfg := { d.cfg with writing := none, slotA := b } }.setN O.devCfgState 2) := by
  rw [cfgStoreDone, hw]
  dsimp only
  rw [hnone, if_pos rfl]
  rfl

theorem cfgStoreDone_failed {b : Bytes} (hw : d.cfg.writing = some b) :
    cfgStoreDone d false = ({ d with cfg := { d.cfg with writing := none } }.setN O.devCfgState 3).raise 53 0 1 2 := by
  rw [cfgStoreDone, hw]
  exact if_neg (by decide)

theorem cfgRestore_idle (h : cfgIdle d = true) : cfgRestore d = .ok (restoreEffects d (applyImage d fun _ => true)) :=
  if_neg (by simp [h])

theorem cfgDefaults_idle (h : cfgIdle d = true) :
    cfgDefaults d = .ok (restoreEffects d { d with objs := dropWhere (fun l => isStored l.o) d.objs }) := if_neg (by simp [h])

theorem cfgErase_idle (h : cfgWriting d = false) : cfgErase d = .ok (cfgObjects { d with cfg := { slotA := [], slotB := [] } }) :=
  if_neg (by simp [h])

theorem mirrorRefresh_alive {v : Vault} (h : alive d = true) {m e : Dev} (hm : m = mirrorValues v (forUpto 12 compareLane d))
    (he : e = (objectSubs { m with mirror := mirrorCopy m, mirrorAt := m.now }).foldl (objectNotify v m.mirror)
      { m with mirror := mirrorCopy m, mirrorAt := m.now }) :
    mirrorRefresh v d = forUpto 16 (fun k x => if x.sesOpen k then drainQueue x k else x) e := by
  rw [mirrorRefresh, if_neg (by simp [h]), he, hm]

end

/-- Settles O44. -/
theorem configurationActs : Obligations.ConfigurationActs := by
  intro s
  refine ⟨fun n h hidle hn hmax hsize => ?_, fun b hw hnone => next_became (cfgStoreDone_first hw hnone),
    fun b hw => next_became (cfgStoreDone_failed hw), fun h hidle => ?_, fun h hidle => ?_, fun h hidle => ?_, fun m d ha hm hd => ?_⟩
  · exact runBoth_act h rfl rfl (cfgStore_begins hidle hn hmax hsize)
  · exact runBoth_act h rfl rfl (cfgRestore_idle hidle)
  · exact runBoth_act h rfl rfl (cfgDefaults_idle hidle)
  · exact runBoth_act h rfl rfl (cfgErase_idle hidle)
  · refine (runNet_eq (f := refreshAll) (Prod.eta _).symm).trans ?_
    rw [refreshAll, mirrorRefresh_alive ha hm hd]

end Sys2Proof.Machine

/-! Reads that have an effect (R24, R206, R313, R347, R499, R510). -/
namespace Sys2Proof.Machine

section
variable {v : Vault} {d : Dev} {who : Who} {l : Loc}

theorem readObj_effect (hcode : readCode d who l = none) (hlost : readLost d l 0 1020 = false) (hty : l.o.ty ≠ .domain)
    (heff : hasEffect d who l = true) :
    readObj v d who false l = .ok (tyCode l.o.ty, encodeVal l.o.ty (readVal v d who l), readEffect d l) := by
  simp [readObj, hcode, hlost, hty, heff]

/-- The answer of such a read, with its effect left. -/
theorem readAnswer_effect (hcode : readCode d who l = none) (hlost : readLost d l 0 1020 = false) (hty : l.o.ty ≠ .domain)
    (heff : hasEffect d who l = true) :
    readAnswer d (readObj v d who false l) = (readEffect d l).answers (typed (tyCode l.o.ty) (encodeVal l.o.ty (readVal v d who l))) := by
  rw [readObj_effect hcode hlost hty heff]
  rfl

theorem readEffect_sticky (hmin : l.o ≠ O.samEMin) (hmax : l.o ≠ O.samEMax) (hwater : l.o ≠ O.resPoolHiwater) :
    readEffect d l = d.setN l.o 0 l.i l.g :=
  (if_neg (not_or.mpr ⟨hmin, hmax⟩)).trans (if_neg hwater)

theorem readEffect_tracker (h : l.o = O.samEMin ∨ l.o = O.samEMax) : readEffect d l = trackerRead d l.o l.i := if_pos h

/-- A read of an object by its place. -/
theorem readHere_effect {e : Dev} {b : Bytes} (hd : d = readTouch e who l 0 1020) (hcode : readCode d who l = none)
    (hlost : readLost d l 0 1020 = false) (hty : l.o.ty ≠ .domain) (heff : hasEffect d who l = true)
    (hb : b = typed (tyCode l.o.ty) (encodeVal l.o.ty (readVal v d who l))) : readHere v e who l = (readEffect d l).answers b := by
  subst hd hb
  exact readAnswer_effect hcode hlost hty heff

/-- The same by its index and subindex. -/
theorem roleRead_effect {e : Dev} {index sub : Nat} (hl : lookup index sub = some l) (hd : d = touchAt e who index sub)
    (hcode : readCode d who l = none) (hlost : readLost d l 0 1020 = false) (hty : l.o.ty ≠ .domain) (heff : hasEffect d who l = true) :
    roleRead v e who index sub = (readEffect d l).answers (typed (tyCode l.o.ty) (encodeVal l.o.ty (readVal v d who l))) := by
  subst hd
  rw [roleRead, readAt, hl]
  exact readAnswer_effect hcode hlost hty heff

end

/-- Settles O45. -/
theorem readsWithEffectAct : Obligations.ReadsWithEffectAct := by
  intro s
  refine ⟨?_, ?_, ?_, ?_, ?_, ?_⟩
  · intro index sub l d hl hd hcode hlost hty heff hmin hmax hwater
    refine next_became ((roleRead_effect hl hd hcode hlost hty heff).trans ?_)
    rw [readEffect_sticky hmin hmax hwater]
  · rintro max e l d hl hd hcode hlost heff
    have ho : l.o = O.samEMin ∨ l.o = O.samEMax := by
      subst hl
      cases max
      · exact .inl rfl
      · exact .inr rfl
    have hty : l.o.ty ≠ .domain := by
      rcases ho with ho | ho
      · rw [ho]
        decide
      · rw [ho]
        decide
    have hread := readHere_effect (v := s.vault) hd hcode hlost hty heff rfl
    rw [readEffect_tracker ho] at hread
    subst hl
    exact next_became hread
  · rintro l d rfl hd hcode hlost heff
    exact next_became (readHere_effect hd hcode hlost (by decide) heff rfl)
  · rintro k l d rfl hd hcode hlost heff
    exact next_became (readHere_effect hd hcode hlost (show O.tiuInLatch.ty ≠ .domain by decide) heff rfl)
  · rintro severe w l d rfl hd hcode hlost heff
    cases severe with
    | false => exact next_became (readHere_effect hd hcode hlost (show O.fcrStatus.ty ≠ .domain by decide) heff rfl)
    | true => exact next_became (readHere_effect hd hcode hlost (show O.fcrSevere.ty ≠ .domain by decide) heff rfl)
  · rintro k l d rfl hd hcode hlost heff
    exact next_became (readHere_effect hd hcode hlost (show O.compatBlkStatus.ty ≠ .domain by decide) heff rfl)

end Sys2Proof.Machine

/-! Ethernet, PRP, DHCP, ARP and CAN (R426, R427, R428, R429, R434). -/
namespace Sys2Proof.Machine

section
variable {v : Vault} {d : Dev} {p t : Nat} {b : Bytes}

theorem ethFrame_bad (hup : linkUp d p = true) : ethFrame v d p t false b = (v, d.bump O.netEthRxErrors p) := by
  rw [ethFrame]
  dsimp only
  rw [if_neg (by simp [hup]), if_pos (by simp)]

theorem prp_bump_frames (d : Dev) (p : Fin 2) : prp (d.bump O.netEthRxFrames p) = prp d := by
  have hne : ∀ p : Fin 2, objKey O.netEthRxFrames p 0 ≠ objKey O.netPrpMode 0 0 := by decide
  rw [prp, Dev.bump, nat_setN_ne _ _ _ _ _ _ _ _ (hne p)]
  rfl

/-- An untagged ARP frame for the port, outside PRP. -/
theorem ethFrame_arp {p : Fin 2} (hup : linkUp d p = true) (hmin : 60 ≤ b.length) (hmax : b.length ≤ 1518) (htyp : beField b 12 2 = 0x0806)
    (hmac : macTaken d (ifOf d p) (beField b 0 6) = true) (hprp : prp d = false) :
    ethFrame v d p t true b = (v, arpIn (d.bump O.netEthRxFrames p) (ifOf d p) (b.drop 14)) := by
  have hlen : ¬ (decide (b.length < 60) || decide (1518 < b.length)) = true := by simp; omega
  rw [ethFrame]
  dsimp only
  rw [htyp, prp_bump_frames, hprp, hup, hmac, if_neg (by decide), if_neg (by simpa using hlen), if_neg (by decide), if_neg (by simp),
    if_neg (c := ((0x0806 : Nat) == 0x8100) = true) (by decide), htyp]
  rfl

/-- The PHY of an interface that stays down. -/
theorem mdioPoll_down {link : Nat} {full : Bool} {e : Dev} (hon : ethOn d p = true) (hwas : ifUp d (ifOf d p) = false)
    (he : e = (d.setN O.netEthLink link p).setN O.netEthDuplex (b2n full) p) (hnow : ifUp e (ifOf d p) = false) :
    mdioPoll d p link full = e := by
  subst he
  simp only [mdioPoll, hon, hwas, hnow, Bool.not_true, Bool.false_and, Bool.false_eq_true, false_and, and_false, if_false]

theorem prpSupervision_sends (hprp : prp d = true) :
    prpSupervision d = ethSend ((prpAge d).onNet fun x => { x with supSeq := ((prpAge d).net.supSeq + 1) % 65536 }) 0 prpMac 0x88FB
      ([0, 1] ++ beBytes 2 (prpAge d).net.supSeq ++ [20, 6] ++ beBytes 6 (macOf ((prpAge d).onNet fun x =>
        { x with supSeq := ((prpAge d).net.supSeq + 1) % 65536 }) 0) ++ [0, 0]) :=
  if_neg (by simp [hprp])

theorem dhcpRenew_bound (h : (d.iface p).dhcp = 3) : dhcpRenew d p = dhcpSend (d.onIf p fun f => { f with dhcp := 4 }) p 3 :=
  if_neg (not_not_intro h)

theorem dhcpRebind_renewing (h : (d.iface p).dhcp = 4) : dhcpRebind d p = dhcpSend (d.onIf p fun f => { f with dhcp := 5 }) p 3 :=
  if_neg (not_not_intro h)

theorem dhcpExpiry_rebinding (h : (d.iface p).dhcp = 5) (hup : ifUp d p = true) : dhcpExpiry d p = dhcpDiscover (ifClear d p) p := by
  rw [dhcpExpiry, h, if_pos (by decide), if_pos hup]

theorem canRecover_off (h : d.nat O.netCanState p = 3) : canRecover d p = canConfine d p 0 0 := if_pos h

theorem canBusError_on {heavy : Bool} {transmit : Bool} (hoff : d.nat O.netCanState p ≠ 0) (hbus : d.nat O.netCanState p ≠ 3) :
    canBusError d p transmit heavy = if transmit then canConfine d p (d.nat O.netCanTec p + 8) (d.nat O.netCanRec p)
      else canConfine d p (d.nat O.netCanTec p) (d.nat O.netCanRec p + if heavy then 8 else 1) :=
  if_neg (not_or.mpr ⟨hoff, hbus⟩)

end

/-! What the writes do. -/

theorem netEff_prpMode (d : Dev) : netEff d O.netPrpMode 0 = ptpStart (ifStart (ifStart (endIface (endIface d 0) 1) 0) 1) :=
  (if_neg (by decide)).trans (if_pos rfl)

theorem netEff_address (d : Dev) {field : AddressField} (h : field ≠ .prpMode) (i : Nat) :
    netEff d (addressObj field) i = ifStart (endIface d i) i := by
  cases field with
  | prpMode => exact absurd rfl h
  | ipMode => exact (if_neg (by decide)).trans ((if_neg (by decide)).trans (if_pos (by decide)))
  | ipAddr => exact (if_neg (by decide)).trans ((if_neg (by decide)).trans (if_pos (by decide)))
  | ipMask => exact (if_neg (by decide)).trans ((if_neg (by decide)).trans (if_pos (by decide)))

/-- The effect of a write in the pages of the networks. -/
theorem writeEffect_net (old d : Dev) {o : Obj} {i g : Nat} (ho : 0x1200 ≤ o.idx ∧ o.idx < 0x1300) : writeEffect old ⟨o, i, g⟩ d = netEff d o i := by
  have hlow : ∀ q : Obj, ¬ (0x1200 ≤ q.idx ∧ q.idx < 0x1300) → o ≠ q := fun q hq h => hq (h ▸ ho)
  have halarm : alarmFields.contains o = false := by
    have hidx : ∀ q ∈ alarmFields, ¬ (0x1200 ≤ q.idx ∧ q.idx < 0x1300) := by decide
    exact Bool.eq_false_iff.mpr fun hm => hidx o (List.contains_iff_mem.mp hm) ho
  simp only [writeEffect, if_neg (hlow O.laneEnable (by decide)), if_neg (hlow O.laneHoldTimeout (by decide)),
    if_neg (hlow O.resStreamEnable (by decide)), halarm, if_pos ho]
  rw [if_neg (by omega), if_neg (by decide), if_neg (by omega)]

/-- Settles O46. -/
theorem networksAct : Obligations.NetworksAct := by
  intro s
  refine ⟨?_, ?_, ?_, ?_, fun i h => next_became (dhcpRenew_bound h), fun i h => next_became (dhcpRebind_renewing h),
    fun i h hup => next_became (dhcpExpiry_rebinding h hup), fun i => rfl, ?_, ?_, fun p h => next_became (canRecover_off h),
    fun p heavy hoff hbus => next_became ((canBusError_on hoff hbus).trans (if_pos rfl)),
    fun p hoff hbus => next_became ((canBusError_on hoff hbus).trans (if_neg (by decide)))⟩
  · intro p tick b hup hmin hmax htyp hmac hprp
    exact runNet_eq (f := fun v d => ethFrame v d p tick true b) (ethFrame_arp hup hmin hmax htyp hmac hprp)
  · intro p tick b hup
    exact runNet_eq (f := fun v d => ethFrame v d p tick false b) (ethFrame_bad hup)
  · intro p link full d hon hwas hd hnow
    exact next_became (mdioPoll_down hon hwas hd hnow)
  · rintro n hprp rfl
    exact next_became (prpSupervision_sends hprp)
  · intro iface value hv h
    exact runBoth_set h rfl rfl rfl hv ((writeEffect_net _ _ (by decide)).trans (netEff_prpMode _))
  · intro field iface value hne hv h
    have hput := runBoth_set h (by cases field <;> rfl) (by cases field <;> rfl) (by cases field <;> rfl) hv
      ((writeEffect_net _ _ (by cases field <;> decide)).trans (netEff_address _ hne _))
    refine Eq.trans ?_ hput
    show execPrpModeWrite field iface value s = _
    rw [execPrpModeWrite, if_neg hne]

end Sys2Proof.Machine

/-! Ring frames (R436, R438). -/
namespace Sys2Proof.Machine

/-- A head in step originates one cell. -/
theorem hlOriginate_one {d e : Dev} {t first : Nat} (hhead : d.hl.head = true) (hsync : hlSynced d = true)
    (he : e = if first = 0 then startFrame d t else d) (hcell : e.hl.cell = first) (hmax : first < 40) :
    hlOriginate d t first 1 = originateCell e first (e.clk + 2 * (t : Int)) := by
  subst he
  rw [hlOriginate]
  dsimp only
  rw [if_neg (by simp [hhead, hsync])]
  refine (if_pos ⟨hcell, hmax⟩).trans ?_
  rw [Int.natCast_zero, Int.mul_zero, Int.add_zero, Nat.add_zero]

theorem hlFrame_head {v : Vault} {d : Dev} {p t sd fwd : Nat} {b : Bytes} (h : hlState d ≠ hsOff) :
    hlFrame v d p t sd fwd 0 [b] = (v, headIn d p t sd fwd b) := if_neg h

theorem hlFrame_cell {v : Vault} {d : Dev} {p t sd fwd first : Nat} {b : Bytes} (h : hlState d ≠ hsOff) (hfirst : first ≠ 0) :
    hlFrame v d p t sd fwd first [b] = cellIn (v, d) p first t b := (if_neg h).trans (if_neg hfirst)

theorem hlPortDown_up {d : Dev} {p : Nat} (h : hlState d ≠ hsOff) (hp : d.nat O.hlPortState p ≠ 0) :
    hlPortDown d p = portDown ((d.bump O.hlPortBad p 0 (3 - (d.port p).bad)).onPort p fun x => { x with bad := 3 }) p :=
  if_neg (not_or.mpr ⟨h, hp⟩)

/-- A port that sends link frames originates forty cells, the first with the header. -/
def linkCells (d : Dev) (p t sd : Nat) : Dev :=
  let a := takeFit 1053 ((d.port p).ctl.filter fun b => beField b 1 1 = dstNeighbour)
  let d := d.onPort p fun q =>
    { q with ctl := a.2 ++ q.ctl.filter (fun b => beField b 1 1 ≠ dstNeighbour), sentAt := stampAt d t sd }
  let h : Header := { dir := 2, ring := 0, late := false, remote := d.nat O.hlPortState p == 0, hop := 0, nodes := 0,
                      epoch := d.nat O.hlEpoch, mark := d.clk + 2 * (t : Int), acc := 0 }
  let z := List.replicate 5 0
  forUpto 40 (fun k x => sendCell x p k (if k = 0 then headCell z z true h else cellBytes k z z true (slice a.1 (27 * (k - 1)) 27))) d

theorem hlLinkFrame_sends {d : Dev} {p t sd : Nat} (h : sendsLink d p = true) : hlLinkFrame d p t sd = linkCells d p t sd := by
  rw [hlLinkFrame, if_neg (by simp [h]), linkCells]

/-- Settles O47. -/
theorem ringFramesAct : Obligations.RingFramesAct := by
  intro s
  refine ⟨?_, ?_, ?_, ?_, ?_, fun p h hp => next_became (hlPortDown_up h hp)⟩
  · intro tick d hhead hsync hd hcell
    exact next_became (hlOriginate_one (first := 0) hhead hsync hd hcell (by decide))
  · intro tick first hhead hsync hne hcell
    exact next_became (hlOriginate_one hhead hsync (if_neg hne).symm hcell first.isLt)
  · intro p tick sd fwd b h
    exact runNet_eq (f := fun v d => hlFrame v d p tick sd fwd 0 [b]) (hlFrame_head h)
  · intro p tick sd fwd first b h hfirst
    exact runNet_eq (f := fun v d => hlFrame v d p tick sd fwd first [b]) (hlFrame_cell h hfirst)
  · intro p tick sd h
    exact next_became (hlLinkFrame_sends h)

end Sys2Proof.Machine

/-! The ring forms and keeps its members (R439, R440, R442). -/
namespace Sys2Proof.Machine

section
variable {d : Dev}

theorem hlIsolated_member (hhead : d.hl.head = false) (hoff : hlState d ≠ hsOff) (hsearch : hlState d ≠ hsSearch) (hiso : hlState d ≠ hsIsolated) :
    hlIsolated d = isolate d := if_neg (by simp [hhead, hoff, hsearch, hiso])

theorem electDelay_search (h : hlState d = hsSearch) (hrole : d.nat O.hlRole = 0) : electDelay d = startForm d := if_pos ⟨.inl h, hrole⟩

/-- A head gives way to a better candidate. -/
theorem formPacket_better {priority role uid : Nat} (hhead : d.hl.head = true) (huid : uid ≠ d.nat O.idUid)
    (hbetter : listLt [1 - b2n (role == 1), priority, uid] [1 - b2n (d.nat O.hlRole == 1), d.nat O.hlPriority, d.nat O.idUid] = true) :
    formPacket d priority role uid = resign d :=
  (if_neg (by simp [hhead, huid])).trans (if_pos hbetter)

/-- The head keeps what a member says of itself. -/
theorem alivePacket_new {n uid pos links : Nat} (hhead : d.hl.head = true) (hn : n < 64) (hne : n ≠ 0) (hnew : tabFind d.hl.alive n = none) :
    alivePacket d n uid pos links =
      (let d := d.onHl fun h => { h with
         alive := tabPut h.alive n d.up, uids := tabPut h.uids n uid, hops := tabPut h.hops n pos, linksOk := tabPut h.linksOk n links }
       headCheck (setMembers d (setBit (members d) n))) :=
  (if_neg (by simp [hhead]; omega)).trans (if_neg (by simp [hne, hnew]))

/-- A second holder of a number. -/
theorem alivePacket_conflict {n t uid pos links : Nat} (hhead : d.hl.head = true) (hn : n < 64) (hold : tabFind d.hl.alive n = some t)
    (huid : tabGet uid d.hl.uids n ≠ uid) (hfirst : d.hl.conflict = false) :
    alivePacket d n uid pos links = ((d.onHl fun h => { h with conflict := true }).flag O.hlFlags 8).raise 63 0 1 n :=
  (if_neg (by simp [hhead]; omega)).trans ((if_pos (by simp [hold, huid])).trans (if_neg (by simp [hfirst])))

theorem aliveSend_member (hhead : d.hl.head = false) (hnode : d.nat O.hlNode ≠ 0xFF) (hsync : hlSynced d = true) :
    aliveSend d = sendCtl d 0 2 (leBytes 8 (d.nat O.idUid) ++ leBytes 1 d.hl.pos ++ leBytes 1 (b2n ((d.port 0).measured && (d.port 1).measured))) :=
  if_neg (by simp [hhead, hnode, hsync])

theorem nodeLeft_member {n : Nat} (hhead : d.hl.head = true) (hn : n ≠ 0) (hin : bit (members d) n = true) : nodeLeft d n = nodeGone d n :=
  if_neg (by simp [hhead, hn, hin])

theorem hlReform_head (hhead : d.hl.head = true) : hlReform d = .ok (startForm d) := if_neg (by simp [hhead])

theorem writeEffect_hlEnable (old d : Dev) : writeEffect old ⟨O.hlEnable, 0, 0⟩ d = hlEnableEff d := rfl

theorem hlEnableEff_on (d : Dev) : hlEnableEff (d.setI O.hlEnable 1) = hlSearch (d.setI O.hlEnable 1) :=
  if_pos (by rw [Dev.on, int_setI_same]; rfl)

theorem hlEnableEff_off (d : Dev) : hlEnableEff (d.setI O.hlEnable 0) = hlOff (d.setI O.hlEnable 0) :=
  if_neg (by rw [Dev.on, int_setI_same]; decide)

end

/-- Settles O48. -/
theorem ringFormsAndKeepsMembers : Obligations.RingFormsAndKeepsMembers := by
  intro s
  refine ⟨fun hhead hoff hsearch hiso => next_became (hlIsolated_member hhead hoff hsearch hiso),
    fun h hrole => next_became (electDelay_search h hrole),
    fun priority role uid hhead huid hbetter => next_became (formPacket_better hhead huid hbetter),
    fun node uid pos measured hhead hne hnew => next_became (alivePacket_new hhead node.isLt hne hnew),
    fun node t uid pos measured hhead hold huid hfirst => next_became (alivePacket_conflict hhead node.isLt hold huid hfirst),
    fun hhead hnode hsync => next_became (aliveSend_member hhead hnode hsync), fun node hhead hn hin => ?_,
    fun h hhead => runBoth_act h rfl rfl (hlReform_head hhead), fun h => ?_, fun h => ?_⟩
  · exact runNet_eq (f := fun v d => (v, nodeLeft d node)) (congrArg (Prod.mk s.vault) (nodeLeft_member hhead hn hin))
  · exact runBoth_set h rfl rfl rfl rfl ((writeEffect_hlEnable ..).trans (hlEnableEff_on _))
  · exact runBoth_set h rfl rfl rfl rfl ((writeEffect_hlEnable ..).trans (hlEnableEff_off _))

end Sys2Proof.Machine

/-! The ring breaks, unwraps and recovers (R447, R452, R453). -/
namespace Sys2Proof.Machine

section
variable {d : Dev}

theorem breakPacket_head {pos port : Nat} (hhead : d.hl.head = true) (hsync : hlSynced d = true) :
    breakPacket d pos port = headWrapped d pos port := if_pos (by simp [hhead, hsync])

theorem unwrapPacket_member {m : Int} (hhead : d.hl.head = false) : unwrapPacket d m = d.onHl fun h => { h with unwrapAt := some m } :=
  if_neg (by simp [hhead])

/-- The head plans the mark at which the ring unwraps. -/
theorem hlRevertHold_head {m : Int} (hhead : d.hl.head = true) (hst : hlState d = hsWrapped) (hm : m = (d.clk + 1000000 + 7999) / 8000 * 8000) :
    hlRevertHold d = sendCtl (d.onHl fun h => { h with unwrapAt := some m }) dstAll 4 (leInt 8 m) := by
  subst hm
  exact if_neg (by simp [hhead, hst])

/-- At its mark a node whose cut ports are up unwraps. -/
theorem unwrapMark_up {m : Int} (hmark : d.hl.unwrapAt = some m) (hst : hlState d = hsWrapped)
    (hup : ∀ p : Nat, p < 2 → bit d.hl.cut p = true → portUp d p = true) :
    unwrapMark d =
      if d.hl.head then askRecover ((d.onHl fun h =>
        { h with unwrapAt := none, cut := 0, ringState := 1, breaks := [], recalc := 3 }).setN O.hlState hsSync)
      else if d.hl.cut = 0 then d.onHl fun h => { h with unwrapAt := none }
      else staleFollow ((d.onHl fun h => { h with unwrapAt := none, cut := 0 }).setN O.hlState hsSync) := by
  have hdown : ((List.range 2).find? fun p => bit d.hl.cut p && !portUp d p) = none := by
    rw [List.find?_eq_none]
    intro p hp
    have := hup p (List.mem_range.mp hp)
    revert this
    cases bit d.hl.cut p
    · simp
    · simp
  have hst' : ¬ hlState (d.onHl fun h => { h with unwrapAt := none }) ≠ hsWrapped := not_not_intro hst
  rw [unwrapMark, hmark]
  dsimp only
  rw [if_neg hst']
  have hdown' : ((List.range 2).find? fun p => bit (d.onHl fun h => { h with unwrapAt := none }).hl.cut p &&
    !portUp (d.onHl fun h => { h with unwrapAt := none }) p) = none := hdown
  rw [hdown']
  rfl

theorem recoverRequest_member {start : Int} {l : List (Int × Nat)} (hhead : d.hl.head = false)
    (hl : l = (start, termAt d start) :: d.erm.termLog.filter (fun e => decide (start < e.1))) :
    recoverRequest d start = sendEntries d 0 ((l.length + 102) / 103) l := by
  subst hl
  exact if_neg (by simp [hhead])

theorem recoverReply_member {n : Nat} {l : List (Int × Nat)} (hhead : d.hl.head = false) :
    recoverReply d n 0 l = staleFollow ((sysRecover d l).onHl fun h => { h with breaking := false }) :=
  if_neg (by simp [hhead])

/-- The head takes a part of what the last member it waits for sends. -/
theorem recoverReply_part {n left : Nat} {t : Int} {l : List (Int × Nat)} (hhead : d.hl.head = true) (hmiss : d.hl.missing = some t)
    (hwait : d.hl.recovering = [n]) (hleft : left ≠ 0) :
    recoverReply d n left l = d.onHl fun h => { h with recovered := h.recovered ++ l.map fun e => (n, e.1, e.2) } := by
  rw [recoverReply, if_pos hhead, hmiss]
  dsimp only
  rw [hwait, if_neg (by simp)]
  simp only [if_neg hleft]
  exact if_neg (by simp [Dev.onHl, hwait])

end

theorem bit_pow : ∀ p q : Fin 2, bit (2 ^ p.val) q.val = true → q = p := by decide

/-- Settles O49. -/
theorem ringBreaksAndRecovers : Obligations.RingBreaksAndRecovers := by
  intro s
  refine ⟨fun pos port hhead hsync => next_became (breakPacket_head hhead hsync), fun mark hhead => next_became (unwrapPacket_member hhead),
    fun m hhead hst hm => next_became (hlRevertHold_head hhead hst hm), fun m hmark hst hcut hhead => ?_,
    fun m p hmark hst hcut hport hhead => ?_, fun start l hhead hl => next_became (recoverRequest_member hhead hl),
    fun node l hhead => next_became (recoverReply_member hhead),
    fun node left t l hhead hmiss hwait hleft => next_became (recoverReply_part hhead hmiss hwait hleft)⟩
  · refine next_became ((unwrapMark_up hmark hst fun q _ hq => ?_).trans (if_pos hhead))
    rw [hcut] at hq
    simp [bit] at hq
  · refine next_became ((unwrapMark_up hmark hst fun q hq2 hq => ?_).trans ((if_neg (by simp [hhead])).trans (if_neg ?_)))
    · rw [hcut] at hq
      exact (congrArg (fun r : Fin 2 => portUp s.ready r) (bit_pow p ⟨q, hq2⟩ hq)).trans hport
    · rw [hcut]
      exact Nat.ne_of_gt (Nat.two_pow_pos _)

end Sys2Proof.Machine

/-! Ring packets (R389, R443, R450, R451). -/
namespace Sys2Proof.Machine

section
variable {v v' : Vault} {d e : Dev}

/-- What a node keeps of an operation it ran for the head, and sends. -/
def farAnswered (d : Dev) (k aux op sid cseq : Nat) (b : Bytes) (r : Resp) : Dev :=
  let x := respBytes r
  let a := routed (8 + 2 * b2n x.1) op sid cseq x.2
  sendDict { d with jdp := { d.jdp with
    resp := r, fwdKept := d.jdp.fwdKept.filter (·.slot != k) ++ lastN 64 (d.jdp.fwdKept.filter (·.slot == k) ++ [⟨k, b, a⟩]) } } ptRsp 0 aux a

/-- A node runs a forwarded operation it has not run yet. -/
theorem dictReq_new {aux k role : Nat} {b : Bytes} {r : Resp} {rep : List (Nat × Bytes)} (hk : aux % 16 = k) (hrole : aux / 16 % 4 = role)
    (hhead : d.hl.head = false) (hlen : 16 ≤ b.length) (hcseq : leField b 4 4 ≠ 0)
    (hnew : (d.jdp.fwdKept.any fun x => x.slot == k && x.request == b) = false)
    (hop : runOp v d { slot := k, role := role, cseq := leField b 4 4, remote := true } (leField b 1 1) (b.drop 16) = .done r v' e rep) :
    dictReq v d aux b = (v', farAnswered e k aux (leField b 1 1) (leField b 2 2) (leField b 4 4) b r) := by
  have hfind : (d.jdp.fwdKept.find? fun x => x.slot == k && x.request == b) = none :=
    List.find?_eq_none.mpr (List.any_eq_false.mp hnew)
  subst hk hrole
  rw [dictReq]
  dsimp only
  rw [if_neg (by simp [hhead]; omega), hfind]
  dsimp only
  rw [hop]
  exact if_neg hcseq

/-- The head takes the response it waits for. -/
theorem dictRsp_awaited {n k cseq op : Nat} {b req : Bytes} (hhead : d.hl.head = true) (hwait : (d.ses k).awaiting = some (n, cseq, op, req))
    (hcseq : leField b 4 4 = cseq) (hop : leField b 1 1 = op) (hsid : leField b 2 2 = d.nat O.jdpSesId k) :
    dictRsp v d n k b = farDone v d k n op cseq req (bit (leField b 0 1) 1) (b.drop 16) := by
  rw [dictRsp, hhead, hwait]
  exact if_pos ⟨rfl, hcseq, hop, hsid⟩

theorem notifPacket_head {n seq : Nat} {b : Bytes} (hhead : d.hl.head = true)
    (he : e = notifLost (gapIn d n ptNotif seq (leField b 2 2)).2 (fun u => u.node == n && u.kind != 0) (gapIn d n ptNotif seq (leField b 2 2)).1) :
    notifPacket d n seq b = forUpto 16 (fun k y =>
      if bit (leField b 0 2) k && y.sesOpen k && (y.ses k).subs.any (subMeets n (b.drop 4)) then
        (y.queueNotif k (leField (b.drop 4) 0 1) n 0 ((b.drop 4).drop 12)).1
      else y) e := by
  subst he
  exact if_neg (by simp [hhead])

theorem resultPacket_head {n stream seq : Nat} {b : Bytes} (hhead : d.hl.head = true)
    (he : e = notifLost (gapIn d n ptResult seq (leField b 0 2)).2 (fun u => u.node == n && u.kind == 0) (gapIn d n ptResult seq (leField b 0 2)).1) :
    resultPacket d n stream seq b = (resultEntries 14 (b.drop 4)).foldl (fun y x => deliverResult y stream n x.1 x.2) e := by
  subst he
  exact if_neg (by simp [hhead])

theorem linkPacket_on {p sent rcvd : Nat} (h : hlState d ≠ hsOff) :
    linkPacket d p sent rcvd = headCheck ((d.onPort p fun y => { y with measured := true }).setN O.hlPortDelay
      ((((d.port p).rcvdAt : Int) - (d.port p).sentAt - ((sent : Int) - rcvd)) * 200 + roundDiv (d.int O.hlPortAsym p) 2).toNat p) :=
  if_neg h

theorem linkSend_on {p : Nat} (h : hlState d ≠ hsOff) (hheld : hlState d ≠ hsHeld) :
    linkSend d p = (let x := ownPacket d ptLink dstNeighbour 0 (leBytes 8 (d.port p).sentAt ++ leBytes 8 (d.port p).rcvdAt)
      queueOn x.2 p false x.1) :=
  if_neg (not_or.mpr ⟨h, hheld⟩)

end

/-- Settles O50. -/
theorem ringPacketsAct : Obligations.RingPacketsAct := by
  intro s
  refine ⟨?_, ?_, fun node seq b d hhead hd => next_became (notifPacket_head hhead hd),
    fun node stream seq b d hhead hd => next_became (resultPacket_head hhead hd), fun p sent rcvd h => next_became (linkPacket_on h),
    fun p h hheld => next_became (linkSend_on h hheld)⟩
  · intro k role b r v d rep hhead hlen hcseq hnew hop
    exact runNet_eq (f := fun v d => dictReq v d (16 * role + k) b) (dictReq_new (by omega) (by omega) hhead hlen hcseq hnew hop)
  · intro node k b req cseq op hhead hwait hcseq hop hsid
    exact runNet_eq (f := fun v d => dictRsp v d node k b) (dictRsp_awaited hhead hwait hcseq hop hsid)

end Sys2Proof.Machine

/-! Clock sources, trim and multiplexers (R456, R457, R459, R461, R462, R464). -/
namespace Sys2Proof.Machine

section
variable {d : Dev}

/-- The loss of a reference: its qualification goes, and the core moves where it was in use. -/
theorem clockLoss_ref {s : Nat} (hs : s ≠ 3) : clockLoss d s =
    if d.clkg.ref = s then refLost (trimFollow (setQual (if s = 2 then setQual d 3 false else d) (s - 1) false))
    else trimFollow (setQual (if s = 2 then setQual d 3 false else d) (s - 1) false) := by
  rw [clockLoss, if_neg hs]
  simp only [decide_eq_true_eq]

theorem clockLoss_first_unused (h : d.clkg.ref ≠ 1) : clockLoss d 1 = trimFollow (setQual d 0 false) := by
  rw [clockLoss_ref (by decide), if_neg h, if_neg (by decide)]

theorem clockLoss_first_used (h : d.clkg.ref = 1) : clockLoss d 1 = refLost (trimFollow (setQual d 0 false)) := by
  rw [clockLoss_ref (by decide), if_pos h, if_neg (by decide)]

theorem clockLoss_second_unused (h : d.clkg.ref ≠ 2) : clockLoss d 2 = trimFollow (setQual (setQual d 3 false) 1 false) := by
  rw [clockLoss_ref (by decide), if_neg h, if_pos rfl]

theorem clockLoss_hrc : clockLoss d 3 = hrcLost d := if_pos rfl

theorem clockQualified_second (h : refQualified d 1 = true) :
    clockQualified d 2 = refAvailable (setQual (setQual d 1 true) 3 false) := by
  simp [clockQualified, h]

theorem clockQualified_first : clockQualified d 1 = refAvailable (setQual d 0 true) := by
  simp [clockQualified]

theorem trimWindow_fine {excess : Int} (hsrc : d.nat O.clkTrimSrc ≠ 0) (hst : cgState d ≠ cgLimp) (hc : 12 ≤ d.clkg.coarse) :
    trimWindow d excess = (fineWindow d (excess * 10000)).setN O.clkTrimSrc (wantTrim (fineWindow d (excess * 10000))) := by
  rw [trimWindow, if_neg (not_or.mpr ⟨hsrc, hst⟩), if_neg (by omega)]

theorem coarseWindow_last {excess : Int} (hc : d.clkg.coarse = 11) :
    coarseWindow d excess = (d.setN O.clkHrcTrim (if 0 < excess then clrBit (d.nat O.clkHrcTrim) 0
      else setBit (d.nat O.clkHrcTrim) 0)).onClk (fun c => { c with coarse := 12 }) := by
  have hnext : ∀ x : Dev, x.clkg = d.clkg → (x.onClk fun c => { c with coarse := c.coarse + 1 }) = x.onClk fun c => { c with coarse := 12 } :=
    fun x hx => by rw [Dev.onClk, Dev.onClk, hx, hc]
  rw [coarseWindow, hc, if_pos rfl]
  exact hnext _ rfl

theorem trimWindow_coarse {excess : Int} {e : Dev} (hsrc : d.nat O.clkTrimSrc ≠ 0) (hst : cgState d ≠ cgLimp) (hc : d.clkg.coarse = 11)
    (he : e = (d.setN O.clkHrcTrim (if 0 < excess then clrBit (d.nat O.clkHrcTrim) 0
      else setBit (d.nat O.clkHrcTrim) 0)).onClk (fun c => { c with coarse := 12 })) :
    trimWindow d excess = e.setN O.clkTrimSrc (wantTrim e) := by
  rw [trimWindow, if_neg (not_or.mpr ⟨hsrc, hst⟩), if_pos (by omega), coarseWindow_last hc, he]

theorem pllLock_locking (hst : cgState d = cgLocking) (hpll : d.clkg.sysPll = true) : pllLock d = samRestartAll (toLocked d) := by
  rw [pllLock, if_pos hst]
  dsimp only
  rw [if_pos hpll]

theorem pllLock_relock (hst : cgState d = cgRelock) (hpll : d.clkg.sysPll = true) :
    pllLock d = samRestartAll (trimFollow ((d.setN O.clkLastRelock (d.up - d.clkg.switchAt)).setN O.clkState cgBackup)) := by
  rw [pllLock, if_neg (by rw [hst]; decide), if_pos hst]
  dsimp only
  rw [if_pos]
  exact hpll

theorem steerDone_steered (hst : cgState d = cgSteer) (hpend : d.clkg.pendPll = none) (hq : refQualified d d.clkg.ref = true) :
    steerDone d = toLocked ((d.setN O.clkInput d.clkg.ref).setN O.clkTrimSrc d.clkg.ref) :=
  if_neg (by simp [hst, hpend, hq])

theorem muxSwitchDone_pll {k : Nat} (hpend : d.clkg.pendPll = some k) (hsys : d.clkg.pendSys = false)
    (hsrc : sourceAlive d (d.nat O.clkInput) = true) :
    muxSwitchDone d = muxFollow ((d.onClk fun c => { c with pendPll := none }).setN O.clkInput k) := by
  have hstay : ¬ (((d.onClk fun c => { c with pendPll := none }).setN O.clkInput k).clkg.pendSys = true) := by
    show ¬ d.clkg.pendSys = true
    rw [hsys]
    decide
  simp only [muxSwitchDone, hpend, hsrc, if_true]
  exact congrArg muxFollow (if_neg fun h => hstay h.1)

end

/-- Settles O51. -/
theorem clockSourcesAct : Obligations.ClockSourcesAct := by
  intro s
  refine ⟨fun h => next_became (clockLoss_first_unused h), fun h => next_became (clockLoss_first_used h),
    fun h => next_became (clockLoss_second_unused h), next_became clockLoss_hrc,
    fun h => next_became (clockQualified_second h), next_became clockQualified_first,
    fun excess hsrc hst hc => next_became (trimWindow_fine hsrc hst hc),
    fun excess d hsrc hst hc hd => next_became (trimWindow_coarse hsrc hst hc hd),
    fun hst hpll => next_became (pllLock_locking hst hpll), fun hst hpll => next_became (pllLock_relock hst hpll),
    fun hst hpend hq => next_became (steerDone_steered hst hpend hq),
    fun k hpend hsys hsrc => next_became (muxSwitchDone_pll hpend hsys hsrc)⟩

end Sys2Proof.Machine

/-! Clock time-outs, choices and limits (R458, R467, R473, R474, R475). -/
namespace Sys2Proof.Machine

section
variable {d : Dev}

theorem relockTimeout_relock (h : cgState d = cgRelock) : relockTimeout d = toNoclock (d.raise 62 0 4 0) := if_neg (not_not_intro h)

theorem qualTimeout_bypass (h : cgState d = cgBypass) (hheld : d.pmu.held = false) :
    qualTimeout d = ((d.setN O.clkState cgLimp).flag O.clkFlags 8).raise 62 0 3 0 := if_neg (by simp [h, hheld])

theorem clkRevert_backup (h : cgState d = cgBackup) (hpend : d.clkg.pendPll = none) (href : chooseRef d ≠ 0) :
    clkRevert d = .ok (steerTo d (chooseRef d)) := if_neg (by simp [h, hpend, href])

theorem revertHold_auto (h : cgState d = cgBackup) (hauto : d.on O.clkRevertAuto = true) (href : chooseRef d ≠ 0) (hpend : d.clkg.pendPll = none) :
    revertHold d = steerTo d (chooseRef d) := if_neg (by simp [h, hauto, href, hpend])

/-- A choice of another reference in LOCKED. -/
theorem refSelEffect_locked (h : cgState d = cgLocked) (href : chooseRef d ≠ 0) (hnew : chooseRef d ≠ d.clkg.ref) :
    refSelEffect d = steerTo (switchPll (d.onClk fun c => { c with backAt := some d.up }) 3) (chooseRef d) := if_pos ⟨h, href, hnew⟩

theorem writeEffect_refSel (old d : Dev) : writeEffect old ⟨O.clkRefSel, 0, 0⟩ d = refSelEffect d := rfl

theorem writeEffect_gate (old d : Dev) : writeEffect old ⟨O.clkGate, 0, 0⟩ d = gateFollow d := rfl

theorem driftWindow_empty (h : d.clkg.driftN = 0) :
    driftWindow d = d.onClk fun c => { c with driftSum := 0, driftN := 0, driftBad := false } := if_pos (.inr h)

theorem backupLimit_backup (h : cgState d = cgBackup) : backupLimit d = d.raise 62 2 6 0 := if_pos (.inr (.inl h))

end

/-- Settles O52. -/
theorem clockLimitsAct : Obligations.ClockLimitsAct := by
  intro s
  refine ⟨fun h => next_became (relockTimeout_relock h), fun h hheld => next_became (qualTimeout_bypass h hheld),
    fun h hst hpend href => runBoth_act h rfl rfl (clkRevert_backup hst hpend href),
    fun hst hauto href hpend => next_became (revertHold_auto hst hauto href hpend), ?_, fun mask hv h => ?_,
    fun h => next_became (driftWindow_empty h), fun h => next_became (backupLimit_backup h)⟩
  · rintro value d hv h rfl hst href hnew
    exact runBoth_set h rfl rfl rfl hv ((writeEffect_refSel _ _).trans (refSelEffect_locked hst href hnew))
  · exact runBoth_set h rfl rfl rfl hv (writeEffect_gate _ _)

end Sys2Proof.Machine

/-! The journal (R517, R528, R531, R533, R534, R536, R538). -/
namespace Sys2Proof.Machine

/-- A value that fits an unsigned type. -/
theorem fits_lt {t : Ty} {x : Nat} (h : fits t x = true) (ht : tySigned t = false) : x < 2 ^ (8 * (tyLen t).getD 0) := by
  rw [fits] at h
  rw [ht, if_neg Bool.false_ne_true, decide_eq_true_eq] at h
  exact_mod_cast h.2

section
variable {d e : Dev} {kj : Bytes}

theorem markTry_none (h : d.erm.mark = none) : markTry d = d := by
  rw [markTry, h]

/-- What a finished page write leaves when the next record goes into an open page with room. -/
def recordPut (e : Dev) (p : JPage) (b : Bytes) : Dev :=
  (setHeadPage e { p with slots := p.slots ++ [b], progAt := e.clk }).onJrn fun j => { j with sinceSeal := j.sinceSeal + 1 }

theorem flashDone_next {seq : Nat} {b : Bytes} {p : JPage} (h0 : d.nat O.jrnState ≠ 0) (h4 : d.nat O.jrnState ≠ 4) (hhold : d.jrn.holding = false)
    (hnext : nextRecord ((d.onJrn fun j => { j with failRun := 0, unavailable := false, lastDoneAt := d.up }).setN O.jrnState 1) = some (seq, b, e))
    (hp : p = writePage e seq) (hroom : p.slots.length + 1 < 62) (hmark : e.erm.mark = none) :
    flashDone d kj true = recordPut e p b := by
  subst hp
  have hfree : ¬ ((d.onJrn fun j => { j with failRun := 0, unavailable := false, lastDoneAt := d.up }).jrn.holding = true) := by
    show ¬ d.jrn.holding = true
    rw [hhold]
    decide
  rw [flashDone, if_neg (not_or.mpr ⟨h0, h4⟩), if_neg (by decide)]
  dsimp only
  rw [if_neg hfree, if_neg hfree, hnext]
  dsimp only
  rw [if_neg (by rw [List.length_append]; simp; omega)]
  exact markTry_none hmark

theorem flashDone_failed (h0 : d.nat O.jrnState ≠ 0) (h4 : d.nat O.jrnState ≠ 4) : flashDone d kj false = flashFailed d :=
  (if_neg (not_or.mpr ⟨h0, h4⟩)).trans (if_pos rfl)

theorem flashStall_writing (h : d.nat O.jrnState = 1) (hun : d.jrn.unavailable = false) : flashStall d = writerLost d :=
  if_neg (by simp [h, hun])

/-- A SEAL record in an open page that has room. -/
theorem sealInterval_record {p : JPage} (hp : openPage d.jrn = some p) (hnew : d.jrn.sinceSeal ≠ 0) (hun : d.jrn.unavailable = false)
    (hroom : p.slots.length < 61) :
    sealInterval d kj = ((setHeadPage d { p with
      slots := p.slots ++ [sealRecord kj p p.slots.length d.now], progAt := d.clk }).onJrn fun j =>
        { j with lastSealAt := d.up, sinceSeal := 0 }).setN O.jrnSeqSealed (p.next - 1) := by
  rw [sealInterval, hp]
  exact (if_neg (by simp [hnew, hun])).trans (if_neg (by omega))

/-- The journal emptied, under a new identity. -/
def formatted (d : Dev) : Dev :=
  let jid := leNat (d.random 8).1
  ((d.random 8).2.onJrn fun j => { j with
    pages := [], jid := jid, prevSeal := chainZero (d.random 8).2 jid, gapRun := none, bootGap := none, holding := false,
    formatDraws := j.formatDraws + 1, sinceSeal := 0 }).setN O.jrnFlashPasses 0

theorem journalFormat_empty {v : Vault} (hst : d.jrn.staging = []) (hring : d.jrn.ring = []) (hkj : v.kj ≠ []) :
    journalFormat v d = .ok (v, (formatted d).station 9 0
      (leInt 8 (sumI (d.jrn.pages.map fun x => (pageRecords x.2 : Int))) ++ leBytes 8 (leNat (d.random 8).1))) := by
  rw [journalFormat, if_neg (by simp [hst, hring])]
  dsimp only [Dev.random]
  rw [if_neg hkj]
  rfl

theorem journalVerify_begins (h : d.nat O.jrnVerifyState ≠ 1) : journalVerify d = .ok (d.setN O.jrnVerifyState 1) := if_neg h

theorem journalVerifyDone_passed (h : d.nat O.jrnVerifyState = 1) (hv : verifyFrom kj none (heldPages d.jrn) = none) :
    journalVerifyDone d kj = d.setN O.jrnVerifyState 2 := by
  rw [journalVerifyDone, if_neg (not_not_intro h), hv]

theorem journalVerifyDone_failed {b : Nat} (h : d.nat O.jrnVerifyState = 1) (hv : verifyFrom kj none (heldPages d.jrn) = some b) :
    journalVerifyDone d kj = ((d.setN O.jrnVerifyState 3).setN O.jrnVerifyBad b).flag O.jrnFlags 1 := by
  rw [journalVerifyDone, if_neg (not_not_intro h), hv]

theorem ackTo_rises {value : Nat} (hmin : d.nat O.jrnAck ≤ value) (hmax : value ≤ d.nat O.jrnSeqSealed) (hhold : d.jrn.holding = false) :
    ackTo d value = .ok (d.setN O.jrnAck value) := by
  have hfree : ¬ ((d.setN O.jrnAck value).jrn.holding = true) := by
    rw [Dev.setN, put_jrn, hhold]
    decide
  rw [ackTo, if_neg (by omega)]
  dsimp only
  rw [if_neg hfree]

/-- An old sealed page goes to the head. -/
theorem pageRefresh_old {sector : Nat} {p : JPage} (hp : d.jrn.page sector = some p) (hsealed : p.sealed = true) (hhead : sector ≠ d.jrn.head)
    (hopen : openPage d.jrn = none) (hhold : d.jrn.holding = false) (hroom : d.jrn.staging.length < 512)
    (hage : d.int O.jrnRefreshAge < d.clk - p.progAt) :
    pageRefresh d sector = moveHead ((setHeadPage d { p with flag := 1, gen := (p.gen + 1) % 65536, progAt := d.clk }).onJrn fun j =>
      { j with pages := tabDel j.pages sector }) := by
  rw [pageRefresh, hp]
  exact if_neg (by simp [hsealed, hhead, hopen, hhold, hroom]; omega)

end

/-- Settles O57. -/
theorem journalActs : Obligations.JournalActs := by
  intro s
  refine ⟨?_, fun h0 h4 hmark => ?_, fun h hun => next_became (flashStall_writing h hun),
    fun p hp hnew hun hroom => next_became (sealInterval_record hp hnew hun hroom), fun h => runBoth_act h rfl rfl rfl, ?_,
    fun h hv => runBoth_act h rfl rfl (journalVerify_begins hv), fun h hv => next_became (journalVerifyDone_passed h hv),
    fun b h hv => next_became (journalVerifyDone_failed h hv), ?_,
    fun sector p hp hsealed hhead hopen hhold hroom hage => next_became (pageRefresh_old hp hsealed hhead hopen hhold hroom hage)⟩
  · rintro d e seq b p h0 h4 hhold rfl hnext hp hroom hmark
    have hdone := flashDone_next (kj := s.vault.kj) h0 h4 hhold hnext hp hroom hmark
    exact next_became ((congrArg markTry hdone).trans (markTry_none hmark))
  · exact next_became ((congrArg markTry (flashDone_failed h0 h4)).trans (markTry_none hmark))
  · intro h hst hring hkj
    refine ⟨formatted s.ready, _, ?_, rfl, rfl, rfl, rfl, ?_⟩
    · exact runBoth_act h rfl (r := .ok _) (journalFormat_empty hst hring hkj) rfl
    · rw [formatted, nat_setN_same]
  · intro value hv h hmin hmax hhold
    refine runBoth_act h rfl (r := ackTo s.ready value) ?_ (ackTo_rises hmin hmax hhold)
    have hlt : value < 2 ^ (8 * 8) := fits_lt (t := O.jrnAckTo.ty) hv rfl
    show (ackTo s.ready (leNat (leInt 8 value))).map _ = _
    rw [leNat_leInt_nat hlt]

end Sys2Proof.Machine

/-! Keys (R546): KEY_SET as the statement has it draws a session key on the way; the model's session of this node draws nothing. -/
namespace Sys2Proof.Machine

/-- The part out of reset and released, with an OWNER session in slot 15. -/
def keySetter : State :=
  { State.reset with dev := { State.reset.dev with pmu := { ({} : Pmu) with held := false } }.setN O.jdpSesRole 3 15 }

/-- An OBSERVER key of 32 bytes, wrapped. -/
def keySetBody : Bytes := List.replicate 34 0

/-- The random values drawn so far in the state that a command leaves. -/
def drawsAfter : Result → Option Nat
  | .next s => some s.dev.draws
  | _ => none

/-- The model's KEY_SET of a session of this node draws nothing. -/
theorem keySet_draws_nothing : drawsAfter (exec (.keySet 15 15 keySetBody) keySetter) = some 0 := by decide +kernel

/-- Refutes O59: the device that the statement puts in the result has drawn 32 bytes, which a session of this node does not draw. -/
theorem not_keysAct : ¬ Obligations.KeysAct := by
  intro h
  have hset := (h keySetter).1 15 15 keySetBody _ _ _ rfl (by decide +kernel) rfl (by decide +kernel) (by decide +kernel) (by decide +kernel)
    (by decide +kernel) rfl (by decide +kernel) rfl
  have hdraws := keySet_draws_nothing.symm.trans (congrArg drawsAfter hset)
  exact absurd hdraws (by decide +kernel)

end Sys2Proof.Machine
